-- ==== Sys2Proof/Word.lean ====
section
/-! DEFINITION. The word types of the ZX6496 and their plainest arithmetic. -/

namespace Sys2Proof

/-- One byte of a frame, a record or host memory (R4). -/
abbrev Byte := BitVec 8

/-- The host slot of a register: 32 bits, the value in bits 23:0 (R6). -/
abbrev Slot := BitVec 32

/-- One tq, the unit of the time axis, is 6.25 ns (R2): the number of tq in a microsecond. -/
def tqPerUs : Nat := 160

/-- tq in a millisecond. -/
def tqPerMs : Nat := 160000

/-- tq in a second. -/
def tqPerS : Nat := 160000000

end Sys2Proof
end

