-- ==== Sys2Proof/Syntax.lean ====
section
/-! DEFINITION. The commands of the block, one constructor per row of the opcode table, and the types of their operands. -/

namespace Sys2Proof

/-- A function of a host link (R65-R67): link 0 or 1, function number 0 for the PF, n for VF n. -/
structure Func where
  link : Nat
  fn : Nat
  deriving DecidableEq, Repr

/-- A memory request to a function (R9, R100-R102): BAR number, byte offset, write or read, number of DWORDs,
whether it is DWORD-aligned with all byte enables set, and the 32-bit value of a write. -/
structure Access where
  f : Func
  bar : Nat
  off : Nat
  write : Bool
  dwords : Nat
  whole : Bool
  val : Nat
  deriving DecidableEq, Repr

/-- A block instance that has RWB fields (R121): FB port, SP port, ring link port, pair link port or discrete bank. -/
inductive Inst where
  | fb (p : Nat)
  | sp (n : Nat)
  | rl (port : Nat)
  | pl (n : Nat)
  | db (b : Nat)
  deriving DecidableEq, Repr

/-- The three copies of a triplicated field as the vote finds them: value and good parity (R110, R111). -/
structure Copies where
  a : Nat
  aGood : Bool
  b : Nat
  bGood : Bool
  c : Nat
  cGood : Bool
  deriving DecidableEq, Repr

/-- What a read finds of one triplicated field (R111, R112): the DWORD of the request, the field's lowest bit, and the copies. -/
structure Found where
  dword : Nat
  lo : Nat
  copies : Copies
  deriving DecidableEq, Repr

/-- How a host read ends (R224): data, or Unsupported Request 1, Completer Abort 2, Completion Timeout 3, poisoned data 4. -/
inductive ReadResult where
  | ok (bytes : List Byte)
  | err (cause : Nat)
  deriving DecidableEq, Repr

/-- A CAN frame (R231): identifier, format flags, data length code and data bytes. -/
structure Frame where
  id : Nat
  ide : Bool
  rtr : Bool
  fdf : Bool
  brs : Bool
  dlc : Nat
  data : List Byte
  deriving DecidableEq, Repr

/-- What a header event brings (R29, R345): identifier, flags and DLC as received, and how many tq before it the SOF sample point lay (R240). -/
structure Header where
  id : Nat
  ide : Bool
  rtr : Bool
  fdf : Bool
  brs : Bool
  esi : Bool
  dlc : Nat
  sofAgo : Nat
  deriving DecidableEq, Repr

/-- The error types of FB_LASTERR (chapter 05). -/
inductive ErrType where
  | bit | stuff | form | crc | ack | stuffCount
  deriving DecidableEq, Repr

/-- The conditions of R249 that one error event can meet. -/
inductive ErrCase where
  /-- Case 1: a receiver detects an error. -/
  | receiver
  /-- Case 2: dominant first bit after the receiver's error flag. -/
  | receiverDominant
  /-- Case 3: a transmitter sends an error flag. -/
  | transmitter
  /-- Case 3a: ACK error of an error-passive transmitter, no dominant bit in its flag. -/
  | ackPassive
  /-- Case 3b: stuff error in arbitration at a recessive stuff bit monitored dominant. -/
  | stuffArb
  /-- Cases 4 and 5: bit error during an active error or overload flag. -/
  | flagBit
  /-- Case 6: 14 (or 8) dominant bits after a flag, and each further 8. -/
  | dominantRun
  deriving DecidableEq, Repr

/-- An error the bit engine detects (R249): type, case, data phase, bit position, and, before the header event, what was received of the frame (R363). -/
structure BusError where
  typ : ErrType
  case_ : ErrCase
  dataPhase : Bool
  bitPos : Nat
  /-- A receiver that has received the frame up to the ACK slot and sent the ACK bit (R249, cases 8 and 9). -/
  acked : Bool := false
  /-- What was received: header bits so far (bits not received 0) and whole data bytes. -/
  partial_ : Header
  data : List Byte
  deriving DecidableEq, Repr

/-- The bus conditions for an overload frame (R232). -/
inductive OverloadCause where
  | intermission
  | lastEof
  deriving DecidableEq, Repr

/-- The device's own frames (R86, R330): ISO 11898-4 reference message, Clove, Anise query, commit and wake. -/
inductive DevFrame where
  | reference
  | clove
  | aniseQuery
  | aniseCommit
  | aniseWake
  deriving DecidableEq, Repr

/-- A cell of a fabric ring (R518): the header, bytes 16 to 95, and whether its blocks and CRC are good (R522). -/
structure Cell where
  typ : Nat
  vc : Nat
  wrap : Bool := false
  origin : Nat
  dst : Nat
  src : Nat
  tenant : Nat
  hops : Nat := 0
  lseq : Nat := 0
  tag : Nat
  op : Nat
  gaddr : Nat
  body : List Byte
  good : Bool := true
  /-- A SYNC cell in this node: fabric time at its ingress, in 2^-8 ns (R441); none on a lane. -/
  inAt : Option Nat := none
  /-- In this node, a cell that travels on: the port whose receive slot it holds (R543); none on a lane. -/
  from_ : Option Nat := none
  /-- A block of the cell was of a type that R516 does not list. -/
  badBlock : Bool := false
  deriving DecidableEq, Repr

/-- How a cell came in on a lane (R522, R546): its LSEQ, whether CRC and blocks were good, and whether a block was of a type not listed. -/
structure LaneCell where
  lseq : Nat
  good : Bool := true
  badBlock : Bool := false
  deriving DecidableEq, Repr

/-- A SYNC cell with its residence time in this node, in 2^-8 ns (R441, R558). -/
structure SyncCell where
  cell : Cell
  resid : Nat
  deriving DecidableEq, Repr

/-- A character on a port's receiver, from its start bit to its first stop bit (R473, R475): for each bit the line's level, high or not, at the tq
before its sample instant, at that tq and at the tq after it. -/
structure SerialChar where
  samples : List (Bool × Bool × Bool)
  deriving DecidableEq, Repr

/-- A heartbeat (R605, R606): an HB cell on a pair link, or for the ring path what the last HB cell said. -/
structure Heartbeat where
  state : Nat
  mseq : Nat
  epoch : Nat
  acting : Bool
  pref : Bool
  mirrorOk : Bool
  applied : Nat
  schema : Nat
  digest : Nat
  ns : Nat
  frac : Nat
  timeEpoch : Nat
  timeState : Nat
  timeValid : Bool
  deriving DecidableEq, Repr

/-- The lane on which an HB cell came, where the path is a pair link, and the heartbeat (R607). -/
structure HbCell where
  lane : LaneCell
  beat : Heartbeat
  deriving DecidableEq, Repr

/-- The fields of a mailbox arrival (R377, R519). -/
structure Arrival where
  id : Nat
  port : Nat
  dlc : Nat
  flags : Nat
  epoch : Nat
  ns : Nat
  frac : Nat
  data : List Byte
  deriving DecidableEq, Repr

/-- The bodies of mirror records (R613), and the DB_CNT values of a resync (R615). -/
inductive MirrorBody where
  | entryAdd (p key seq cost tenant lease sqn sqIndex tag : Nat) (nocomp : Bool) (fr : Frame)
  | entryTake (p seq : Nat)
  | entryDone (p seq outcome sof : Nat)
  | lease (lease used tokens ns : Nat)
  | mbox (m : Nat) (a : Arrival)
  /-- Bank, commanded state, and the lines with a pending pulse end with its remaining tq. -/
  | dout (bank state : Nat) (ends : List (Nat × Nat))
  | dcnt (line count : Nat)
  deriving DecidableEq, Repr

/-- A mirror record with its MSEQ. -/
structure MirrorRec where
  mseq : Nat
  body : MirrorBody
  deriving DecidableEq, Repr

/-- A MIRROR or SNAP cell on a pair link: its port and lane, and its records (R613, R615). -/
structure RecordCell where
  port : Nat
  lane : LaneCell
  recs : List MirrorRec
  deriving DecidableEq, Repr

/-- A SWAP cell with the records and the handover record that came before it (R626, R766). -/
structure HandoverCell where
  port : Nat
  lane : LaneCell
  recs : List MirrorRec
  record : List Byte
  deriving DecidableEq, Repr

/-- A serial port starts a message: its number, and for how many tq its line has been idle (R477, R491). -/
structure SpStart where
  n : Nat
  quiet : Nat
  deriving DecidableEq, Repr

/-- A link loss that the receiver finds: its reason code (R547), and whether hi_ber is the cause (R570). -/
structure LossCause where
  reason : Nat
  hiber : Bool
  deriving DecidableEq, Repr

/-- The hold of R650 that ends: the vector's mask, Function Mask, MSI-X Enable 0, Bus Master Enable 0, a D-state other than D0,
or the link out of L0. -/
inductive HoldEnd where
  | unmask
  | functionMask
  | msixEnable
  | busMaster
  | d0
  | linkL0
  deriving DecidableEq, Repr

/-- The commands (spec/opcode_table.json). Every one carries `t`, the instant in tq at which it occurs. -/
inductive Instr where
  /-- REGISTER_WRITE (R10): A host write to a register that has no row of its own takes effect by the field's access code. -/
  | registerWrite (t : Nat) (a : Access)
  /-- REFUSED_ACCESS (R77): An access to a page not open to the function, an absent offset or of a refused form completes harmlessly and counts in TEN_VIOL. -/
  | refusedAccess (t : Nat) (a : Access)
  /-- WIDE_GROUP_READ (R107): A read of the lowest register of a wide group latches a snapshot of the other parts for the reading function. -/
  | wideGroupRead (t : Nat) (a : Access) (found : List Found)
  /-- SCRUB_VISIT (R116): The scrubber visits a triplicated field and corrects it from the majority. -/
  | scrubVisit (t : Nat) (blk inst off lo : Nat) (staged : Bool) (found : Copies)
  /-- RWI_RESTORE (R114): The configuration unit restores all three copies of an RWI field from the active image after a loss of majority. -/
  | rwiRestore (t : Nat) (blk inst off lo : Nat)
  /-- BOUNDARY (R124): At a block instance's boundary the island copies every pending staged RWB field into its active copy. -/
  | boundary (t : Nat) (i : Inst)
  /-- DISCARD (R130): A write of DISCARD in PG_CTL sets every staged RWB field of the instance to its active value and clears PEND. -/
  | discard (t : Nat) (f : Func) (i : Inst)
  /-- FLR (R81): A Function Level Reset of a VF or PF resets the tenants the table names. -/
  | flr (t : Nat) (f : Func)
  /-- VF_ENABLE_CLEARED (R81): Clearing VF Enable or lowering NumVFs resets the tenants of the removed VFs. -/
  | vfEnableCleared (t : Nat) (link numVfs : Nat)
  /-- BUS_MASTER_ENABLE_CLEARED (R81): Clearing Bus Master Enable makes the function's tenant inactive on that link. -/
  | busMasterEnableCleared (t : Nat) (f : Func)
  /-- D3HOT_ENTERED (R81): A PF entering D3hot makes tenant 0 inactive for its rings homed on that link. -/
  | d3hotEntered (t : Nat) (link : Nat)
  /-- HOT_RESET (R81): A Hot Reset, link down or Link Disable resets every function of the link. -/
  | hotReset (t : Nat) (link : Nat)
  /-- FUNCTION_RESET_COMPLETE (R84): The function reset completes within 1 ms and the function's requests are served again. -/
  | functionResetComplete (t : Nat) (f : Func)
  /-- COMPLETIONS_RESUME (R69): When a tenant becomes active again its held completions are written into their CQs in order. -/
  | completionsResume (t : Nat) (f : Func)
  /-- ARM (R163): A write of ARM in RC_CMD runs the checks of R164 and arms the descriptor ring or reports ERRCODE. -/
  | arm (t : Nat) (f : Func) (k : Nat) (both : Bool)
  /-- DISARM (R163): A write of DISARM in RC_CMD disarms the ring, or moves an SQ with outstanding work to DRAINING. -/
  | disarm (t : Nat) (f : Func) (k : Nat) (both : Bool)
  /-- RING_DRAIN_END (R163): A DRAINING descriptor ring whose RC_OUTST reaches 0 becomes IDLE. -/
  | ringDrainEnd (t : Nat) (ring : Nat)
  /-- DOORBELL (R170): A doorbell write validates and moves the SQ tail or the CQ, RQ or EQ head and may arm notification. -/
  | doorbell (t : Nat) (f : Func) (k : Nat) (v : Nat)
  /-- FETCH_REQUEST (R226): The fetch scheduler issues one read request for an SQ with fetchable work in its rotation. -/
  | fetchRequest (t : Nat) (link : Nat)
  /-- FETCH_COMPLETION (R189): A completion of a descriptor read arrives and each descriptor is checked in order. -/
  | fetchCompletion (t : Nat) (link tag : Nat) (r : ReadResult)
  /-- COMPLETION_TIMEOUT (R224): A host read with no completion by its timeout ends with Completion Timeout. -/
  | completionTimeout (t : Nat) (link tag : Nat)
  /-- PAYLOAD_READ_DONE (R230): The payload read of a TX_FRAME with PSRC 0b01 completes and the descriptor proceeds to admission or completes PAYLOAD_DMA. -/
  | payloadReadDone (t : Nat) (link tag : Nat) (r : ReadResult)
  /-- DESC_OPCODE (R179): A descriptor with an unknown opcode completes with status DESC_OPCODE. -/
  | descOpcode (t : Nat) (ring : Nat)
  /-- TX_FRAME (R296): A TX_FRAME is admitted against lease, port and quota and inserted in its port's queue, or refused. -/
  | txFrame (t : Nat) (ring : Nat)
  /-- CANCEL (R331): A CANCEL withdraws and completes the tenant's named queued frames on a port and marks those in flight. -/
  | cancel (t : Nat) (ring : Nat)
  /-- ALLOC (R218): An ALLOC takes a free payload slot, fills it and returns its HANDLE. -/
  | alloc (t : Nat) (ring : Nat)
  /-- FREE (R219): A FREE checks its HANDLE and returns the slot to the pool. -/
  | freeSlot (t : Nat) (ring : Nat)
  /-- WRITE_SLOT (R185): A WRITE_SLOT checks its HANDLE and overwrites the first LEN bytes of the slot. -/
  | writeSlot (t : Nat) (ring : Nat)
  /-- FENCE (R188): A FENCE completes once every earlier descriptor of its SQ has completed. -/
  | fence (t : Nat) (ring : Nat)
  /-- NOP (R179): A NOP completes with status OK. -/
  | nop (t : Nat) (ring : Nat)
  /-- HEADER_EVENT (R345): At a frame's header event the frame assembler takes a transit slot and passes the header to classification. -/
  | headerEvent (t : Nat) (p : Nat) (h : Header)
  /-- EOF_EVENT (R352): At the EOF event a valid frame is committed, steered, fed to its mailbox and handed to the reflex unit. -/
  | eofEvent (t : Nat) (p : Nat) (data : List Byte)
  /-- RECORD_WRITE (R374): The delivery engine reads a committed frame's beats and writes its receive records, or holds or drops them. -/
  | recordWrite (t : Nat) (link : Nat)
  /-- FRAME_TAKE (R244): At the decision instant the bit engine takes the presented head and charges its lease. -/
  | frameTake (t : Nat) (p : Nat)
  /-- ARBITRATION_LOST (R255): The transmitted frame loses arbitration, its charge is refunded and it is queued again. -/
  | arbitrationLost (t : Nat) (p : Nat)
  /-- FRAME_ERROR (R249): The bit engine detects an error, sends an error flag and updates TEC or REC. -/
  | frameError (t : Nat) (p : Nat) (e : BusError)
  /-- OVERLOAD_FRAME (R232): The port sends an overload frame for a bus condition of ISO 11898-1. -/
  | overloadFrame (t : Nat) (p : Nat) (c : OverloadCause)
  /-- PROTOCOL_EXCEPTION (R234): A recessive res bit with PEX 1 sends the bit engine into bus integration. -/
  | protocolException (t : Nat) (p : Nat)
  /-- TDC_SAT (R247): A loop delay not measured within 63 tq is taken as 63 tq. -/
  | tdcSat (t : Nat) (p : Nat)
  /-- INTEGRATION_COMPLETE (R273): After 11 consecutive recessive nominal bits an INTEGRATING port becomes ACTIVE. -/
  | integrationComplete (t : Nat) (p : Nat)
  /-- OCCURRENCE (R279): A port in BUS_OFF or RECOVERING counts a run of 11 recessive bits. -/
  | occurrence (t : Nat) (p : Nat)
  /-- AUTO_CLEAR (R281): The supervisor clears a bus-off at K × 128 occurrences, or sets HELD at the hourly limit. -/
  | autoClear (t : Nat) (p : Nat)
  /-- RECOVERED (R280): The 128th occurrence after a clear makes the port ACTIVE with counters 0. -/
  | recovered (t : Nat) (p : Nat)
  /-- TXDOM (R259): The transceiver releases a driver held dominant for over 1.0 ms. -/
  | txdom (t : Nat) (p : Nat)
  /-- BUSDOM (R260): The bus seen dominant for over 1.0 ms sets BUSDOM. -/
  | busdom (t : Nat) (p : Nat) (on : Bool)
  /-- WAKE_SIGNAL (R261): The wake detector signals a wake after a dominant phase longer than the filter time. -/
  | wakeSignal (t : Nat) (p : Nat)
  /-- TRANSCEIVER_MODE_DONE (R258): A transceiver mode change completes and the bit engine begins integration. -/
  | transceiverModeDone (t : Nat) (p : Nat)
  /-- ENABLE (R273): The owner's ENABLE moves a DISABLED port to INTEGRATING or RECOVERING, or is held in DRAINING. -/
  | enable (t : Nat) (f : Func) (p : Nat) (bits : Nat)
  /-- DISABLE (R273): The owner's DISABLE moves the port to DISABLED or DRAINING. -/
  | disable (t : Nat) (f : Func) (p : Nat) (bits : Nat)
  /-- CLR_BO (R280): The owner's CLR_BO clears a latched bus-off and starts recovery. -/
  | clrBo (t : Nat) (f : Func) (p : Nat) (bits : Nat)
  /-- DRAIN_END (R276): DRAINING ends at the end of the frame in progress and applies any pending ENABLE. -/
  | drainEnd (t : Nat) (p : Nat)
  /-- DRAIN_LIMIT (R276): DRAINING ends after 1,200 nominal bit times at the next bit boundary. -/
  | drainLimit (t : Nat) (p : Nat)
  /-- TOKENS (R310): A lease's bucket reaches the cost of its first entry and the entry becomes eligible. -/
  | tokens (t : Nat) (lease : Nat)
  /-- REPLY_EXPIRY (R328): A queued reflex reply whose lifetime has passed is withdrawn and freed. -/
  | replyExpiry (t : Nat) (p : Nat) (seq : Nat)
  /-- QUEUE_REBUILD_DONE (R335): The queue rebuild completes and RESETTING clears. -/
  | queueRebuildDone (t : Nat) (p : Nat)
  /-- PQ_HEAD0 (R336): A read of PQ_HEAD0 snapshots the presented head, or sets UNDER when the queue is empty. -/
  | pqHead0 (t : Nat) (f : Func) (p : Nat)
  /-- MB_OPEN (R379): A read of MB_OPEN opens a read sequence and latches the current buffer. -/
  | mbOpen (t : Nat) (f : Func) (m : Nat)
  /-- MB_CLOSE (R381): A read of MB_CLOSE closes the sequence and swaps in a waiting arrival. -/
  | mbClose (t : Nat) (f : Func) (m : Nat)
  /-- MAILBOX_AUTO_CLOSE (R383): A read sequence open for 100 µs closes itself. -/
  | mailboxAutoClose (t : Nat) (m : Nat)
  /-- LOWCLR (R391): A write of LOWCLR sets FS_LOW to the present FREE. -/
  | lowclr (t : Nat) (f : Func)
  /-- SYNC (R442): A SYNC cell is timestamped, corrected, forwarded and accepted by the time unit as reference. -/
  | syncCell (t : Nat) (port : Nat) (c : SyncCell)
  /-- SYNC_SEND (R440): The fabric time master sends one SYNC cell on each ring every SYNC period. -/
  | syncSend (t : Nat)
  /-- MASTER_TIMEOUT (R439): A node that hears no better master for 4 + TMPRI periods starts sending as master. -/
  | masterTimeout (t : Nat)
  /-- REFERENCE_LOSS (R446): No SYNC accepted for 4 periods loses the reference into HOLDOVER or FREE. -/
  | referenceLoss (t : Nat)
  /-- HOLDOVER_TIMEOUT (R433): TU_HOLD reaching HOLDMAX moves HOLDOVER to FREE. -/
  | holdoverTimeout (t : Nat)
  /-- SLEW_END (R450): The remaining slew reaches 0 and the slew ends. -/
  | slewEnd (t : Nat)
  /-- DELAY_MEASURE (R443): Each ring link port measures its link delay with its neighbour every 125 ms. -/
  | delayMeasure (t : Nat) (port : Nat)
  /-- PPS_INPUT_LOSS (R448): PPSIN_OK becomes 0 after 2 s without an accepted edge. -/
  | ppsInputLoss (t : Nat)
  /-- TU_SET (R449): A commit of TU_SET on the master slews or steps fabric time. -/
  | tuSet (t : Nat) (f : Func) (v : Nat)
  /-- TU_ALARM (R453): A commit of TU_ALARM arms the alarm. -/
  | tuAlarm (t : Nat) (f : Func) (v : Nat)
  /-- ALARM_DISARM (R453): A write of DISARM in TU_ALCTL disarms the alarm. -/
  | alarmDisarm (t : Nat) (f : Func)
  /-- ALARM_FIRE (R453): The armed alarm fires at the first tick at or after its time. -/
  | alarmFire (t : Nat)
  /-- PPS_ON (R455): A PPS output line turns on as fabric time reaches a whole second. -/
  | ppsOn (t : Nat) (line : Nat)
  /-- PPS_OFF (R456): A PPS pulse turns off PPSW ms after it turned on. -/
  | ppsOff (t : Nat) (line : Nat)
  /-- TT_CYCLE_START (R461): A time master port submits its reference message at each cycle start. -/
  | ttCycleStart (t : Nat) (p : Nat)
  /-- TT_TIMEOUT (R464): A time slave clears SYNC_OK after RM_TIMEOUT without a reference message. -/
  | ttTimeout (t : Nat) (p : Nat)
  /-- TT_CLR (R468): A write of CLR in TT_CTL zeroes the selected port's counts. -/
  | ttClr (t : Nat) (f : Func)
  /-- CHARACTER (R476): A serial character is received and added to the open record, possibly closing it. -/
  | character (t : Nat) (n : Nat) (c : SerialChar)
  /-- IDLE_CLOSE (R480): No start bit for IDLEGAP bit times closes the record with CLOSE 2. -/
  | idleClose (t : Nat) (n : Nat)
  /-- BREAK (R480): The end of a break closes the record with CLOSE 5. -/
  | lineBreak (t : Nat) (n low : Nat)
  /-- TEN_SPTX_SEL (R488): A write of TEN_SPTX_SEL names port and address and empties the staging buffer. -/
  | tenSptxSel (t : Nat) (f : Func) (v : Nat)
  /-- TEN_SPTX_D (R488): A write of TEN_SPTX_D1, D2 or D3 appends characters to the staging buffer. -/
  | tenSptxD (t : Nat) (f : Func) (n : Nat) (v : Nat)
  /-- TEN_SPTX_GO (R489): A write of GO commits the staged serial message after the checks of R489. -/
  | tenSptxGo (t : Nat) (f : Func)
  /-- SP_MESSAGE_START (R491): The port starts the earliest eligible committed message and charges its lease. -/
  | spMessageStart (t : Nat) (m : SpStart)
  /-- SP_MESSAGE_END (R492): A serial message ends SENT. -/
  | spMessageEnd (t : Nat) (n : Nat)
  /-- SP_ENABLE (R495): The owner's ENABLE moves an SP port to ENABLED, or is held in DRAINING. -/
  | spEnable (t : Nat) (f : Func) (n : Nat) (bits : Nat)
  /-- SP_DISABLE (R495): The owner's DISABLE moves an SP port to DRAINING or DISABLED. -/
  | spDisable (t : Nat) (f : Func) (n : Nat) (bits : Nat)
  /-- SP_DRAIN_END (R495): DRAINING ends at the stop bit; messages return and the record closes. -/
  | spDrainEnd (t : Nat) (n : Nat)
  /-- SP_RECEIVER_READY (R495): After 10 idle bit times an enabled receiver accepts start bits. -/
  | spReceiverReady (t : Nat) (n : Nat)
  /-- BANK_SAMPLE_TICK (R498): At each bank sample tick the bank samples inputs and applies commands and staged writes. -/
  | bankSampleTick (t : Nat) (b : Nat) (levels : Nat)
  /-- FUNCTION_SWITCH_START (R506): At T + 2 a switched line starts its new function. -/
  | functionSwitchStart (t : Nat) (b : Nat) (line : Nat)
  /-- PULSE_END (R409): A pending pulse end turns the line off. -/
  | pulseEnd (t : Nat) (b : Nat) (line : Nat)
  /-- FAST_EDGE (R503): A CNT or TS line's level change held for 16 tq counts or is timestamped. -/
  | fastEdge (t : Nat) (b : Nat) (line : Nat) (rise : Bool)
  /-- DB_OSET (R501): A host write of DB_OSET commands lines on. -/
  | dbOset (t : Nat) (f : Func) (b : Nat) (lines : Nat)
  /-- DB_OCLR (R501): A host write of DB_OCLR commands lines off. -/
  | dbOclr (t : Nat) (f : Func) (b : Nat) (lines : Nat)
  /-- DB_OPULSE (R501): A host write of DB_OPULSE commands lines on with a pulse end. -/
  | dbOpulse (t : Nat) (f : Func) (b : Nat) (lines : Nat)
  /-- DB_CNTCLR (R503): A write of DB_CNTCLR sets the named counters to 0. -/
  | dbCntclr (t : Nat) (f : Func) (b : Nat) (lines : Nat)
  /-- DB_TSF0 (R504): A read of DB_TSF0 pops the oldest timestamp entry and latches the rest. -/
  | dbTsf0 (t : Nat) (f : Func) (b : Nat)
  /-- DB_OC (R502): A W1C of DB_OC lets the line take its commanded state at the next tick. -/
  | dbOc (t : Nat) (f : Func) (b : Nat) (lines : Nat)
  /-- OVERCURRENT (R502): An output above its limit for 50 µs or at its thermal limit switches off and latches DB_OC. -/
  | overcurrent (t : Nat) (b : Nat) (line : Nat)
  /-- VF_LOST (R508): VFIELD absent turns the bank's outputs off and stops its inputs. -/
  | vfLost (t : Nat) (b : Nat)
  /-- VF_RET (R508): VFIELD in range for 10 ms returns VF_OK. -/
  | vfRet (t : Nat) (b : Nat)
  /-- CELL_RECEIVE (R515): A cell received on a lane is checked, delivered, forwarded or removed. -/
  | cellReceive (t : Nat) (port : Nat) (c : Cell)
  /-- READ (R531): A READ request at the target is admitted by grant and answered with words. -/
  | cellRead (t : Nat) (port : Nat) (c : Cell)
  /-- MBOX_WRITE (R532): An MBOX_WRITE request at the target is one mailbox arrival. -/
  | mboxWrite (t : Nat) (port : Nat) (c : Cell)
  /-- DCMD (R533): A DCMD request at the target acts as a reflex discrete command on granted lines. -/
  | dcmd (t : Nat) (port : Nat) (c : Cell)
  /-- RSP (R537): A response completes its request context with its status. -/
  | rsp (t : Nat) (port : Nat) (c : Cell)
  /-- MEMBER (R524): A received MEMBER cell refreshes reachability and membership. -/
  | member (t : Nat) (port : Nat) (c : Cell)
  /-- MEMBER_SEND (R524): A node sends one MEMBER cell on each enabled ring every 1 ms. -/
  | memberSend (t : Nat)
  /-- MEMBER_TIMEOUT (R524): A node not heard for 4 ms leaves the member set and its requests abort. -/
  | memberTimeout (t : Nat) (node : Nat)
  /-- CONSENT (R561): A CONSENT cell passing a node records its consent or refusal and wakes it from fabric sleep. -/
  | consent (t : Nat) (port : Nat) (c : Cell)
  /-- COMMIT (R735): A COMMIT cell puts the node into fabric sleep. -/
  | commit (t : Nat) (port : Nat) (c : Cell)
  /-- DELAY (R520): A DELAY cell from the neighbour carries the two-way delay measurement. -/
  | delayCell (t : Nat) (port : Nat) (c : Cell)
  /-- ACK (R546): An ACK link message releases acknowledged cells from the retry buffer. -/
  | ack (t : Nat) (port : Nat) (v : Nat)
  /-- NAK (R546): A NAK link message makes the sender send again from the expected cell. -/
  | nak (t : Nat) (port : Nat) (v : Nat)
  /-- CREDIT (R543): A CREDIT link message returns receive slots to the sender. -/
  | credit (t : Nat) (port : Nat) (vc n : Nat)
  /-- IDENT (R549): An IDENT word is received; all 12 complete identity and move the port to UP or REJECTED. -/
  | ident (t : Nat) (port : Nat) (i v : Nat)
  /-- KEEP (R521): A KEEP link message proves the lane alive. -/
  | keep (t : Nat) (port : Nat)
  /-- WRAPNOTE (R521): A WRAPNOTE link message reports a wrap or unwrap by the neighbour. -/
  | wrapnote (t : Nat) (port : Nat) (v : Nat)
  /-- ACK_TIMEOUT (R546): With no ACK for the oldest cell after 2 µs the sender sends again from it. -/
  | ackTimeout (t : Nat) (port : Nat)
  /-- LINK_LOSS (R547): A link loss holds the port, wraps the ring and starts the retry timer. -/
  | linkLoss (t : Nat) (port : Nat) (c : LossCause)
  /-- BLOCK_LOCK_HELD (R548): Block lock held for 1 ms moves a DOWN port to IDENT. -/
  | blockLockHeld (t : Nat) (port : Nat)
  /-- RETRY_TIMER_EXPIRY (R548): The retry timer expires and held cells abort with reason 3. -/
  | retryTimerExpiry (t : Nat) (port : Nat)
  /-- FORGET (R548): A write of FORGET in HELD acts as retry timer expiry. -/
  | forget (t : Nat) (f : Func) (port : Nat)
  /-- RETRAIN (R547): A write of RETRAIN declares a link loss with reason 5. -/
  | retrain (t : Nat) (f : Func) (port : Nat)
  /-- GO (R570): A GO in RR_CTL issues one request from the tenant's remote window. -/
  | remoteGo (t : Nat) (f : Func) (v : Nat)
  /-- REQUEST_TIMEOUT (R537): A request with no response within RTMO completes TIMEOUT. -/
  | requestTimeout (t : Nat) (tag : Nat)
  /-- START (R560): A write of START by RGOWNER begins a fabric-wide sleep round. -/
  | sleepStart (t : Nat) (f : Func)
  /-- SLEEP_ROUND_TIMEOUT (R562): A sleep round whose cell does not return within 10 ms fails. -/
  | sleepRoundTimeout (t : Nat)
  /-- GT_START (R576): A write of GT_START starts a gather group by doorbell. -/
  | gtStart (t : Nat) (f : Func) (g : Nat)
  /-- GATHER_SCHEDULE (R576): A group starts at its scheduled fabric time. -/
  | gatherSchedule (t : Nat) (g : Nat)
  /-- GATHER_ELEMENT_REDUCE (R588): An element whose status is in hand is reduced in element order. -/
  | gatherElementReduce (t : Nat) (g : Nat)
  /-- HB_SEND (R606): Every 250 µs a unit sends an HB cell on each UP pair link and a ring probe. -/
  | hbSend (t : Nat)
  /-- HB (R607): A heartbeat on a path keeps it alive and may trigger reconciliation. -/
  | hb (t : Nat) (path : Nat) (c : HbCell)
  /-- PATH_TIMEOUT (R607): A path without a heartbeat for 750 µs dies; the last dying path is pair loss. -/
  | pathTimeout (t : Nat) (path : Nat)
  /-- JOIN_TIMEOUT (R609): JOIN_TMO passing with no heartbeat starts a contest. -/
  | joinTimeout (t : Nat)
  /-- CONTEST_CLOSE (R621): The contest closes at D + 800 µs, won, lost or neither. -/
  | contestClose (t : Nat)
  /-- ISOLATION_TIMEOUT (R624): An isolated STANDBY unit seeing no partner Clove for 30 ms starts a contest. -/
  | isolationTimeout (t : Nat)
  /-- CLOVE_PERIODIC (R624): An acting unit with no path alive sends Clove every 10 ms. -/
  | clovePeriodic (t : Nat)
  /-- MIRROR (R613): A MIRROR cell's records are applied in MSEQ order at the holding unit. -/
  | mirrorRecs (t : Nat) (c : RecordCell)
  /-- SNAP (R615): SNAP cells of a resync are applied; the last completes the resync. -/
  | snapRecs (t : Nat) (c : RecordCell) (last : Bool)
  /-- SWAP (R626): A write of SWAP by POWNER starts a planned role swap. -/
  | swap (t : Nat) (f : Func)
  /-- SWAP_PORTS_STOPPED (R626): Every port has stopped presenting and the handover record and SWAP cell are sent. -/
  | swapPortsStopped (t : Nat)
  /-- SWAP_CELL (R626): A received SWAP cell applies the remaining records and promotes the partner. -/
  | swapCell (t : Nat) (epoch : Nat) (c : HandoverCell)
  /-- SOURCE_INPUT_CHANGE (R637): A source input change sets P by SENSE and may make its target deliverable. -/
  | sourceInputChange (t : Nat) (src : Nat)
  /-- IC_SETB (R641): A write of IC_SETB sets the pending latches of the named sources. -/
  | icSetb (t : Nat) (f : Func) (i : Nat) (v : Nat)
  /-- IC_CLRB (R641): A write of IC_CLRB clears the pending latches of the named sources. -/
  | icClrb (t : Nat) (f : Func) (i : Nat) (v : Nat)
  /-- IC_SETN (R641): A write of IC_SETN sets the pending latch of one source. -/
  | icSetn (t : Nat) (f : Func) (v : Nat)
  /-- IC_CLRN (R641): A write of IC_CLRN clears the pending latch of one source. -/
  | icClrn (t : Nat) (f : Func) (v : Nat)
  /-- IC_CLAIM (R645): A read of IC_CLAIM claims the highest-priority pending source and re-arms the target. -/
  | icClaim (t : Nat) (f : Func) (vec : Nat)
  /-- IC_COMPLETE (R647): A write of IC_COMPLETE ends a source's service, or counts an invalid completion. -/
  | icComplete (t : Nat) (f : Func) (vec : Nat) (v : Nat)
  /-- IC_SRC (R649): A write of IC_SRC sets priority, sensing and target under the rules of R638 and R649. -/
  | icSrc (t : Nat) (f : Func) (src : Nat) (v : Nat)
  /-- IC_TCFG (R651): A write of IC_TCFG sets threshold and coalescing and re-arms the target. -/
  | icTcfg (t : Nat) (f : Func) (vec : Nat) (v : Nat)
  /-- COALESCE_TIMEOUT (R653): A coalescing window closes after TIME µs and sends the held message. -/
  | coalesceTimeout (t : Nat) (tgt : Nat)
  /-- HOLD_END (R650): A hold ends, such as an unmask, and a held message is sent. -/
  | holdEnd (t : Nat) (tgt : Nat) (h : HoldEnd)
  /-- FAULT_EVENT (R672): A fault source asserts an event that is classified, recorded and may force its group. -/
  | faultEvent (t : Nat) (src : Nat) (detail : Nat)
  /-- RAIL_FAULT (R668): Equal rails for 50 ns raise a severe rail fault. -/
  | railFault (t : Nat) (src : Nat)
  /-- CAUSE_EXPIRY (R670): A KIND E cause ends 10 ms after its latest event. -/
  | causeExpiry (t : Nat) (src : Nat)
  /-- FC_REC0 (R688): A read of FC_REC0 pops the highest-ranked record and latches its other words. -/
  | fcRec0 (t : Nat) (f : Func)
  /-- FC_GCLR (R692): A write of FC_GCLR clears or rejects the named sources of a group. -/
  | fcGclr (t : Nat) (f : Func) (g : Nat) (v : Nat)
  /-- TEST (R670): A write of TEST in FC_GTEST asserts or releases the group's test source. -/
  | faultTest (t : Nat) (f : Func) (g : Nat) (on : Bool)
  /-- DOMAIN_OFF (R703): A DOMAIN_OFF command switches a domain off unless an off-refusal condition holds. -/
  | domainOff (t : Nat) (f : Func) (d : Nat)
  /-- DOMAIN_ON (R703): A DOMAIN_ON command switches a domain on. -/
  | domainOn (t : Nat) (f : Func) (d : Nat)
  /-- DOMAIN_OFF_DONE (R711): A domain off takes effect and the command completes. -/
  | domainOffDone (t : Nat) (d : Nat)
  /-- DOMAIN_ON_DONE (R708): A domain reaches power-good, or is switched off again with NO_POWER_GOOD. -/
  | domainOnDone (t : Nat) (d : Nat) (good : Bool)
  /-- SET_OP (R712): A SET_OP by OPOWNER starts or retargets a slew of the core rail. -/
  | setOp (t : Nat) (f : Func) (o : Nat)
  /-- SLEW_SETTLED (R714): The rail within ±5 mV of its target for 2 µs settles; GOV becomes the target. -/
  | slewSettled (t : Nat)
  /-- PACE_SAMPLE (R717): The pace monitor measures its replica chain every 100 µs. -/
  | paceSample (t : Nat) (ps tj : Nat)
  /-- PACE_CAL (R718): A PACE_CAL command starts a 100 ms calibration. -/
  | paceCal (t : Nat) (f : Func)
  /-- PACE_CAL_DONE (R718): The calibration ends and stores a factor or is rejected. -/
  | paceCalDone (t : Nat) (factor : Nat)
  /-- SLEEP (R724): A SLEEP command starts an Anise round and submits the query. -/
  | sleep (t : Nat) (f : Func) (p : Nat)
  /-- WAKE (R732): A WAKE command hands a sleeping port back and sends a wake frame. -/
  | wake (t : Nat) (f : Func) (p : Nat)
  /-- VETO_SET (R734): A VETO_SET sets VETO of a port. -/
  | vetoSet (t : Nat) (f : Func) (p : Nat)
  /-- VETO_CLR (R734): A VETO_CLR clears VETO of a port. -/
  | vetoClr (t : Nat) (f : Func) (p : Nat)
  /-- WAKE_ACK (R729): A WAKE_ACK hands a WOKEN port back when WGATE is 1. -/
  | wakeAck (t : Nat) (f : Func) (p : Nat)
  /-- FABRIC_WAKE (R736): A FABRIC_WAKE by PWOWNER makes the node leave fabric sleep. -/
  | fabricWake (t : Nat) (f : Func)
  /-- ANISE_WINDOW_TIMEOUT (R725): A round fails MISSING or NOT_SENT when its window passes. -/
  | aniseWindowTimeout (t : Nat) (p : Nat)
  /-- ANISE_SLEEP_ENTRY (R726): After the commit is SENT the port enters ASLEEP at its first idle boundary. -/
  | aniseSleepEntry (t : Nat) (p : Nat)
  /-- WAKE_ANSWER_TIMEOUT (R730): An unanswered wake returns the transceiver to sleep after 50 ms. -/
  | wakeAnswerTimeout (t : Nat) (p : Nat)
  /-- OPEN (R748): An OPEN command opens a transfer session and erases the inactive slot. -/
  | sessionOpen (t : Nat) (f : Func) (force : Bool)
  /-- ERASE_DONE (R748): The slot erase ends and the slot becomes OPEN. -/
  | eraseDone (t : Nat)
  /-- WINDOW_WRITE (R749): A write to the image transfer window programs object words. -/
  | windowWrite (t : Nat) (f : Func) (off : Nat) (data : List Nat)
  /-- PULL_GO (R749): A write of GO in CU_PULL_GO starts a pull of object words from host memory. -/
  | pullGo (t : Nat) (f : Func)
  /-- PULL_DONE (R749): A pull completes or ends with a host read error. -/
  | pullDone (t : Nat) (link tag : Nat) (r : ReadResult)
  /-- CLOSE (R751): A CLOSE command checks the header and programmed words and stores the slot. -/
  | sessionClose (t : Nat) (f : Func)
  /-- ABORT (R751): An ABORT command ends the session and leaves the slot EMPTY. -/
  | sessionAbort (t : Nat) (f : Func)
  /-- ACTIVATE (R757): An ACTIVATE command starts the image check for a warm restart. -/
  | activate (t : Nat) (f : Func)
  /-- ACTIVATE_COLD (R757): An ACTIVATE_COLD command sets BOOTSEL and resets the device. -/
  | activateCold (t : Nat) (f : Func)
  /-- ROLLFWD (R755): A ROLLFWD command sets the rollback counter to the running SECVER. -/
  | rollfwd (t : Nat) (f : Func)
  /-- CHECK_DONE (R758): The image check passes, BOOTSEL is set and the gap begins, or the check fails. -/
  | checkDone (t : Nat) (nvm : Bool)
  /-- GAP_END (R758): The warm-restart gap ends and the new image becomes active. -/
  | gapEnd (t : Nat)
  /-- POWER_ON (R775): VIN rising through 10.8 V starts a power-on reset. -/
  | powerOn (t : Nat)
  /-- BROWN_OUT (R775): VIN below 10.5 V for more than 10 µs causes a brown-out reset. -/
  | brownOut (t : Nat) (low : Bool)
  /-- RESET_N (R775): RESET_N low for at least 1 µs causes a pin reset. -/
  | resetN (t : Nat)
  /-- COMMAND_RESET (R775): 10 µs after an accepted ACTIVATE_COLD the device resets. -/
  | commandReset (t : Nat)
  /-- BOOT (R780): Boot runs its sequence and ends running an image or in NOIMG. -/
  | boot (t : Nat) (start count : Nat) (nvm1 nvm2 : Bool)
  /-- PERST (R783): PERST# of a host link changes and the link trains or resets alone. -/
  | perst (t : Nat) (link : Nat) (high : Bool)
  /-- TAP_RESET (R776): TRST_N resets only the test logic. -/
  | tapReset (t : Nat)
  /-- IDCODE (R836): The IDCODE instruction shifts out the 32-bit IDCODE. -/
  | idcode (t : Nat)
  /-- SAMPLE_PRELOAD (R835): The SAMPLE/PRELOAD instruction samples the boundary cells. -/
  | samplePreload (t : Nat)
  /-- EXTEST (R838): The EXTEST instruction drives pins from boundary cells when permitted. -/
  | extest (t : Nat)
  /-- EXTEST_PULSE (R835): The EXTEST_PULSE instruction tests AC-coupled lanes under IEEE 1149.6. -/
  | extestPulse (t : Nat)
  /-- EXTEST_TRAIN (R835): The EXTEST_TRAIN instruction tests AC-coupled lanes under IEEE 1149.6. -/
  | extestTrain (t : Nat)
  /-- CLAMP (R835): The CLAMP instruction holds pins from boundary cells with bypass. -/
  | clampPins (t : Nat)
  /-- HIGHZ (R835): The HIGHZ instruction places outputs in high impedance. -/
  | highz (t : Nat)
  /-- BYPASS (R835): The BYPASS instruction selects the one-bit bypass register. -/
  | bypass (t : Nat)
  /-- TERM_ARM_DISCONNECT (R821): A termination arm above 150 mA for 1 ms disconnects itself. -/
  | termArmDisconnect (t : Nat) (p : Nat) (arm : Nat)
  /-- TERM_ARM_RECONNECT (R821): A disconnected arm reconnects 100 ms after its voltage falls below 10 V. -/
  | termArmReconnect (t : Nat) (p : Nat) (arm : Nat)
  /-- THERMAL_SHUTDOWN (R822): A transceiver above 165 °C forces its driver recessive until below 150 °C. -/
  | thermalShutdown (t : Nat) (p : Nat)
  /-- NAK_REPEAT (R546): A receiver that has sent a NAK and has not received the expected LSEQ within 2 µs sends the NAK again. -/
  | nakRepeat (t : Nat) (port : Nat)
  /-- LEVEL_CAUSE_END (R670): A KIND L fault source deasserts, or its rails return to opposite levels, so its cause ends and CAUSE or RAILEQ reads 0. -/
  | levelCauseEnd (t : Nat) (src : Nat)
  /-- MACE_NET_RAIL_EQUAL (R677): A member whose group's Mace net rails stay equal for more than 50 ns treats its group as forced, and releases when the rails part again. -/
  | maceNetRailEqual (t : Nat) (g : Nat) (eq : Bool)
  /-- THERMAL_RECOVERY (R822): A transceiver held recessive by its thermal limit falls below 150 °C and its driver follows the bit engine again. -/
  | thermalRecovery (t : Nat) (p : Nat)
  /-- FRAME_STORE_SCRUB (R370): The frame-store scrubber visits a slot on its bank turn, corrects it or finds it uncorrectable and drops the frame's pending records. -/
  | frameStoreScrub (t : Nat) (frame : Nat) (bad : Bool)
  /-- LEASE_RECORD_PERIODIC (R613): Every 1 ms the acting unit sends a LEASE mirror record for each transmit lease whose tokens are below BURST × 160 tq. -/
  | leaseRecordPeriodic (t : Nat)
  /-- POSTED_CREDIT_RETURN (R374): A host link receives posted-write credit again and its delivery engine resumes issuing records and CQ entries. -/
  | postedCreditReturn (t : Nat) (link : Nat) (n : Nat)
  /-- OTP_WRITE_DONE (R755): The OTP write of a ROLLFWD ends up to 10 ms after the command and the rollback counter holds the new value. -/
  | otpWriteDone (t : Nat)
  deriving DecidableEq, Repr

end Sys2Proof
end

