-- ==== Sys2Proof/Config.lean ====
section
/-! DEFINITION. What one implementation fixes and what the spec leaves open: opaque constants, without a value any proof could see. -/

namespace Sys2Proof

/-- Where the bit engine meets a recessive FDF or BRS bit that the port does not permit, counting stuff bits (R235): the header operand does not give
the stuff bits. (DESIGN CHOICE, log entry 103.) -/
opaque Config.formPos : Nat → Nat

/-- The permutation of the 32,768 slots under a key (R368): the place of a slot, 4,096 places to a bank. (DESIGN CHOICE, log entry 15.) -/
opaque Config.slotPlace : Nat → Equiv.Perm (Fin 32768)

/-- The key of the bank permutation drawn at a device reset (R368), from the counter of free values. -/
opaque Config.slotKey : Nat → Nat

/-- The unit serial (R66), a 64-bit value fixed in the OTP of one unit. (DESIGN CHOICE, log entry 22.) -/
opaque Config.serial : Nat

/-- The key of the ring's flow hash drawn at a device reset, and the hash of a flow under a key (R540). Only its lowest bit is used.
(DESIGN CHOICE, log entry 16.) -/
opaque Config.ringKey : Nat → Nat
opaque Config.ringHash : Nat → Nat → Nat → Nat → Nat → Nat → Nat

/-- The status of a request on a node that has lost its number (R527), from the counter of free values: the spec states none. -/
opaque Config.dupStatus : Nat → Nat

/-- The frequency correction that the servo's filter gives (R447) and its expected offset in 2^-8 ns (R445), from the offsets accepted since
device reset, each with the interval count at which it was, the newest first (and, the second, from the present interval count): the spec states
the filter's time constant and no coefficients. (DESIGN CHOICE, log entry 14.) -/
opaque Config.servoFreq : List (Nat × Int) → Nat
opaque Config.servoExpected : Nat → List (Nat × Int) → Int

/-- The residence time of a SYNC cell in this node in 2^-8 ns (R441), where the command does not give it. -/
opaque Config.residence : Nat → Nat

/-- Which of the values that a latch may show a reply reads (R415), from the counter of free values. (DESIGN CHOICE, log entry 17.) -/
opaque Config.latchPick : Nat → Nat

/-- The loop delay measured on a transmitted FD frame, in 1/8 tq (R245), from the counter of free values. Only its value modulo 505 is used.
(DESIGN CHOICE, log entry 18.) -/
opaque Config.loopDelay : Nat → Nat

/-- The payload slot an ALLOC takes (R218): its place among the free ones, from the counter of free values. (DESIGN CHOICE, log entry 19.) -/
opaque Config.slotPick : Nat → Nat

/-- SHA-384 (R741), ECDSA P-384 verification of public key, message and signature, and AES-256-GCM decryption of key, nonce, additional
authenticated data, ciphertext and tag (R743): the standards the spec cites, taken as they are. (DESIGN CHOICE, log entry 21.) -/
opaque Config.sha384 : List Byte → List Byte
opaque Config.ecdsaVerify : List Byte → List Byte → List Byte → Bool
opaque Config.gcmOpen : List Byte → List Byte → List Byte → List Byte → List Byte → Option (List Byte)

/-- The vendor anchor and the vendor image key, programmed into OTP at manufacture (R743, R752). -/
opaque Config.vendorAnchor : List Byte
opaque Config.vendorKey : List Byte

/-- The ENTRY of a failure in a section whose entries the spec does not lay out (R752), from the counter of free values.
(DESIGN CHOICE, log entry 23.) -/
opaque Config.checkEntry : Nat → Nat

/-- A rollback counter write that a reset meets completes or not (R777, R789), from the counter of free values. (DESIGN CHOICE, log entry 24.) -/
opaque Config.otpCut : Nat → Bool

/-- Bilquel Microsystems' PCI-SIG vendor identifier and the Revision ID (R64): the spec gives no number. Only their values modulo 2^16 and 2^8
are used. -/
opaque Config.vendorId : Nat
opaque Config.revision : Nat

/-- The silicon stepping and the manufacturer code of IDCODE (R836). Only their values modulo 16 and 2,048 are used. -/
opaque Config.stepping : Nat
opaque Config.jedecCode : Nat

/-- What the boundary cells hold when they are captured (R837), from the counter of free values. -/
opaque Config.boundaryCells : Nat → Nat

end Sys2Proof
end

