-- ==== Sys2Proof/Machine/Bits.lean ====
section
/-! DEFINITION. Bit fields, byte order and counters over plain numbers: the helpers every block uses. -/

namespace Sys2Proof.Machine

/-- The `w`-bit field of `v` whose lowest bit is `lo` (R3). -/
def bitsOf (v lo w : Nat) : Nat := v / 2 ^ lo % 2 ^ w

/-- Bit `i` of `v` (R3). -/
def bitAt (v i : Nat) : Bool := v.testBit i

/-- `v` with bit `i` set. -/
def setBitAt (v i : Nat) : Nat := v ||| 2 ^ i

/-- `v` with bit `i` cleared. -/
def clearBitAt (v i : Nat) : Nat := if v.testBit i then v - 2 ^ i else v

/-- `v` with bit `i` as `b` says. -/
def putBitAt (v i : Nat) (b : Bool) : Nat := if b then setBitAt v i else clearBitAt v i

/-- `v` with every bit of `m` cleared (the W1C code of R10). -/
def clearMask (v m : Nat) : Nat := v - (v &&& m)

/-- A count saturated at the largest `w`-bit value (R106). -/
def satTo (w v : Nat) : Nat := min v (2 ^ w - 1)

/-- A truth value as a bit. -/
def b2n (b : Bool) : Nat := if b then 1 else 0

/-- The number of bits of `v` that are 1 among its low `n`. -/
def popCount (n v : Nat) : Nat := ((List.range n).filter fun i => bitAt v i).length

/-- The `n` bytes of `v`, lowest first (little-endian, R4). -/
def leBytes (n v : Nat) : List Byte := (List.range n).map fun i => BitVec.ofNat 8 (v / 256 ^ i)

/-- The number whose little-endian bytes these are (R4). (DEDUCED, log entry 25.) -/
def leNat : List Byte → Nat
  | [] => 0
  | b :: bs => b.toNat + 256 * leNat bs

/-- The number whose big-endian bytes these are. -/
def beNat (l : List Byte) : Nat := leNat l.reverse

/-- `l` cut or filled with zero bytes to length `n` (R14). (DESIGN CHOICE, log entry 10.) -/
def padTo (n : Nat) (l : List Byte) : List Byte := (l ++ List.replicate n 0).take n

/-- The `w`-bit two's complement pattern of an integer. -/
def toTwos (w : Nat) (z : Int) : Nat := (z % (2 ^ w : Int)).toNat

/-- The integer a `w`-bit two's complement pattern stands for. -/
def fromTwos (w v : Nat) : Int := if v < 2 ^ (w - 1) then (v : Int) else (v : Int) - 2 ^ w

end Sys2Proof.Machine
end

