-- ==== Sys2Proof/Machine/Table.lean ====
section
/-! DEFINITION. Sparse tables: plain data in one canonical form (keys strictly rising, no entry equal to the default). -/

namespace Sys2Proof.Machine

/-- A sparse table. An unlisted key reads as the default its accessor names. -/
abbrev Tbl (α : Type) := List (Nat × α)

variable {α : Type}

/-- The value at key `k`; `d` where none is listed. (DESIGN CHOICE, log entry 87.) -/
def tget (d : α) : Tbl α → Nat → α
  | [], _ => d
  | (k', v) :: t, k => if k' = k then v else tget d t k

/-- What is listed at key `k`, if anything. -/
def tfind : Tbl α → Nat → Option α
  | [], _ => none
  | (k', v) :: t, k => if k' = k then some v else tfind t k

/-- The table without key `k`. -/
def tdel : Tbl α → Nat → Tbl α
  | [], _ => []
  | (k', v) :: t, k => if k' = k then tdel t k else (k', v) :: tdel t k

/-- The table with `v` listed at key `k`, in order. -/
def tput : Tbl α → Nat → α → Tbl α
  | [], k, v => [(k, v)]
  | (k', v') :: t, k, v =>
    if k < k' then (k, v) :: (k', v') :: t
    else if k' = k then (k, v) :: t
    else (k', v') :: tput t k v

/-- Writing `v` at `k`: the default is not listed, so equal tables are equal data. -/
def tset [DecidableEq α] (d : α) (t : Tbl α) (k : Nat) (v : α) : Tbl α :=
  if v = d then tdel t k else tput t k v

/-- Changing the value at `k` by `f`. -/
def tupd [DecidableEq α] (d : α) (t : Tbl α) (k : Nat) (f : α → α) : Tbl α :=
  tset d t k (f (tget d t k))

/-- The canonical form: keys strictly rising, no entry equal to the default. -/
def twf [DecidableEq α] (d : α) (t : Tbl α) : Bool :=
  decide (t.Pairwise fun a b => a.1 < b.1) && t.all fun e => decide (e.2 ≠ d)

end Sys2Proof.Machine
end

