-- ==== Sys2Proof/Machine/Regs.lean ====
section
/-! DEFINITION. The register fields of the device, as the register tables of the chapters give them: one constant per field. -/

namespace Sys2Proof.Machine

/-- The blocks that have registers (R136). -/
inductive Blk where
  | ten | lv | rc | hp | fb | pq | cl | fs | ru | tu | sp | db | rg | rl | ge | gt | pr | pl | ic | fc | pm | cu | pg
  deriving DecidableEq, Repr

/-- The access codes (R10). -/
inductive Acc where
  | rw | ro | wo | w1c | w1s | rwb | rwi
  deriving DecidableEq, Repr

/-- A register field: its block, its page and offset in the page, the stride and number of registers of an array, its
lowest bit and width, its access code and its reset value (0 where the Reset column says IMG, R12). -/
structure Fld where
  blk : Blk
  page : Nat
  off : Nat
  str : Nat
  cnt : Nat
  lo : Nat
  w : Nat
  acc : Acc
  rst : Nat
  deriving DecidableEq, Repr

/-- A number for each block, for the store's keys. -/
def Blk.code : Blk → Nat
  | .ten => 0 | .lv => 1 | .rc => 2 | .hp => 3 | .fb => 4 | .pq => 5 | .cl => 6 | .fs => 7 | .ru => 8 | .tu => 9
  | .sp => 10 | .db => 11 | .rg => 12 | .rl => 13 | .ge => 14 | .gt => 15 | .pr => 16 | .pl => 17 | .ic => 18
  | .fc => 19 | .pm => 20 | .cu => 21 | .pg => 22

/-- The key of a field in the register store: block, page, offset and lowest bit, then instance and array index.
Each part has room of its own (offset below 2^12, bit below 2^5, instance below 2^20, index below 2^12). -/
def Fld.key (f : Fld) (i j : Nat) : Nat :=
  ((((f.blk.code * 16 + f.page) * 4096 + f.off) * 32 + f.lo) * 1048576 + i) * 4096 + j

-- TEN_ID (R94, 02)
def TEN_ID_BEARING : Fld := ⟨.ten, 0, 0x0, 0x4, 1, 12, 1, .ro, 0⟩
def TEN_ID_PF : Fld := ⟨.ten, 0, 0x0, 0x4, 1, 11, 1, .ro, 0⟩
def TEN_ID_LINK : Fld := ⟨.ten, 0, 0x0, 0x4, 1, 10, 1, .ro, 0⟩
def TEN_ID_TENANT : Fld := ⟨.ten, 0, 0x0, 0x4, 1, 0, 8, .ro, 0⟩
-- LV_COUNT (R94, 02)
def LV_COUNT_COUNT : Fld := ⟨.ten, 0, 0x4, 0x4, 1, 0, 13, .rwi, 0⟩
-- TEN_VIOL (R94, 02)
def TEN_VIOL_COUNT : Fld := ⟨.ten, 0, 0x8, 0x4, 1, 0, 24, .w1c, 0⟩
-- LV_CTL (R94, 02)
def LV_CTL_VALID : Fld := ⟨.lv, 0, 0x0, 0x4, 1, 23, 1, .rwi, 0⟩
def LV_CTL_DIR : Fld := ⟨.lv, 0, 0x0, 0x4, 1, 22, 1, .rwi, 0⟩
def LV_CTL_FMT : Fld := ⟨.lv, 0, 0x0, 0x4, 1, 20, 2, .rwi, 0⟩
def LV_CTL_KINDS : Fld := ⟨.lv, 0, 0x0, 0x4, 1, 16, 4, .rwi, 0⟩
def LV_CTL_PORT : Fld := ⟨.lv, 0, 0x0, 0x4, 1, 9, 7, .rwi, 0⟩
def LV_CTL_TENANT : Fld := ⟨.lv, 0, 0x0, 0x4, 1, 0, 9, .rwi, 0⟩
-- LV_LO (R94, 02)
def LV_LO_LO_LOW : Fld := ⟨.lv, 0, 0x4, 0x4, 1, 0, 24, .rwi, 0⟩
-- LV_HI (R94, 02)
def LV_HI_HI_LOW : Fld := ⟨.lv, 0, 0x8, 0x4, 1, 0, 24, .rwi, 0⟩
-- LV_EXT (R94, 02)
def LV_EXT_HI_TOP : Fld := ⟨.lv, 0, 0xc, 0x4, 1, 8, 5, .rwi, 0⟩
def LV_EXT_LO_TOP : Fld := ⟨.lv, 0, 0xc, 0x4, 1, 0, 5, .rwi, 0⟩
-- LV_QUOTA (R94, 02)
def LV_QUOTA_QUOTA : Fld := ⟨.lv, 0, 0x10, 0x4, 1, 0, 13, .rwi, 0⟩
-- LV_SHARE (R94, 02)
def LV_SHARE_SHARE : Fld := ⟨.lv, 0, 0x14, 0x4, 1, 0, 13, .rwi, 0⟩
-- LV_BURST (R94, 02)
def LV_BURST_BURST : Fld := ⟨.lv, 0, 0x18, 0x4, 1, 0, 16, .rwi, 0⟩
-- LV_USED (R94, 02)
def LV_USED_USED : Fld := ⟨.lv, 0, 0x1c, 0x4, 1, 0, 13, .ro, 0⟩
-- LV_TOKENS (R94, 02)
def LV_TOKENS_TOKENS : Fld := ⟨.lv, 0, 0x20, 0x4, 1, 0, 24, .ro, 0⟩
-- PG_CTL (R130, 03)
def PG_CTL_DISCARD : Fld := ⟨.pg, 0, 0x7f8, 0x4, 1, 0, 1, .wo, 0⟩
-- PG_STAT (R130, 03)
def PG_STAT_PEND : Fld := ⟨.pg, 0, 0x7fc, 0x4, 1, 23, 1, .ro, 0⟩
def PG_STAT_IMMED : Fld := ⟨.pg, 0, 0x7fc, 0x4, 1, 22, 1, .ro, 0⟩
def PG_STAT_APPLY_SEQ : Fld := ⟨.pg, 0, 0x7fc, 0x4, 1, 0, 16, .ro, 0⟩
-- TEN_RINGS (R158, 04)
def TEN_RINGS_COUNT : Fld := ⟨.ten, 0, 0xc, 0x4, 1, 0, 9, .rwi, 0⟩
-- RC_CTL (R159, 04)
def RC_CTL_TYPE : Fld := ⟨.rc, 0, 0x0, 0x4, 1, 21, 2, .rw, 0⟩
def RC_CTL_LOG2N : Fld := ⟨.rc, 0, 0x0, 0x4, 1, 16, 5, .rw, 0⟩
def RC_CTL_HOME : Fld := ⟨.rc, 0, 0x0, 0x4, 1, 15, 1, .rw, 0⟩
def RC_CTL_POLICY : Fld := ⟨.rc, 0, 0x0, 0x4, 1, 14, 1, .rw, 0⟩
def RC_CTL_CQN : Fld := ⟨.rc, 0, 0x0, 0x4, 1, 0, 8, .rw, 0⟩
-- RC_BASE0 (R159, 04)
def RC_BASE0_BASE_35_12 : Fld := ⟨.rc, 0, 0x4, 0x4, 1, 0, 24, .rw, 0⟩
-- RC_BASE1 (R159, 04)
def RC_BASE1_BASE_59_36 : Fld := ⟨.rc, 0, 0x8, 0x4, 1, 0, 24, .rw, 0⟩
-- RC_BASE2 (R159, 04)
def RC_BASE2_BASE_63_60 : Fld := ⟨.rc, 0, 0xc, 0x4, 1, 0, 4, .rw, 0⟩
-- RC_CMD (R159, 04)
def RC_CMD_DISARM : Fld := ⟨.rc, 0, 0x10, 0x4, 1, 1, 1, .wo, 0⟩
def RC_CMD_ARM : Fld := ⟨.rc, 0, 0x10, 0x4, 1, 0, 1, .wo, 0⟩
-- RC_PROD (R159, 04)
def RC_PROD_WRAP : Fld := ⟨.rc, 0, 0x14, 0x4, 1, 16, 1, .ro, 0⟩
def RC_PROD_INDEX : Fld := ⟨.rc, 0, 0x14, 0x4, 1, 0, 16, .ro, 0⟩
-- RC_CONS (R159, 04)
def RC_CONS_WRAP : Fld := ⟨.rc, 0, 0x18, 0x4, 1, 16, 1, .ro, 0⟩
def RC_CONS_INDEX : Fld := ⟨.rc, 0, 0x18, 0x4, 1, 0, 16, .ro, 0⟩
-- RC_STAT (R159, 04)
def RC_STAT_STATE : Fld := ⟨.rc, 0, 0x1c, 0x4, 1, 22, 2, .ro, 0⟩
def RC_STAT_NOTIFY : Fld := ⟨.rc, 0, 0x1c, 0x4, 1, 21, 1, .ro, 0⟩
def RC_STAT_STALL : Fld := ⟨.rc, 0, 0x1c, 0x4, 1, 20, 1, .ro, 0⟩
def RC_STAT_STALE : Fld := ⟨.rc, 0, 0x1c, 0x4, 1, 19, 1, .ro, 0⟩
def RC_STAT_CAUSE : Fld := ⟨.rc, 0, 0x1c, 0x4, 1, 4, 4, .ro, 0⟩
def RC_STAT_ERRCODE : Fld := ⟨.rc, 0, 0x1c, 0x4, 1, 0, 4, .ro, 0⟩
-- RC_DROP (R159, 04)
def RC_DROP_COUNT : Fld := ⟨.rc, 0, 0x20, 0x4, 1, 0, 24, .w1c, 0⟩
-- RC_BADDB (R159, 04)
def RC_BADDB_COUNT : Fld := ⟨.rc, 0, 0x24, 0x4, 1, 0, 24, .w1c, 0⟩
-- RC_OUTST (R159, 04)
def RC_OUTST_COUNT : Fld := ⟨.rc, 0, 0x28, 0x4, 1, 0, 17, .ro, 0⟩
-- TEN_NOTE (R177, 04)
def TEN_NOTE_NOTE : Fld := ⟨.ten, 0, 0x24, 0x4, 11, 0, 24, .w1c, 0⟩
-- TEN_EQ (R204, 04)
def TEN_EQ_VALID : Fld := ⟨.ten, 0, 0x10, 0x4, 1, 8, 1, .rw, 0⟩
def TEN_EQ_RING : Fld := ⟨.ten, 0, 0x10, 0x4, 1, 0, 8, .rw, 0⟩
-- TEN_EQLOST (R204, 04)
def TEN_EQLOST_COUNT : Fld := ⟨.ten, 0, 0x14, 0x4, 1, 0, 24, .w1c, 0⟩
-- TEN_TXPOOL (R223, 04)
def TEN_TXPOOL_POOL : Fld := ⟨.ten, 0, 0x18, 0x4, 1, 0, 13, .rwi, 0⟩
-- TEN_SLOT_ALLOC (R223, 04)
def TEN_SLOT_ALLOC_HELD : Fld := ⟨.ten, 0, 0x1c, 0x4, 1, 0, 13, .ro, 0⟩
-- TEN_BADHDL (R223, 04)
def TEN_BADHDL_COUNT : Fld := ⟨.ten, 0, 0x20, 0x4, 1, 0, 24, .w1c, 0⟩
-- HP_DB_CNT (R230, 04)
def HP_DB_CNT_COUNT : Fld := ⟨.hp, 0, 0x0, 0x4, 1, 0, 24, .ro, 0⟩
-- HP_FETCH_CNT (R230, 04)
def HP_FETCH_CNT_COUNT : Fld := ⟨.hp, 0, 0x4, 0x4, 1, 0, 24, .ro, 0⟩
-- HP_RDERR (R230, 04)
def HP_RDERR_COUNT : Fld := ⟨.hp, 0, 0x8, 0x4, 1, 0, 24, .w1c, 0⟩
-- HP_TAGS (R230, 04)
def HP_TAGS_OUTST : Fld := ⟨.hp, 0, 0xc, 0x4, 1, 0, 9, .ro, 0⟩
-- HP_SLOTS_FREE (R230, 04)
def HP_SLOTS_FREE_FREE : Fld := ⟨.hp, 0, 0x10, 0x4, 1, 0, 13, .ro, 0⟩
-- FB_STAT (R292, 05)
def FB_STAT_STATE : Fld := ⟨.fb, 0, 0x0, 0x4, 1, 20, 4, .ro, 0⟩
def FB_STAT_PEND_EN : Fld := ⟨.fb, 0, 0x0, 0x4, 1, 19, 1, .ro, 0⟩
def FB_STAT_BOMEM : Fld := ⟨.fb, 0, 0x0, 0x4, 1, 18, 1, .ro, 0⟩
def FB_STAT_R_OWN : Fld := ⟨.fb, 0, 0x0, 0x4, 1, 17, 1, .ro, 0⟩
def FB_STAT_R_MACE : Fld := ⟨.fb, 0, 0x0, 0x4, 1, 16, 1, .ro, 0⟩
def FB_STAT_WARN : Fld := ⟨.fb, 0, 0x0, 0x4, 1, 15, 1, .ro, 0⟩
def FB_STAT_TXING : Fld := ⟨.fb, 0, 0x0, 0x4, 1, 14, 1, .ro, 0⟩
def FB_STAT_RXING : Fld := ⟨.fb, 0, 0x0, 0x4, 1, 13, 1, .ro, 0⟩
def FB_STAT_IDLE : Fld := ⟨.fb, 0, 0x0, 0x4, 1, 12, 1, .ro, 0⟩
def FB_STAT_XCVR : Fld := ⟨.fb, 0, 0x0, 0x4, 1, 10, 2, .ro, 0⟩
def FB_STAT_BUSDOM : Fld := ⟨.fb, 0, 0x0, 0x4, 1, 9, 1, .ro, 0⟩
-- FB_ERRC (R292, 05)
def FB_ERRC_REC : Fld := ⟨.fb, 0, 0x4, 0x4, 1, 16, 8, .ro, 0⟩
def FB_ERRC_TEC : Fld := ⟨.fb, 0, 0x4, 0x4, 1, 0, 9, .ro, 0⟩
-- FB_CMD (R292, 05)
def FB_CMD_CLR_BO : Fld := ⟨.fb, 0, 0x8, 0x4, 1, 2, 1, .wo, 0⟩
def FB_CMD_DISABLE : Fld := ⟨.fb, 0, 0x8, 0x4, 1, 1, 1, .wo, 0⟩
def FB_CMD_ENABLE : Fld := ⟨.fb, 0, 0x8, 0x4, 1, 0, 1, .wo, 0⟩
-- FB_CMDRES (R292, 05)
def FB_CMDRES_CMD_SEQ : Fld := ⟨.fb, 0, 0xc, 0x4, 1, 16, 8, .ro, 0⟩
def FB_CMDRES_RESULT : Fld := ⟨.fb, 0, 0xc, 0x4, 1, 0, 4, .ro, 0⟩
-- FB_MODE (R292, 05)
def FB_MODE_RESTRICT : Fld := ⟨.fb, 0, 0x10, 0x4, 1, 0, 1, .rwb, 0⟩
-- FB_EVT (R292, 05)
def FB_EVT_EVT : Fld := ⟨.fb, 0, 0x14, 0x4, 1, 0, 15, .w1c, 0⟩
-- FB_IEN (R292, 05)
def FB_IEN_IEN : Fld := ⟨.fb, 0, 0x18, 0x4, 1, 0, 15, .rw, 0⟩
-- FB_LASTERR (R292, 05)
def FB_LASTERR_TYPE : Fld := ⟨.fb, 0, 0x1c, 0x4, 1, 21, 3, .ro, 0⟩
def FB_LASTERR_DIR : Fld := ⟨.fb, 0, 0x1c, 0x4, 1, 20, 1, .ro, 0⟩
def FB_LASTERR_PHASE : Fld := ⟨.fb, 0, 0x1c, 0x4, 1, 19, 1, .ro, 0⟩
def FB_LASTERR_BITPOS : Fld := ⟨.fb, 0, 0x1c, 0x4, 1, 0, 16, .ro, 0⟩
-- FB_TDC (R292, 05)
def FB_TDC_VALID : Fld := ⟨.fb, 0, 0x20, 0x4, 1, 23, 1, .ro, 0⟩
def FB_TDC_SAT : Fld := ⟨.fb, 0, 0x20, 0x4, 1, 22, 1, .ro, 0⟩
def FB_TDC_DELAY : Fld := ⟨.fb, 0, 0x20, 0x4, 1, 0, 9, .ro, 0⟩
-- FB_BOSUP (R292, 05)
def FB_BOSUP_HELD : Fld := ⟨.fb, 0, 0x24, 0x4, 1, 23, 1, .ro, 0⟩
def FB_BOSUP_WINCNT : Fld := ⟨.fb, 0, 0x24, 0x4, 1, 15, 8, .ro, 0⟩
def FB_BOSUP_OCC : Fld := ⟨.fb, 0, 0x24, 0x4, 1, 0, 15, .ro, 0⟩
-- FB_CFG (R292, 05)
def FB_CFG_ACKLIM : Fld := ⟨.fb, 1, 0x0, 0x4, 1, 8, 8, .rwi, 0⟩
def FB_CFG_TERM : Fld := ⟨.fb, 1, 0x0, 0x4, 1, 6, 1, .rwi, 0⟩
def FB_CFG_TDCE : Fld := ⟨.fb, 1, 0x0, 0x4, 1, 5, 1, .rwi, 0⟩
def FB_CFG_PEX : Fld := ⟨.fb, 1, 0x0, 0x4, 1, 4, 1, .rwi, 0⟩
def FB_CFG_BRSE : Fld := ⟨.fb, 1, 0x0, 0x4, 1, 3, 1, .rwi, 0⟩
def FB_CFG_FDOE : Fld := ⟨.fb, 1, 0x0, 0x4, 1, 2, 1, .rwi, 0⟩
def FB_CFG_START : Fld := ⟨.fb, 1, 0x0, 0x4, 1, 1, 1, .rwi, 0⟩
def FB_CFG_PRESENT : Fld := ⟨.fb, 1, 0x0, 0x4, 1, 0, 1, .rwi, 0⟩
-- FB_NBTA (R292, 05)
def FB_NBTA_NSEG1 : Fld := ⟨.fb, 1, 0x4, 0x4, 1, 0, 14, .rwi, 0⟩
-- FB_NBTB (R292, 05)
def FB_NBTB_NSJW : Fld := ⟨.fb, 1, 0x8, 0x4, 1, 12, 12, .rwi, 0⟩
def FB_NBTB_NSEG2 : Fld := ⟨.fb, 1, 0x8, 0x4, 1, 0, 12, .rwi, 0⟩
-- FB_DBT (R292, 05)
def FB_DBT_DSJW : Fld := ⟨.fb, 1, 0xc, 0x4, 1, 16, 8, .rwi, 0⟩
def FB_DBT_DSEG2 : Fld := ⟨.fb, 1, 0xc, 0x4, 1, 8, 8, .rwi, 0⟩
def FB_DBT_DSEG1 : Fld := ⟨.fb, 1, 0xc, 0x4, 1, 0, 8, .rwi, 0⟩
-- FB_TDCO (R292, 05)
def FB_TDCO_TDCO : Fld := ⟨.fb, 1, 0x10, 0x4, 1, 0, 11, .rwi, 0⟩
-- FB_WAKE (R292, 05)
def FB_WAKE_WAKE_EN : Fld := ⟨.fb, 1, 0x14, 0x4, 1, 8, 1, .rwi, 0⟩
def FB_WAKE_WFILT : Fld := ⟨.fb, 1, 0x14, 0x4, 1, 0, 5, .rwi, 0⟩
-- FB_AR (R292, 05)
def FB_AR_EN : Fld := ⟨.fb, 1, 0x18, 0x4, 1, 16, 1, .rwi, 0⟩
def FB_AR_LIMIT : Fld := ⟨.fb, 1, 0x18, 0x4, 1, 8, 8, .rwi, 0⟩
def FB_AR_K : Fld := ⟨.fb, 1, 0x18, 0x4, 1, 0, 8, .rwi, 0⟩
-- FB_OWNER (R292, 05)
def FB_OWNER_VALID : Fld := ⟨.fb, 1, 0x1c, 0x4, 1, 8, 1, .rwi, 0⟩
def FB_OWNER_TENANT : Fld := ⟨.fb, 1, 0x1c, 0x4, 1, 0, 8, .rwi, 0⟩
-- FB_ROLE (R292, 05)
def FB_ROLE_GROUP : Fld := ⟨.fb, 1, 0x20, 0x4, 1, 4, 4, .rwi, 0⟩
def FB_ROLE_WITNESS : Fld := ⟨.fb, 1, 0x20, 0x4, 1, 3, 1, .rwi, 0⟩
def FB_ROLE_TTROLE : Fld := ⟨.fb, 1, 0x20, 0x4, 1, 1, 2, .rwi, 0⟩
-- FB_CAP (R293, 05)
def FB_CAP_OWN : Fld := ⟨.fb, 2, 0x40, 0x4, 1, 2, 1, .rwb, 0⟩
def FB_CAP_FAILED : Fld := ⟨.fb, 2, 0x40, 0x4, 1, 1, 1, .rwb, 0⟩
def FB_CAP_EN : Fld := ⟨.fb, 2, 0x40, 0x4, 1, 0, 1, .rwb, 0⟩
-- FB_CAPRQ (R293, 05)
def FB_CAPRQ_VALID : Fld := ⟨.fb, 2, 0x44, 0x4, 1, 8, 1, .rwb, 0⟩
def FB_CAPRQ_RING : Fld := ⟨.fb, 2, 0x44, 0x4, 1, 0, 8, .rwb, 0⟩
-- PQ_STAT (R340, 06)
def PQ_STAT_UNDER : Fld := ⟨.pq, 0, 0x0, 0x4, 1, 23, 1, .w1c, 0⟩
def PQ_STAT_RESETTING : Fld := ⟨.pq, 0, 0x0, 0x4, 1, 22, 1, .ro, 0⟩
def PQ_STAT_INFLIGHT : Fld := ⟨.pq, 0, 0x0, 0x4, 1, 21, 1, .ro, 0⟩
def PQ_STAT_ACCEPT : Fld := ⟨.pq, 0, 0x0, 0x4, 1, 20, 1, .ro, 0⟩
def PQ_STAT_COUNT : Fld := ⟨.pq, 0, 0x0, 0x4, 1, 0, 10, .ro, 0⟩
-- PQ_CFG (R340, 06)
def PQ_CFG_RLIFE : Fld := ⟨.pq, 0, 0x4, 0x4, 1, 16, 8, .rwi, 0⟩
def PQ_CFG_RSV : Fld := ⟨.pq, 0, 0x4, 0x4, 1, 0, 7, .rwi, 0⟩
-- PQ_RSV_USED (R340, 06)
def PQ_RSV_USED_USED : Fld := ⟨.pq, 0, 0x8, 0x4, 1, 0, 7, .ro, 0⟩
-- PQ_HEAD0 (R340, 06)
def PQ_HEAD0_KEY_HI : Fld := ⟨.pq, 0, 0xc, 0x4, 1, 0, 24, .ro, 0⟩
-- PQ_HEAD1 (R340, 06)
def PQ_HEAD1_EMPTY : Fld := ⟨.pq, 0, 0x10, 0x4, 1, 23, 1, .ro, 1⟩
def PQ_HEAD1_REFLEX : Fld := ⟨.pq, 0, 0x10, 0x4, 1, 22, 1, .ro, 0⟩
def PQ_HEAD1_DEVICE : Fld := ⟨.pq, 0, 0x10, 0x4, 1, 21, 1, .ro, 0⟩
def PQ_HEAD1_TENANT : Fld := ⟨.pq, 0, 0x10, 0x4, 1, 13, 8, .ro, 0⟩
def PQ_HEAD1_KEY_LO : Fld := ⟨.pq, 0, 0x10, 0x4, 1, 0, 8, .ro, 0⟩
-- PQ_WAIT (R340, 06)
def PQ_WAIT_LEASES : Fld := ⟨.pq, 0, 0x14, 0x4, 1, 0, 10, .ro, 0⟩
-- HP_ADM_CNT (R342, 06)
def HP_ADM_CNT_COUNT : Fld := ⟨.hp, 1, 0x0, 0x4, 1, 0, 24, .ro, 0⟩
-- HP_REFUSE_CNT (R342, 06)
def HP_REFUSE_CNT_COUNT : Fld := ⟨.hp, 1, 0x4, 0x4, 1, 0, 24, .w1c, 0⟩
-- HP_CANCEL_CNT (R342, 06)
def HP_CANCEL_CNT_COUNT : Fld := ⟨.hp, 1, 0x8, 0x4, 1, 0, 24, .ro, 0⟩
-- HP_LASTREF (R342, 06)
def HP_LASTREF_STATUS : Fld := ⟨.hp, 1, 0xc, 0x4, 1, 16, 8, .ro, 0⟩
def HP_LASTREF_PORT : Fld := ⟨.hp, 1, 0xc, 0x4, 1, 8, 6, .ro, 0⟩
def HP_LASTREF_TENANT : Fld := ⟨.hp, 1, 0xc, 0x4, 1, 0, 8, .ro, 0⟩
-- TEN_RXINACT (R391, 07)
def TEN_RXINACT_COUNT : Fld := ⟨.ten, 0, 0x50, 0x4, 1, 0, 24, .w1c, 0⟩
-- TEN_RXNORING (R391, 07)
def TEN_RXNORING_COUNT : Fld := ⟨.ten, 0, 0x54, 0x4, 1, 0, 24, .w1c, 0⟩
-- CL_HDR_CNT (R391, 07)
def CL_HDR_CNT_COUNT : Fld := ⟨.cl, 0, 0x0, 0x4, 1, 0, 24, .ro, 0⟩
-- CL_COMMIT_CNT (R391, 07)
def CL_COMMIT_CNT_COUNT : Fld := ⟨.cl, 0, 0x4, 0x4, 1, 0, 24, .ro, 0⟩
-- CL_ABANDON_CNT (R391, 07)
def CL_ABANDON_CNT_COUNT : Fld := ⟨.cl, 0, 0x8, 0x4, 1, 0, 24, .ro, 0⟩
-- CL_USED (R391, 07)
def CL_USED_DSETS : Fld := ⟨.cl, 0, 0xc, 0x4, 1, 12, 12, .rwi, 0⟩
def CL_USED_TCAM : Fld := ⟨.cl, 0, 0xc, 0x4, 1, 0, 12, .rwi, 0⟩
-- CL_RDSEL (R391, 07)
def CL_RDSEL_TABLE : Fld := ⟨.cl, 0, 0x10, 0x4, 1, 22, 2, .rw, 0⟩
def CL_RDSEL_SUB : Fld := ⟨.cl, 0, 0x10, 0x4, 1, 17, 5, .rw, 0⟩
def CL_RDSEL_INDEX : Fld := ⟨.cl, 0, 0x10, 0x4, 1, 0, 12, .rw, 0⟩
-- CL_RDDATA (R391, 07)
def CL_RDDATA_DATA : Fld := ⟨.cl, 0, 0x14, 0x4, 4, 0, 24, .ro, 0⟩
-- FS_HELD (R392, 07)
def FS_HELD_HELD : Fld := ⟨.fs, 0, 0x0, 0x4, 1, 0, 13, .ro, 0⟩
-- FS_ECC_CORR (R392, 07)
def FS_ECC_CORR_COUNT : Fld := ⟨.fs, 0, 0x4, 0x4, 1, 0, 24, .w1c, 0⟩
-- FS_ECC_UNC (R392, 07)
def FS_ECC_UNC_COUNT : Fld := ⟨.fs, 0, 0x8, 0x4, 1, 0, 24, .w1c, 0⟩
-- FS_FREE (R392, 07)
def FS_FREE_FREE : Fld := ⟨.fs, 0, 0xc, 0x4, 1, 0, 16, .ro, 0⟩
-- FS_LOW (R392, 07)
def FS_LOW_LOW : Fld := ⟨.fs, 0, 0x10, 0x4, 1, 0, 16, .ro, 0⟩
-- FS_CTL (R392, 07)
def FS_CTL_LOWCLR : Fld := ⟨.fs, 0, 0x14, 0x4, 1, 0, 1, .wo, 0⟩
-- HP_REC_CNT (R392, 07)
def HP_REC_CNT_COUNT : Fld := ⟨.hp, 2, 0x0, 0x4, 1, 0, 24, .ro, 0⟩
-- HP_DEL_QUEUE (R392, 07)
def HP_DEL_QUEUE_FRAMES : Fld := ⟨.hp, 2, 0x4, 0x4, 1, 0, 16, .ro, 0⟩
-- HP_HELD (R392, 07)
def HP_HELD_RECORDS : Fld := ⟨.hp, 2, 0x8, 0x4, 1, 0, 16, .ro, 0⟩
-- HP_SER_CNT (R392, 07)
def HP_SER_CNT_COUNT : Fld := ⟨.hp, 2, 0xc, 0x4, 1, 0, 24, .ro, 0⟩
-- HP_DROP_CNT (R392, 07)
def HP_DROP_CNT_COUNT : Fld := ⟨.hp, 3, 0x0, 0x4, 1, 0, 24, .w1c, 0⟩
-- HP_LASTDROP (R392, 07)
def HP_LASTDROP_REASON : Fld := ⟨.hp, 3, 0x4, 0x4, 1, 20, 4, .ro, 0⟩
def HP_LASTDROP_TENANT : Fld := ⟨.hp, 3, 0x4, 0x4, 1, 8, 8, .ro, 0⟩
def HP_LASTDROP_RING : Fld := ⟨.hp, 3, 0x4, 0x4, 1, 0, 8, .ro, 0⟩
-- RU_STAT (R423, 08)
def RU_STAT_ON : Fld := ⟨.ru, 0, 0x0, 0x800, 2, 23, 1, .ro, 0⟩
def RU_STAT_RULES : Fld := ⟨.ru, 0, 0x0, 0x800, 2, 0, 12, .rwi, 0⟩
-- RU_LAST (R423, 08)
def RU_LAST_RULE : Fld := ⟨.ru, 0, 0x4, 0x800, 2, 12, 12, .ro, 0⟩
def RU_LAST_PORT : Fld := ⟨.ru, 0, 0x4, 0x800, 2, 6, 6, .ro, 0⟩
-- RU_RDSEL (R424, 08)
def RU_RDSEL_TABLE : Fld := ⟨.ru, 2, 0x0, 0x4, 1, 22, 2, .rw, 0⟩
def RU_RDSEL_INDEX : Fld := ⟨.ru, 2, 0x0, 0x4, 1, 0, 12, .rw, 0⟩
-- RU_RDDATA (R424, 08)
def RU_RDDATA_DATA : Fld := ⟨.ru, 2, 0x4, 0x4, 24, 0, 24, .ro, 0⟩
-- RU_FCNT (R424, 08)
def RU_FCNT_COUNT : Fld := ⟨.ru, 8, 0x0, 0x4, 4096, 0, 24, .ro, 0⟩
-- TU_NOW0 (R468, 09)
def TU_NOW0_NS_15_0 : Fld := ⟨.tu, 0, 0x0, 0x4, 1, 8, 16, .ro, 0⟩
def TU_NOW0_FRAC : Fld := ⟨.tu, 0, 0x0, 0x4, 1, 0, 8, .ro, 0⟩
-- TU_NOW1 (R468, 09)
def TU_NOW1_NS_39_16 : Fld := ⟨.tu, 0, 0x4, 0x4, 1, 0, 24, .ro, 0⟩
-- TU_NOW2 (R468, 09)
def TU_NOW2_NS_63_40 : Fld := ⟨.tu, 0, 0x8, 0x4, 1, 0, 24, .ro, 0⟩
-- TU_STAT (R468, 09)
def TU_STAT_STATE : Fld := ⟨.tu, 0, 0xc, 0x4, 1, 22, 2, .ro, 0⟩
def TU_STAT_SLEW : Fld := ⟨.tu, 0, 0xc, 0x4, 1, 21, 1, .ro, 0⟩
def TU_STAT_QUAL : Fld := ⟨.tu, 0, 0xc, 0x4, 1, 20, 1, .ro, 0⟩
def TU_STAT_VALID : Fld := ⟨.tu, 0, 0xc, 0x4, 1, 19, 1, .ro, 0⟩
def TU_STAT_MASTER : Fld := ⟨.tu, 0, 0xc, 0x4, 1, 18, 1, .ro, 0⟩
def TU_STAT_SUPP_PEND : Fld := ⟨.tu, 0, 0xc, 0x4, 1, 17, 1, .ro, 0⟩
def TU_STAT_PPSIN_OK : Fld := ⟨.tu, 0, 0xc, 0x4, 1, 16, 1, .ro, 0⟩
-- TU_EPOCH (R468, 09)
def TU_EPOCH_EPOCH : Fld := ⟨.tu, 0, 0x10, 0x4, 1, 0, 24, .ro, 0⟩
-- TU_OFFSET (R468, 09)
def TU_OFFSET_OFFSET : Fld := ⟨.tu, 0, 0x14, 0x4, 1, 0, 24, .ro, 0⟩
-- TU_FREQ (R468, 09)
def TU_FREQ_FREQ : Fld := ⟨.tu, 0, 0x18, 0x4, 1, 0, 24, .ro, 0⟩
-- TU_SLEW (R468, 09)
def TU_SLEW_REMAIN : Fld := ⟨.tu, 0, 0x1c, 0x4, 1, 0, 24, .ro, 0⟩
-- TU_DISC (R468, 09)
def TU_DISC_SECONDS : Fld := ⟨.tu, 0, 0x20, 0x4, 1, 0, 24, .ro, 0⟩
-- TU_HOLD (R468, 09)
def TU_HOLD_SECONDS : Fld := ⟨.tu, 0, 0x24, 0x4, 1, 0, 24, .ro, 0⟩
-- TU_EVT (R468, 09)
def TU_EVT_EVT : Fld := ⟨.tu, 0, 0x28, 0x4, 1, 0, 12, .w1c, 0⟩
-- TU_IEN (R468, 09)
def TU_IEN_IEN : Fld := ⟨.tu, 0, 0x2c, 0x4, 1, 0, 12, .rw, 0⟩
-- TU_ALCTL (R468, 09)
def TU_ALCTL_ARMED : Fld := ⟨.tu, 0, 0x3c, 0x4, 1, 23, 1, .ro, 0⟩
def TU_ALCTL_LATE : Fld := ⟨.tu, 0, 0x3c, 0x4, 1, 22, 1, .ro, 0⟩
def TU_ALCTL_DISARM : Fld := ⟨.tu, 0, 0x3c, 0x4, 1, 0, 1, .wo, 0⟩
-- TU_SETRES (R468, 09)
def TU_SETRES_SEQ : Fld := ⟨.tu, 0, 0x4c, 0x4, 1, 16, 8, .ro, 0⟩
def TU_SETRES_RESULT : Fld := ⟨.tu, 0, 0x4c, 0x4, 1, 0, 4, .ro, 0⟩
-- TU_MASTER (R468, 09)
def TU_MASTER_NODE : Fld := ⟨.tu, 0, 0x50, 0x4, 1, 16, 8, .ro, 0⟩
def TU_MASTER_HOPS : Fld := ⟨.tu, 0, 0x50, 0x4, 1, 8, 8, .ro, 0⟩
def TU_MASTER_TMPRI : Fld := ⟨.tu, 0, 0x50, 0x4, 1, 4, 4, .ro, 0⟩
def TU_MASTER_MSTATE : Fld := ⟨.tu, 0, 0x50, 0x4, 1, 2, 2, .ro, 0⟩
def TU_MASTER_MVALID : Fld := ⟨.tu, 0, 0x50, 0x4, 1, 1, 1, .ro, 0⟩
def TU_MASTER_RING : Fld := ⟨.tu, 0, 0x50, 0x4, 1, 0, 1, .ro, 0⟩
-- TU_LDLY (R468, 09)
def TU_LDLY_DELAY : Fld := ⟨.tu, 0, 0x54, 0x4, 4, 0, 24, .ro, 0⟩
-- TT_SEL (R469, 09)
def TT_SEL_PORT : Fld := ⟨.tu, 2, 0x0, 0x4, 1, 0, 6, .rw, 0⟩
-- TT_CTL (R469, 09)
def TT_CTL_CLR : Fld := ⟨.tu, 2, 0x40, 0x4, 1, 0, 1, .wo, 0⟩
-- TT_PSTAT (R469, 09)
def TT_PSTAT_ROLE : Fld := ⟨.tu, 3, 0x0, 0x4, 64, 22, 2, .ro, 0⟩
def TT_PSTAT_SYNC_OK : Fld := ⟨.tu, 3, 0x0, 0x4, 64, 21, 1, .ro, 0⟩
def TT_PSTAT_ACTING : Fld := ⟨.tu, 3, 0x0, 0x4, 64, 20, 1, .ro, 0⟩
def TT_PSTAT_CC : Fld := ⟨.tu, 3, 0x0, 0x4, 64, 14, 6, .ro, 0⟩
-- TEN_SPTX_SEL (R512, 10)
def TEN_SPTX_SEL_PORT : Fld := ⟨.ten, 0, 0x58, 0x4, 1, 16, 5, .rw, 0⟩
def TEN_SPTX_SEL_ADDRV : Fld := ⟨.ten, 0, 0x58, 0x4, 1, 8, 1, .rw, 0⟩
def TEN_SPTX_SEL_ADDR : Fld := ⟨.ten, 0, 0x58, 0x4, 1, 0, 8, .rw, 0⟩
-- TEN_SPTX_D (R512, 10)
def TEN_SPTX_D_DATA : Fld := ⟨.ten, 0, 0x5c, 0x4, 3, 0, 24, .wo, 0⟩
-- TEN_SPTX_GO (R512, 10)
def TEN_SPTX_GO_GO : Fld := ⟨.ten, 0, 0x68, 0x4, 1, 0, 1, .wo, 0⟩
-- TEN_SPTX_RES (R512, 10)
def TEN_SPTX_RES_SEQ : Fld := ⟨.ten, 0, 0x6c, 0x4, 1, 16, 8, .ro, 0⟩
def TEN_SPTX_RES_OVF : Fld := ⟨.ten, 0, 0x6c, 0x4, 1, 15, 1, .ro, 0⟩
def TEN_SPTX_RES_FILL : Fld := ⟨.ten, 0, 0x6c, 0x4, 1, 8, 7, .ro, 0⟩
def TEN_SPTX_RES_STATUS : Fld := ⟨.ten, 0, 0x6c, 0x4, 1, 0, 4, .ro, 0⟩
-- TEN_SPTX_SENT (R512, 10)
def TEN_SPTX_SENT_COUNT : Fld := ⟨.ten, 0, 0x70, 0x4, 1, 0, 24, .ro, 0⟩
-- TEN_SPTX_FAIL (R512, 10)
def TEN_SPTX_FAIL_COUNT : Fld := ⟨.ten, 0, 0x74, 0x4, 1, 0, 24, .w1c, 0⟩
-- SP_STAT (R512, 10)
def SP_STAT_STATE : Fld := ⟨.sp, 0, 0x0, 0x4, 1, 22, 2, .ro, 0⟩
def SP_STAT_PEND_EN : Fld := ⟨.sp, 0, 0x0, 0x4, 1, 21, 1, .ro, 0⟩
def SP_STAT_TXING : Fld := ⟨.sp, 0, 0x0, 0x4, 1, 20, 1, .ro, 0⟩
def SP_STAT_RXING : Fld := ⟨.sp, 0, 0x0, 0x4, 1, 19, 1, .ro, 0⟩
def SP_STAT_XCVR : Fld := ⟨.sp, 0, 0x0, 0x4, 1, 18, 1, .ro, 0⟩
def SP_STAT_TXQ : Fld := ⟨.sp, 0, 0x0, 0x4, 1, 0, 6, .ro, 0⟩
-- SP_CMD (R512, 10)
def SP_CMD_DISABLE : Fld := ⟨.sp, 0, 0x4, 0x4, 1, 1, 1, .wo, 0⟩
def SP_CMD_ENABLE : Fld := ⟨.sp, 0, 0x4, 0x4, 1, 0, 1, .wo, 0⟩
-- SP_CMDRES (R512, 10)
def SP_CMDRES_CMD_SEQ : Fld := ⟨.sp, 0, 0x8, 0x4, 1, 16, 8, .ro, 0⟩
def SP_CMDRES_RESULT : Fld := ⟨.sp, 0, 0x8, 0x4, 1, 0, 4, .ro, 0⟩
-- SP_BITLEN (R512, 10)
def SP_BITLEN_BITLEN : Fld := ⟨.sp, 0, 0xc, 0x4, 1, 0, 24, .rwb, 0⟩
-- SP_FRAME (R512, 10)
def SP_FRAME_IDLEGAP : Fld := ⟨.sp, 0, 0x10, 0x4, 1, 16, 8, .rwb, 0⟩
def SP_FRAME_TXGAP : Fld := ⟨.sp, 0, 0x10, 0x4, 1, 8, 8, .rwb, 0⟩
def SP_FRAME_STOP2 : Fld := ⟨.sp, 0, 0x10, 0x4, 1, 4, 1, .rwb, 0⟩
def SP_FRAME_PARITY : Fld := ⟨.sp, 0, 0x10, 0x4, 1, 2, 2, .rwb, 0⟩
def SP_FRAME_DBITS : Fld := ⟨.sp, 0, 0x10, 0x4, 1, 0, 1, .rwb, 0⟩
-- SP_EVT (R512, 10)
def SP_EVT_EVT : Fld := ⟨.sp, 0, 0x14, 0x4, 1, 0, 8, .w1c, 0⟩
-- SP_IEN (R512, 10)
def SP_IEN_IEN : Fld := ⟨.sp, 0, 0x18, 0x4, 1, 0, 8, .rw, 0⟩
-- SP_CAP (R512, 10)
def SP_CAP_EN : Fld := ⟨.sp, 0, 0x1c, 0x4, 1, 9, 1, .rwb, 0⟩
def SP_CAP_RING : Fld := ⟨.sp, 0, 0x1c, 0x4, 1, 0, 8, .rwb, 0⟩
-- SP_CFG (R512, 10)
def SP_CFG_BIAS : Fld := ⟨.sp, 1, 0x0, 0x4, 1, 6, 1, .rwi, 0⟩
def SP_CFG_TERM : Fld := ⟨.sp, 1, 0x0, 0x4, 1, 5, 1, .rwi, 0⟩
def SP_CFG_ADDRM : Fld := ⟨.sp, 1, 0x0, 0x4, 1, 4, 1, .rwi, 0⟩
def SP_CFG_DUPLEX : Fld := ⟨.sp, 1, 0x0, 0x4, 1, 3, 1, .rwi, 0⟩
def SP_CFG_START : Fld := ⟨.sp, 1, 0x0, 0x4, 1, 1, 1, .rwi, 0⟩
def SP_CFG_PRESENT : Fld := ⟨.sp, 1, 0x0, 0x4, 1, 0, 1, .rwi, 0⟩
-- SP_OWNER (R512, 10)
def SP_OWNER_VALID : Fld := ⟨.sp, 1, 0x4, 0x4, 1, 8, 1, .rwi, 0⟩
def SP_OWNER_TENANT : Fld := ⟨.sp, 1, 0x4, 0x4, 1, 0, 8, .rwi, 0⟩
-- SP_BLMIN (R512, 10)
def SP_BLMIN_BITLEN : Fld := ⟨.sp, 1, 0x8, 0x4, 1, 0, 24, .rwi, 0⟩
-- SP_BLMAX (R512, 10)
def SP_BLMAX_BITLEN : Fld := ⟨.sp, 1, 0xc, 0x4, 1, 0, 24, .rwi, 0⟩
-- SP_RXREC (R512, 10)
def SP_RXREC_COUNT : Fld := ⟨.sp, 1, 0x40, 0x4, 1, 0, 24, .ro, 0⟩
-- SP_TXMSG (R512, 10)
def SP_TXMSG_COUNT : Fld := ⟨.sp, 1, 0x44, 0x4, 1, 0, 24, .ro, 0⟩
-- SP_PARERR (R512, 10)
def SP_PARERR_COUNT : Fld := ⟨.sp, 1, 0x48, 0x4, 1, 0, 24, .w1c, 0⟩
-- SP_FRMERR (R512, 10)
def SP_FRMERR_COUNT : Fld := ⟨.sp, 1, 0x4c, 0x4, 1, 0, 24, .w1c, 0⟩
-- SP_NOISE (R512, 10)
def SP_NOISE_COUNT : Fld := ⟨.sp, 1, 0x50, 0x4, 1, 0, 24, .w1c, 0⟩
-- SP_BREAK (R512, 10)
def SP_BREAK_COUNT : Fld := ⟨.sp, 1, 0x54, 0x4, 1, 0, 24, .w1c, 0⟩
-- SP_COLL (R512, 10)
def SP_COLL_COUNT : Fld := ⟨.sp, 1, 0x58, 0x4, 1, 0, 24, .w1c, 0⟩
-- SP_RXFANOUT (R512, 10)
def SP_RXFANOUT_COUNT : Fld := ⟨.sp, 1, 0x5c, 0x4, 1, 0, 24, .w1c, 0⟩
-- DB_STAT (R512, 10)
def DB_STAT_VF_OK : Fld := ⟨.db, 0, 0x0, 0x4, 1, 23, 1, .ro, 0⟩
def DB_STAT_MACE : Fld := ⟨.db, 0, 0x0, 0x4, 1, 22, 1, .ro, 0⟩
-- DB_IN (R512, 10)
def DB_IN_LEVEL : Fld := ⟨.db, 0, 0x4, 0x4, 1, 0, 16, .ro, 0⟩
-- DB_OUT (R512, 10)
def DB_OUT_CMD : Fld := ⟨.db, 0, 0x8, 0x4, 1, 0, 16, .ro, 0⟩
-- DB_OSET (R512, 10)
def DB_OSET_LINES : Fld := ⟨.db, 0, 0xc, 0x4, 1, 0, 16, .wo, 0⟩
-- DB_OCLR (R512, 10)
def DB_OCLR_LINES : Fld := ⟨.db, 0, 0x10, 0x4, 1, 0, 16, .wo, 0⟩
-- DB_OPULSE (R512, 10)
def DB_OPULSE_LINES : Fld := ⟨.db, 0, 0x14, 0x4, 1, 0, 16, .wo, 0⟩
-- DB_PWIDTH (R512, 10)
def DB_PWIDTH_WIDTH : Fld := ⟨.db, 0, 0x18, 0x4, 1, 0, 16, .rw, 0⟩
-- DB_FUNC0 (R512, 10)
def DB_FUNC0_FUNC : Fld := ⟨.db, 0, 0x1c, 0x4, 1, 0, 24, .rwb, 0⟩
-- DB_FUNC1 (R512, 10)
def DB_FUNC1_FUNC : Fld := ⟨.db, 0, 0x20, 0x4, 1, 0, 24, .rwb, 0⟩
-- DB_EDGE_R (R512, 10)
def DB_EDGE_R_EDGE : Fld := ⟨.db, 0, 0x24, 0x4, 1, 0, 16, .w1c, 0⟩
-- DB_EDGE_F (R512, 10)
def DB_EDGE_F_EDGE : Fld := ⟨.db, 0, 0x28, 0x4, 1, 0, 16, .w1c, 0⟩
-- DB_REN (R512, 10)
def DB_REN_EN : Fld := ⟨.db, 0, 0x2c, 0x4, 1, 0, 16, .rw, 0⟩
-- DB_FEN (R512, 10)
def DB_FEN_EN : Fld := ⟨.db, 0, 0x30, 0x4, 1, 0, 16, .rw, 0⟩
-- DB_OC (R512, 10)
def DB_OC_OC : Fld := ⟨.db, 0, 0x34, 0x4, 1, 0, 16, .w1c, 0⟩
-- DB_EVT (R512, 10)
def DB_EVT_EVT : Fld := ⟨.db, 0, 0x38, 0x4, 1, 0, 10, .w1c, 0⟩
-- DB_IEN (R512, 10)
def DB_IEN_IEN : Fld := ⟨.db, 0, 0x3c, 0x4, 1, 0, 10, .rw, 0⟩
-- DB_EIEN (R512, 10)
def DB_EIEN_EIEN : Fld := ⟨.db, 0, 0x40, 0x4, 1, 0, 16, .rw, 0⟩
-- DB_DEB (R512, 10)
def DB_DEB_DEB : Fld := ⟨.db, 0, 0x44, 0x4, 6, 0, 24, .rwb, 0⟩
-- DB_CNT (R512, 10)
def DB_CNT_COUNT : Fld := ⟨.db, 0, 0x60, 0x4, 16, 0, 24, .ro, 0⟩
-- DB_CNTCLR (R512, 10)
def DB_CNTCLR_LINES : Fld := ⟨.db, 0, 0xa0, 0x4, 1, 0, 16, .wo, 0⟩
-- DB_CNTOVF (R512, 10)
def DB_CNTOVF_OVF : Fld := ⟨.db, 0, 0xa4, 0x4, 1, 0, 16, .w1c, 0⟩
-- DB_TSF0 (R512, 10)
def DB_TSF0_VALID : Fld := ⟨.db, 0, 0xb0, 0x4, 1, 23, 1, .ro, 0⟩
def DB_TSF0_RISE : Fld := ⟨.db, 0, 0xb0, 0x4, 1, 22, 1, .ro, 0⟩
def DB_TSF0_LINE : Fld := ⟨.db, 0, 0xb0, 0x4, 1, 18, 4, .ro, 0⟩
def DB_TSF0_EPOCH : Fld := ⟨.db, 0, 0xb0, 0x4, 1, 8, 8, .ro, 0⟩
def DB_TSF0_FRAC : Fld := ⟨.db, 0, 0xb0, 0x4, 1, 0, 8, .ro, 0⟩
-- DB_TSF (R512, 10)
def DB_TSF_NS : Fld := ⟨.db, 0, 0xb4, 0x4, 3, 0, 24, .ro, 0⟩
-- DB_TSCNT (R512, 10)
def DB_TSCNT_COUNT : Fld := ⟨.db, 0, 0xc0, 0x4, 1, 0, 6, .ro, 0⟩
-- DB_TSLOST (R512, 10)
def DB_TSLOST_COUNT : Fld := ⟨.db, 0, 0xc4, 0x4, 1, 0, 24, .w1c, 0⟩
-- DB_CMDDROP (R512, 10)
def DB_CMDDROP_COUNT : Fld := ⟨.db, 0, 0xc8, 0x4, 1, 0, 24, .w1c, 0⟩
-- DB_CFG (R512, 10)
def DB_CFG_TYPE : Fld := ⟨.db, 1, 0x0, 0x4, 1, 8, 1, .rwi, 0⟩
def DB_CFG_GROUP : Fld := ⟨.db, 1, 0x0, 0x4, 1, 4, 4, .rwi, 0⟩
def DB_CFG_PRESENT : Fld := ⟨.db, 1, 0x0, 0x4, 1, 0, 1, .rwi, 0⟩
-- DB_OWNER (R512, 10)
def DB_OWNER_TENANT : Fld := ⟨.db, 1, 0x4, 0x4, 1, 0, 8, .rwi, 0⟩
-- DB_PERMOUT (R512, 10)
def DB_PERMOUT_LINES : Fld := ⟨.db, 1, 0x8, 0x4, 1, 0, 16, .rwi, 0⟩
-- DB_PERMCNT (R512, 10)
def DB_PERMCNT_LINES : Fld := ⟨.db, 1, 0xc, 0x4, 1, 0, 16, .rwi, 0⟩
-- DB_PERMTS (R512, 10)
def DB_PERMTS_LINES : Fld := ⟨.db, 1, 0x10, 0x4, 1, 0, 16, .rwi, 0⟩
-- DB_SAFE (R512, 10)
def DB_SAFE_SAFE : Fld := ⟨.db, 1, 0x14, 0x4, 1, 0, 16, .rwi, 0⟩
-- DB_GRANTV (R512, 10)
def DB_GRANTV_VALID : Fld := ⟨.db, 1, 0x18, 0x4, 1, 0, 16, .rwi, 0⟩
-- DB_GRANT (R512, 10)
def DB_GRANT_TENANT : Fld := ⟨.db, 1, 0x1c, 0x4, 6, 0, 24, .rwi, 0⟩
-- RG_STAT (R568, 11)
def RG_STAT_RSTATE_A : Fld := ⟨.rg, 0, 0x0, 0x4, 1, 22, 2, .ro, 0⟩
def RG_STAT_RSTATE_B : Fld := ⟨.rg, 0, 0x0, 0x4, 1, 20, 2, .ro, 0⟩
def RG_STAT_STOP : Fld := ⟨.rg, 0, 0x0, 0x4, 1, 19, 1, .ro, 0⟩
def RG_STAT_DUP : Fld := ⟨.rg, 0, 0x0, 0x4, 1, 18, 1, .ro, 0⟩
def RG_STAT_SLEEPING : Fld := ⟨.rg, 0, 0x0, 0x4, 1, 17, 1, .ro, 0⟩
def RG_STAT_NODE : Fld := ⟨.rg, 0, 0x0, 0x4, 1, 0, 8, .ro, 0⟩
-- RG_EVT (R568, 11)
def RG_EVT_EVT : Fld := ⟨.rg, 0, 0x4, 0x4, 1, 0, 16, .w1c, 0⟩
-- RG_IEN (R568, 11)
def RG_IEN_IEN : Fld := ⟨.rg, 0, 0x8, 0x4, 1, 0, 16, .rw, 0⟩
-- RG_MEPOCH (R568, 11)
def RG_MEPOCH_EPOCH : Fld := ⟨.rg, 0, 0xc, 0x4, 1, 0, 24, .ro, 0⟩
-- RG_MCOUNT (R568, 11)
def RG_MCOUNT_CNT_B : Fld := ⟨.rg, 0, 0x10, 0x4, 1, 16, 8, .ro, 0⟩
def RG_MCOUNT_CNT_A : Fld := ⟨.rg, 0, 0x10, 0x4, 1, 8, 8, .ro, 0⟩
def RG_MCOUNT_CNT : Fld := ⟨.rg, 0, 0x10, 0x4, 1, 0, 8, .ro, 0⟩
-- RG_MBM (R568, 11)
def RG_MBM_MEMBER : Fld := ⟨.rg, 0, 0x20, 0x4, 11, 0, 24, .ro, 0⟩
-- RG_RCHA (R568, 11)
def RG_RCHA_REACH : Fld := ⟨.rg, 0, 0x60, 0x4, 11, 0, 24, .ro, 0⟩
-- RG_RCHB (R568, 11)
def RG_RCHB_REACH : Fld := ⟨.rg, 0, 0xa0, 0x4, 11, 0, 24, .ro, 0⟩
-- RG_SLEEP_CMD (R568, 11)
def RG_SLEEP_CMD_START : Fld := ⟨.rg, 0, 0x100, 0x4, 1, 0, 1, .wo, 0⟩
-- RG_SLEEP_RES (R568, 11)
def RG_SLEEP_RES_SEQ : Fld := ⟨.rg, 0, 0x104, 0x4, 1, 16, 8, .ro, 0⟩
def RG_SLEEP_RES_REFUSER : Fld := ⟨.rg, 0, 0x104, 0x4, 1, 8, 8, .ro, 0⟩
def RG_SLEEP_RES_REASON : Fld := ⟨.rg, 0, 0x104, 0x4, 1, 4, 4, .ro, 0⟩
def RG_SLEEP_RES_RESULT : Fld := ⟨.rg, 0, 0x104, 0x4, 1, 0, 4, .ro, 0⟩
-- RG_TX_REQ (R568, 11)
def RG_TX_REQ_COUNT : Fld := ⟨.rg, 0, 0x140, 0x4, 1, 0, 24, .ro, 0⟩
-- RG_RX_REQ (R568, 11)
def RG_RX_REQ_COUNT : Fld := ⟨.rg, 0, 0x144, 0x4, 1, 0, 24, .ro, 0⟩
-- RG_REFUSED_IN (R568, 11)
def RG_REFUSED_IN_COUNT : Fld := ⟨.rg, 0, 0x148, 0x4, 1, 0, 24, .w1c, 0⟩
-- RG_ABORTED (R568, 11)
def RG_ABORTED_COUNT : Fld := ⟨.rg, 0, 0x14c, 0x4, 1, 0, 24, .w1c, 0⟩
-- RG_TIMEOUT (R568, 11)
def RG_TIMEOUT_COUNT : Fld := ⟨.rg, 0, 0x150, 0x4, 1, 0, 24, .w1c, 0⟩
-- RG_LATE_RSP (R568, 11)
def RG_LATE_RSP_COUNT : Fld := ⟨.rg, 0, 0x154, 0x4, 1, 0, 24, .w1c, 0⟩
-- RG_HOPLIM (R568, 11)
def RG_HOPLIM_COUNT : Fld := ⟨.rg, 0, 0x158, 0x4, 1, 0, 24, .w1c, 0⟩
-- RG_NOROOM (R568, 11)
def RG_NOROOM_COUNT : Fld := ⟨.rg, 0, 0x15c, 0x4, 1, 0, 24, .w1c, 0⟩
-- RG_CFG (R568, 11)
def RG_CFG_RGOWNER : Fld := ⟨.rg, 1, 0x0, 0x4, 1, 16, 8, .rwi, 0⟩
def RG_CFG_GROUP : Fld := ⟨.rg, 1, 0x0, 0x4, 1, 10, 4, .rwi, 0⟩
def RG_CFG_ENB : Fld := ⟨.rg, 1, 0x0, 0x4, 1, 9, 1, .rwi, 0⟩
def RG_CFG_ENA : Fld := ⟨.rg, 1, 0x0, 0x4, 1, 8, 1, .rwi, 0⟩
def RG_CFG_NODE : Fld := ⟨.rg, 1, 0x0, 0x4, 1, 0, 8, .rwi, 0⟩
-- RG_FABID (R568, 11)
def RG_FABID_FABRIC_ID : Fld := ⟨.rg, 1, 0x4, 0x4, 1, 0, 24, .rwi, 0⟩
-- RG_RTMO (R568, 11)
def RG_RTMO_RTMO : Fld := ⟨.rg, 1, 0x8, 0x4, 1, 0, 14, .rwi, 0⟩
-- RG_RATE_A (R568, 11)
def RG_RATE_A_RATE_REQ : Fld := ⟨.rg, 1, 0xc, 0x4, 1, 8, 8, .rwi, 0⟩
def RG_RATE_A_RATE_RSP : Fld := ⟨.rg, 1, 0xc, 0x4, 1, 0, 8, .rwi, 0⟩
-- RG_RATE_B (R568, 11)
def RG_RATE_B_RATE_REQ : Fld := ⟨.rg, 1, 0x10, 0x4, 1, 8, 8, .rwi, 0⟩
def RG_RATE_B_RATE_RSP : Fld := ⟨.rg, 1, 0x10, 0x4, 1, 0, 8, .rwi, 0⟩
-- RG_NGRANT (R568, 11)
def RG_NGRANT_COUNT : Fld := ⟨.rg, 1, 0x14, 0x4, 1, 0, 12, .rwi, 0⟩
-- RG_GSEL (R568, 11)
def RG_GSEL_INDEX : Fld := ⟨.rg, 2, 0x0, 0x4, 1, 0, 11, .rw, 0⟩
-- RG_GDATA0 (R568, 11)
def RG_GDATA0_STENANT : Fld := ⟨.rg, 2, 0x4, 0x4, 1, 16, 8, .ro, 0⟩
def RG_GDATA0_SNODE_HI : Fld := ⟨.rg, 2, 0x4, 0x4, 1, 8, 8, .ro, 0⟩
def RG_GDATA0_SNODE_LO : Fld := ⟨.rg, 2, 0x4, 0x4, 1, 0, 8, .ro, 0⟩
-- RG_GDATA1 (R568, 11)
def RG_GDATA1_CLASS : Fld := ⟨.rg, 2, 0x8, 0x4, 1, 20, 4, .ro, 0⟩
def RG_GDATA1_ORIGINS : Fld := ⟨.rg, 2, 0x8, 0x4, 1, 17, 3, .ro, 0⟩
def RG_GDATA1_STANY : Fld := ⟨.rg, 2, 0x8, 0x4, 1, 16, 1, .ro, 0⟩
def RG_GDATA1_OBJ_LO : Fld := ⟨.rg, 2, 0x8, 0x4, 1, 0, 13, .ro, 0⟩
-- RG_GDATA2 (R568, 11)
def RG_GDATA2_W : Fld := ⟨.rg, 2, 0xc, 0x4, 1, 15, 1, .ro, 0⟩
def RG_GDATA2_R : Fld := ⟨.rg, 2, 0xc, 0x4, 1, 14, 1, .ro, 0⟩
def RG_GDATA2_OBJ_HI : Fld := ⟨.rg, 2, 0xc, 0x4, 1, 0, 13, .ro, 0⟩
-- RG_CTX (R568, 11)
def RG_CTX_GATHER : Fld := ⟨.rg, 2, 0x10, 0x4, 1, 16, 8, .ro, 0⟩
def RG_CTX_REFLEX : Fld := ⟨.rg, 2, 0x10, 0x4, 1, 8, 8, .ro, 0⟩
def RG_CTX_WINDOW : Fld := ⟨.rg, 2, 0x10, 0x4, 1, 0, 8, .ro, 0⟩
-- RR_GA0 (R569, 11)
def RR_GA0_GA_LO : Fld := ⟨.rg, 3, 0x0, 0x4, 1, 0, 24, .rw, 0⟩
-- RR_GA1 (R569, 11)
def RR_GA1_NODE : Fld := ⟨.rg, 3, 0x4, 0x4, 1, 0, 8, .rw, 0⟩
-- RR_CTL (R569, 11)
def RR_CTL_GO : Fld := ⟨.rg, 3, 0x8, 0x4, 1, 23, 1, .wo, 0⟩
def RR_CTL_NOTE : Fld := ⟨.rg, 3, 0x8, 0x4, 1, 22, 1, .rw, 0⟩
def RR_CTL_COUNT : Fld := ⟨.rg, 3, 0x8, 0x4, 1, 16, 5, .rw, 0⟩
def RR_CTL_OP : Fld := ⟨.rg, 3, 0x8, 0x4, 1, 0, 4, .rw, 0⟩
-- RR_DCMD (R569, 11)
def RR_DCMD_DOP : Fld := ⟨.rg, 3, 0xc, 0x4, 1, 16, 2, .rw, 0⟩
def RR_DCMD_LINES : Fld := ⟨.rg, 3, 0xc, 0x4, 1, 0, 16, .rw, 0⟩
-- RR_PW (R569, 11)
def RR_PW_PWIDTH : Fld := ⟨.rg, 3, 0x10, 0x4, 1, 0, 16, .rw, 0⟩
-- RR_MW0 (R569, 11)
def RR_MW0_ID_LO : Fld := ⟨.rg, 3, 0x14, 0x4, 1, 0, 24, .rw, 0⟩
-- RR_MW1 (R569, 11)
def RR_MW1_LEN : Fld := ⟨.rg, 3, 0x18, 0x4, 1, 13, 7, .rw, 0⟩
def RR_MW1_BRS : Fld := ⟨.rg, 3, 0x18, 0x4, 1, 12, 1, .rw, 0⟩
def RR_MW1_FDF : Fld := ⟨.rg, 3, 0x18, 0x4, 1, 11, 1, .rw, 0⟩
def RR_MW1_RTR : Fld := ⟨.rg, 3, 0x18, 0x4, 1, 10, 1, .rw, 0⟩
def RR_MW1_IDE : Fld := ⟨.rg, 3, 0x18, 0x4, 1, 9, 1, .rw, 0⟩
def RR_MW1_DLC : Fld := ⟨.rg, 3, 0x18, 0x4, 1, 5, 4, .rw, 0⟩
def RR_MW1_ID_HI : Fld := ⟨.rg, 3, 0x18, 0x4, 1, 0, 5, .rw, 0⟩
-- RR_RES (R569, 11)
def RR_RES_BUSY : Fld := ⟨.rg, 3, 0x1c, 0x4, 1, 23, 1, .ro, 0⟩
def RR_RES_OVR : Fld := ⟨.rg, 3, 0x1c, 0x4, 1, 22, 1, .ro, 0⟩
def RR_RES_SEQ : Fld := ⟨.rg, 3, 0x1c, 0x4, 1, 16, 6, .ro, 0⟩
def RR_RES_REASON : Fld := ⟨.rg, 3, 0x1c, 0x4, 1, 8, 8, .ro, 0⟩
def RR_RES_STATUS : Fld := ⟨.rg, 3, 0x1c, 0x4, 1, 0, 8, .ro, 0⟩
-- RR_RES1 (R569, 11)
def RR_RES1_DROPPED : Fld := ⟨.rg, 3, 0x20, 0x4, 1, 0, 16, .ro, 0⟩
-- RR_DATA (R569, 11)
def RR_DATA_DATA : Fld := ⟨.rg, 3, 0x40, 0x4, 22, 0, 24, .rw, 0⟩
-- RL_STAT (R570, 11)
def RL_STAT_STATE : Fld := ⟨.rl, 4, 0x0, 0x4, 1, 21, 3, .ro, 0⟩
def RL_STAT_WRAP : Fld := ⟨.rl, 4, 0x0, 0x4, 1, 20, 1, .ro, 0⟩
def RL_STAT_LOCK : Fld := ⟨.rl, 4, 0x0, 0x4, 1, 19, 1, .ro, 0⟩
def RL_STAT_HIBER : Fld := ⟨.rl, 4, 0x0, 0x4, 1, 18, 1, .ro, 0⟩
def RL_STAT_RFAULT : Fld := ⟨.rl, 4, 0x0, 0x4, 1, 17, 1, .ro, 0⟩
def RL_STAT_REMAIN : Fld := ⟨.rl, 4, 0x0, 0x4, 1, 0, 16, .ro, 0⟩
-- RL_CFG (R570, 11)
def RL_CFG_TXEQ : Fld := ⟨.rl, 4, 0x4, 0x4, 1, 16, 4, .rwb, 0⟩
def RL_CFG_RETRY : Fld := ⟨.rl, 4, 0x4, 0x4, 1, 0, 14, .rwb, 0⟩
-- RL_CMD (R570, 11)
def RL_CMD_FORGET : Fld := ⟨.rl, 4, 0x8, 0x4, 1, 1, 1, .wo, 0⟩
def RL_CMD_RETRAIN : Fld := ⟨.rl, 4, 0x8, 0x4, 1, 0, 1, .wo, 0⟩
-- RL_LASTLOSS (R570, 11)
def RL_LASTLOSS_REASON : Fld := ⟨.rl, 4, 0xc, 0x4, 1, 0, 4, .ro, 0⟩
-- RL_NB (R570, 11)
def RL_NB_IDENT : Fld := ⟨.rl, 4, 0x10, 0x4, 12, 0, 16, .ro, 0⟩
-- RL_SEQ (R570, 11)
def RL_SEQ_TXNEXT : Fld := ⟨.rl, 4, 0x40, 0x4, 1, 12, 12, .ro, 0⟩
def RL_SEQ_RXEXP : Fld := ⟨.rl, 4, 0x40, 0x4, 1, 0, 12, .ro, 0⟩
-- RL_BUF (R570, 11)
def RL_BUF_CRED1 : Fld := ⟨.rl, 4, 0x44, 0x4, 1, 18, 5, .ro, 0⟩
def RL_BUF_CRED0 : Fld := ⟨.rl, 4, 0x44, 0x4, 1, 13, 5, .ro, 0⟩
def RL_BUF_RETRYBUF : Fld := ⟨.rl, 4, 0x44, 0x4, 1, 0, 7, .ro, 0⟩
-- RL_TXCELL (R570, 11)
def RL_TXCELL_COUNT : Fld := ⟨.rl, 4, 0x80, 0x4, 1, 0, 24, .ro, 0⟩
-- RL_RXCELL (R570, 11)
def RL_RXCELL_COUNT : Fld := ⟨.rl, 4, 0x84, 0x4, 1, 0, 24, .ro, 0⟩
-- RL_CRCERR (R570, 11)
def RL_CRCERR_COUNT : Fld := ⟨.rl, 4, 0x88, 0x4, 1, 0, 24, .w1c, 0⟩
-- RL_REPLAY (R570, 11)
def RL_REPLAY_COUNT : Fld := ⟨.rl, 4, 0x8c, 0x4, 1, 0, 24, .w1c, 0⟩
-- RL_LOSSES (R570, 11)
def RL_LOSSES_COUNT : Fld := ⟨.rl, 4, 0x90, 0x4, 1, 0, 24, .w1c, 0⟩
-- RL_BADMSG (R570, 11)
def RL_BADMSG_COUNT : Fld := ⟨.rl, 4, 0x94, 0x4, 1, 0, 24, .w1c, 0⟩
-- GE_STAT (R598, 12)
def GE_STAT_SLOTS : Fld := ⟨.ge, 0, 0x0, 0x4, 1, 20, 4, .ro, 0⟩
def GE_STAT_QUEUED : Fld := ⟨.ge, 0, 0x0, 0x4, 1, 0, 7, .ro, 0⟩
-- GE_NGROUP (R598, 12)
def GE_NGROUP_COUNT : Fld := ⟨.ge, 0, 0x4, 0x4, 1, 0, 11, .rwi, 0⟩
-- GE_STARTS (R598, 12)
def GE_STARTS_COUNT : Fld := ⟨.ge, 0, 0x40, 0x4, 1, 0, 24, .ro, 0⟩
-- GE_RUNS (R598, 12)
def GE_RUNS_COUNT : Fld := ⟨.ge, 0, 0x44, 0x4, 1, 0, 24, .ro, 0⟩
-- GE_REFUSED (R598, 12)
def GE_REFUSED_COUNT : Fld := ⟨.ge, 0, 0x48, 0x4, 1, 0, 24, .w1c, 0⟩
-- GE_OVERRUN (R598, 12)
def GE_OVERRUN_COUNT : Fld := ⟨.ge, 0, 0x4c, 0x4, 1, 0, 24, .w1c, 0⟩
-- GE_PARTIAL (R598, 12)
def GE_PARTIAL_COUNT : Fld := ⟨.ge, 0, 0x50, 0x4, 1, 0, 24, .w1c, 0⟩
-- GE_SAT (R598, 12)
def GE_SAT_COUNT : Fld := ⟨.ge, 0, 0x54, 0x4, 1, 0, 24, .w1c, 0⟩
-- GE_LATE (R598, 12)
def GE_LATE_COUNT : Fld := ⟨.ge, 0, 0x58, 0x4, 1, 0, 24, .w1c, 0⟩
-- GE_RECDROP (R598, 12)
def GE_RECDROP_COUNT : Fld := ⟨.ge, 0, 0x5c, 0x4, 1, 0, 24, .w1c, 0⟩
-- GT_START (R598, 12)
def GT_START_GROUP : Fld := ⟨.gt, 1, 0x0, 0x4, 1, 0, 10, .wo, 0⟩
-- GT_SRES (R598, 12)
def GT_SRES_SEQ : Fld := ⟨.gt, 1, 0x4, 0x4, 1, 16, 8, .ro, 0⟩
def GT_SRES_RESULT : Fld := ⟨.gt, 1, 0x4, 0x4, 1, 0, 4, .ro, 0⟩
-- GT_RSEL (R598, 12)
def GT_RSEL_GROUP : Fld := ⟨.gt, 1, 0x8, 0x4, 1, 0, 10, .rw, 0⟩
-- GT_R0 (R598, 12)
def GT_R0_CSTAT : Fld := ⟨.gt, 1, 0xc, 0x4, 1, 22, 2, .ro, 0⟩
def GT_R0_TRIG : Fld := ⟨.gt, 1, 0xc, 0x4, 1, 20, 2, .ro, 0⟩
def GT_R0_SAT : Fld := ⟨.gt, 1, 0xc, 0x4, 1, 19, 1, .ro, 0⟩
def GT_R0_LATE : Fld := ⟨.gt, 1, 0xc, 0x4, 1, 18, 1, .ro, 0⟩
def GT_R0_VALID : Fld := ⟨.gt, 1, 0xc, 0x4, 1, 17, 1, .ro, 0⟩
def GT_R0_INCL : Fld := ⟨.gt, 1, 0xc, 0x4, 1, 12, 5, .ro, 0⟩
-- GT_R1 (R598, 12)
def GT_R1_FMASK : Fld := ⟨.gt, 1, 0x10, 0x4, 1, 0, 16, .ro, 0⟩
-- GT_R2 (R598, 12)
def GT_R2_RESULT : Fld := ⟨.gt, 1, 0x14, 0x4, 1, 0, 24, .ro, 0⟩
-- GT_R3 (R598, 12)
def GT_R3_RESULT : Fld := ⟨.gt, 1, 0x18, 0x4, 1, 0, 8, .ro, 0⟩
-- GT_R4 (R598, 12)
def GT_R4_SEQ : Fld := ⟨.gt, 1, 0x1c, 0x4, 1, 0, 24, .ro, 0⟩
-- GT_GSTAT (R598, 12)
def GT_GSTAT_SATSTK : Fld := ⟨.gt, 1, 0x20, 0x4, 1, 23, 1, .w1c, 0⟩
def GT_GSTAT_STATE : Fld := ⟨.gt, 1, 0x20, 0x4, 1, 0, 2, .ro, 0⟩
-- GT_DONE (R598, 12)
def GT_DONE_DONE : Fld := ⟨.gt, 1, 0x100, 0x4, 43, 0, 24, .w1c, 0⟩
-- GE_GSEL (R598, 12)
def GE_GSEL_GROUP : Fld := ⟨.ge, 2, 0x0, 0x4, 1, 0, 10, .rw, 0⟩
-- GE_GDATA (R598, 12)
def GE_GDATA_DATA : Fld := ⟨.ge, 2, 0x4, 0x4, 36, 0, 24, .ro, 0⟩
-- PR_STAT (R629, 13)
def PR_STAT_STATE : Fld := ⟨.pr, 0, 0x0, 0x4, 1, 20, 4, .ro, 0⟩
def PR_STAT_ACTING : Fld := ⟨.pr, 0, 0x0, 0x4, 1, 19, 1, .ro, 0⟩
def PR_STAT_PL0_OK : Fld := ⟨.pr, 0, 0x0, 0x4, 1, 18, 1, .ro, 0⟩
def PR_STAT_PL1_OK : Fld := ⟨.pr, 0, 0x0, 0x4, 1, 17, 1, .ro, 0⟩
def PR_STAT_RING_OK : Fld := ⟨.pr, 0, 0x0, 0x4, 1, 16, 1, .ro, 0⟩
def PR_STAT_MIRROR_OK : Fld := ⟨.pr, 0, 0x0, 0x4, 1, 15, 1, .ro, 0⟩
def PR_STAT_ISOL : Fld := ⟨.pr, 0, 0x0, 0x4, 1, 14, 1, .ro, 0⟩
def PR_STAT_SWAPPING : Fld := ⟨.pr, 0, 0x0, 0x4, 1, 13, 1, .ro, 0⟩
-- PR_EPOCH (R629, 13)
def PR_EPOCH_EPOCH : Fld := ⟨.pr, 0, 0x4, 0x4, 1, 0, 24, .ro, 0⟩
-- PR_PEER (R629, 13)
def PR_PEER_PSTATE : Fld := ⟨.pr, 0, 0x8, 0x4, 1, 20, 4, .ro, 0⟩
def PR_PEER_PACTING : Fld := ⟨.pr, 0, 0x8, 0x4, 1, 19, 1, .ro, 0⟩
def PR_PEER_AGE : Fld := ⟨.pr, 0, 0x8, 0x4, 1, 0, 16, .ro, 0⟩
-- PR_CMD (R629, 13)
def PR_CMD_SWAP : Fld := ⟨.pr, 0, 0xc, 0x4, 1, 0, 1, .wo, 0⟩
-- PR_CMDRES (R629, 13)
def PR_CMDRES_CMD_SEQ : Fld := ⟨.pr, 0, 0x10, 0x4, 1, 16, 8, .ro, 0⟩
def PR_CMDRES_RESULT : Fld := ⟨.pr, 0, 0x10, 0x4, 1, 0, 4, .ro, 0⟩
-- PR_CLV0 (R629, 13)
def PR_CLV0_OWN_ID : Fld := ⟨.pr, 0, 0x14, 0x4, 1, 0, 24, .ro, 0⟩
-- PR_CLV1 (R629, 13)
def PR_CLV1_OWN_ID : Fld := ⟨.pr, 0, 0x18, 0x4, 1, 0, 5, .ro, 0⟩
-- PR_CLV2 (R629, 13)
def PR_CLV2_PEER_ID : Fld := ⟨.pr, 0, 0x1c, 0x4, 1, 0, 24, .ro, 0⟩
-- PR_CLV3 (R629, 13)
def PR_CLV3_PEER_ID : Fld := ⟨.pr, 0, 0x20, 0x4, 1, 0, 5, .ro, 0⟩
def PR_CLV3_OUTCOME : Fld := ⟨.pr, 0, 0x20, 0x4, 1, 8, 2, .ro, 0⟩
-- PR_EVT (R629, 13)
def PR_EVT_EVT : Fld := ⟨.pr, 0, 0x24, 0x4, 1, 0, 12, .w1c, 0⟩
-- PR_IEN (R629, 13)
def PR_IEN_IEN : Fld := ⟨.pr, 0, 0x28, 0x4, 1, 0, 12, .rw, 0⟩
-- PR_MSEQ (R629, 13)
def PR_MSEQ_MSEQ : Fld := ⟨.pr, 0, 0x2c, 0x4, 1, 0, 24, .ro, 0⟩
-- PR_MLAG (R629, 13)
def PR_MLAG_LAG : Fld := ⟨.pr, 0, 0x30, 0x4, 1, 0, 13, .ro, 0⟩
-- PR_HBMISS (R629, 13)
def PR_HBMISS_COUNT : Fld := ⟨.pr, 0, 0x40, 0x4, 1, 0, 24, .w1c, 0⟩
-- PR_CONTESTS (R629, 13)
def PR_CONTESTS_COUNT : Fld := ⟨.pr, 0, 0x44, 0x4, 1, 0, 24, .w1c, 0⟩
-- PR_FAILOVERS (R629, 13)
def PR_FAILOVERS_COUNT : Fld := ⟨.pr, 0, 0x48, 0x4, 1, 0, 24, .w1c, 0⟩
-- PR_SHADOW (R629, 13)
def PR_SHADOW_COUNT : Fld := ⟨.pr, 0, 0x4c, 0x4, 1, 0, 24, .ro, 0⟩
-- PR_OBSERVED (R629, 13)
def PR_OBSERVED_COUNT : Fld := ⟨.pr, 0, 0x50, 0x4, 1, 0, 24, .ro, 0⟩
-- PR_NOCQ (R629, 13)
def PR_NOCQ_COUNT : Fld := ⟨.pr, 0, 0x54, 0x4, 1, 0, 24, .w1c, 0⟩
-- PR_FOREIGN (R629, 13)
def PR_FOREIGN_COUNT : Fld := ⟨.pr, 0, 0x58, 0x4, 1, 0, 24, .w1c, 0⟩
-- PR_RESYNC (R629, 13)
def PR_RESYNC_COUNT : Fld := ⟨.pr, 0, 0x5c, 0x4, 1, 0, 24, .w1c, 0⟩
-- PR_CFG (R629, 13)
def PR_CFG_PAIRED : Fld := ⟨.pr, 0, 0x100, 0x4, 1, 23, 1, .rwi, 0⟩
def PR_CFG_PREFER : Fld := ⟨.pr, 0, 0x100, 0x4, 1, 22, 1, .rwi, 0⟩
def PR_CFG_POWNER : Fld := ⟨.pr, 0, 0x100, 0x4, 1, 8, 8, .rwi, 0⟩
def PR_CFG_PNODE : Fld := ⟨.pr, 0, 0x100, 0x4, 1, 0, 8, .rwi, 0⟩
-- PR_PSER0 (R629, 13)
def PR_PSER0_SERIAL : Fld := ⟨.pr, 0, 0x104, 0x4, 1, 0, 24, .rwi, 0⟩
-- PR_PSER1 (R629, 13)
def PR_PSER1_SERIAL : Fld := ⟨.pr, 0, 0x108, 0x4, 1, 0, 24, .rwi, 0⟩
-- PR_PSER2 (R629, 13)
def PR_PSER2_SERIAL : Fld := ⟨.pr, 0, 0x10c, 0x4, 1, 0, 16, .rwi, 0⟩
-- PR_CLVPFX (R629, 13)
def PR_CLVPFX_PFX : Fld := ⟨.pr, 0, 0x110, 0x4, 1, 0, 8, .rwi, 0⟩
-- PR_JOIN (R629, 13)
def PR_JOIN_JOIN_TMO : Fld := ⟨.pr, 0, 0x114, 0x4, 1, 0, 14, .rwi, 0⟩
-- PL_STAT (R629, 13)
def PL_STAT_STATE : Fld := ⟨.pl, 1, 0x0, 0x4, 1, 21, 3, .ro, 0⟩
def PL_STAT_LOCK : Fld := ⟨.pl, 1, 0x0, 0x4, 1, 19, 1, .ro, 0⟩
def PL_STAT_HIBER : Fld := ⟨.pl, 1, 0x0, 0x4, 1, 18, 1, .ro, 0⟩
def PL_STAT_RFAULT : Fld := ⟨.pl, 1, 0x0, 0x4, 1, 17, 1, .ro, 0⟩
-- PL_CFG (R629, 13)
def PL_CFG_TXEQ : Fld := ⟨.pl, 1, 0x4, 0x4, 1, 16, 4, .rwb, 0⟩
-- PL_CMD (R629, 13)
def PL_CMD_RETRAIN : Fld := ⟨.pl, 1, 0x8, 0x4, 1, 0, 1, .wo, 0⟩
-- PL_LASTLOSS (R629, 13)
def PL_LASTLOSS_REASON : Fld := ⟨.pl, 1, 0xc, 0x4, 1, 0, 4, .ro, 0⟩
-- PL_NB (R629, 13)
def PL_NB_IDENT : Fld := ⟨.pl, 1, 0x10, 0x4, 12, 0, 16, .ro, 0⟩
-- PL_TXCELL (R629, 13)
def PL_TXCELL_COUNT : Fld := ⟨.pl, 1, 0x80, 0x4, 1, 0, 24, .ro, 0⟩
-- PL_RXCELL (R629, 13)
def PL_RXCELL_COUNT : Fld := ⟨.pl, 1, 0x84, 0x4, 1, 0, 24, .ro, 0⟩
-- PL_HBRX (R629, 13)
def PL_HBRX_COUNT : Fld := ⟨.pl, 1, 0x88, 0x4, 1, 0, 24, .ro, 0⟩
-- PL_CRCERR (R629, 13)
def PL_CRCERR_COUNT : Fld := ⟨.pl, 1, 0x8c, 0x4, 1, 0, 24, .w1c, 0⟩
-- PL_REPLAY (R629, 13)
def PL_REPLAY_COUNT : Fld := ⟨.pl, 1, 0x90, 0x4, 1, 0, 24, .w1c, 0⟩
-- PL_LOSSES (R629, 13)
def PL_LOSSES_COUNT : Fld := ⟨.pl, 1, 0x94, 0x4, 1, 0, 24, .w1c, 0⟩
-- IC_SETB (R664, 14)
def IC_SETB_SET : Fld := ⟨.ic, 0, 0x0, 0x4, 43, 0, 24, .w1s, 0⟩
-- IC_CLRB (R664, 14)
def IC_CLRB_CLR : Fld := ⟨.ic, 0, 0x100, 0x4, 43, 0, 24, .w1c, 0⟩
-- IC_SETN (R664, 14)
def IC_SETN_SOURCE : Fld := ⟨.ic, 0, 0x1e0, 0x4, 1, 0, 10, .wo, 0⟩
-- IC_CLRN (R664, 14)
def IC_CLRN_SOURCE : Fld := ⟨.ic, 0, 0x1e4, 0x4, 1, 0, 10, .wo, 0⟩
-- IC_BADTGT (R664, 14)
def IC_BADTGT_COUNT : Fld := ⟨.ic, 0, 0x200, 0x4, 1, 0, 24, .w1c, 0⟩
-- IC_SRC (R664, 14)
def IC_SRC_INPUT : Fld := ⟨.ic, 1, 0x0, 0x4, 1024, 23, 1, .ro, 0⟩
def IC_SRC_P : Fld := ⟨.ic, 1, 0x0, 0x4, 1024, 22, 1, .ro, 0⟩
def IC_SRC_STATE : Fld := ⟨.ic, 1, 0x0, 0x4, 1024, 20, 2, .ro, 0⟩
def IC_SRC_TARGET : Fld := ⟨.ic, 1, 0x0, 0x4, 1024, 8, 9, .rw, 0⟩
def IC_SRC_SENSE : Fld := ⟨.ic, 1, 0x0, 0x4, 1024, 4, 2, .rw, 0⟩
def IC_SRC_PRI : Fld := ⟨.ic, 1, 0x0, 0x4, 1024, 0, 4, .rw, 0⟩
-- IC_TCFG (R664, 14)
def IC_TCFG_CNT : Fld := ⟨.ic, 3, 0x0, 0x4, 1, 8, 8, .rw, 1⟩
def IC_TCFG_COAL : Fld := ⟨.ic, 3, 0x0, 0x4, 1, 4, 1, .rw, 0⟩
def IC_TCFG_THR : Fld := ⟨.ic, 3, 0x0, 0x4, 1, 0, 4, .rw, 0⟩
-- IC_TTIME (R664, 14)
def IC_TTIME_TIME : Fld := ⟨.ic, 3, 0x4, 0x4, 1, 0, 14, .rw, 1⟩
-- IC_CLAIM (R664, 14)
def IC_CLAIM_VALID : Fld := ⟨.ic, 3, 0x8, 0x4, 1, 23, 1, .ro, 0⟩
def IC_CLAIM_PRI : Fld := ⟨.ic, 3, 0x8, 0x4, 1, 16, 4, .ro, 0⟩
def IC_CLAIM_SOURCE : Fld := ⟨.ic, 3, 0x8, 0x4, 1, 0, 10, .ro, 0⟩
-- IC_COMPLETE (R664, 14)
def IC_COMPLETE_SOURCE : Fld := ⟨.ic, 3, 0xc, 0x4, 1, 0, 10, .wo, 0⟩
-- IC_TSTAT (R664, 14)
def IC_TSTAT_DELIV : Fld := ⟨.ic, 3, 0x10, 0x4, 1, 23, 1, .ro, 0⟩
def IC_TSTAT_ARMED : Fld := ⟨.ic, 3, 0x10, 0x4, 1, 22, 1, .ro, 1⟩
def IC_TSTAT_WIN : Fld := ⟨.ic, 3, 0x10, 0x4, 1, 21, 1, .ro, 0⟩
def IC_TSTAT_WAKE : Fld := ⟨.ic, 3, 0x10, 0x4, 1, 20, 1, .ro, 0⟩
def IC_TSTAT_TGT : Fld := ⟨.ic, 3, 0x10, 0x4, 1, 4, 9, .ro, 0⟩
def IC_TSTAT_RPRI : Fld := ⟨.ic, 3, 0x10, 0x4, 1, 0, 4, .ro, 0⟩
-- IC_TACT (R664, 14)
def IC_TACT_ACT : Fld := ⟨.ic, 3, 0x14, 0x4, 1, 1, 15, .ro, 0⟩
-- IC_TMSG (R664, 14)
def IC_TMSG_COUNT : Fld := ⟨.ic, 3, 0x18, 0x4, 1, 0, 24, .ro, 0⟩
-- IC_TBADC (R664, 14)
def IC_TBADC_COUNT : Fld := ⟨.ic, 3, 0x1c, 0x4, 1, 0, 24, .w1c, 0⟩
-- IC_RDSEL (R664, 14)
def IC_RDSEL_TABLE : Fld := ⟨.ic, 4, 0x0, 0x4, 1, 22, 2, .rw, 0⟩
def IC_RDSEL_INDEX : Fld := ⟨.ic, 4, 0x0, 0x4, 1, 0, 10, .rw, 0⟩
-- IC_RDDATA (R664, 14)
def IC_RDDATA_DATA : Fld := ⟨.ic, 4, 0x4, 0x4, 1, 0, 24, .ro, 0⟩
-- FC_FSTAT (R699, 15)
def FC_FSTAT_EMPTY : Fld := ⟨.fc, 0, 0x0, 0x4, 1, 23, 1, .ro, 1⟩
def FC_FSTAT_FULL : Fld := ⟨.fc, 0, 0x0, 0x4, 1, 22, 1, .ro, 0⟩
def FC_FSTAT_UNDER : Fld := ⟨.fc, 0, 0x0, 0x4, 1, 21, 1, .w1c, 0⟩
def FC_FSTAT_COUNT : Fld := ⟨.fc, 0, 0x0, 0x4, 1, 0, 7, .ro, 0⟩
-- FC_REC0 (R699, 15)
def FC_REC0_VALID : Fld := ⟨.fc, 0, 0x4, 0x4, 1, 23, 1, .ro, 0⟩
def FC_REC0_SEVERE : Fld := ⟨.fc, 0, 0x4, 0x4, 1, 22, 1, .ro, 0⟩
def FC_REC0_CLASS : Fld := ⟨.fc, 0, 0x4, 0x4, 1, 21, 1, .ro, 0⟩
def FC_REC0_CONT : Fld := ⟨.fc, 0, 0x4, 0x4, 1, 20, 1, .ro, 0⟩
def FC_REC0_RANK : Fld := ⟨.fc, 0, 0x4, 0x4, 1, 15, 5, .ro, 0⟩
def FC_REC0_SOURCE : Fld := ⟨.fc, 0, 0x4, 0x4, 1, 0, 8, .ro, 0⟩
-- FC_REC1 (R699, 15)
def FC_REC1_GROUP : Fld := ⟨.fc, 0, 0x8, 0x4, 1, 20, 4, .ro, 0⟩
def FC_REC1_MERGE : Fld := ⟨.fc, 0, 0x8, 0x4, 1, 0, 16, .ro, 0⟩
-- FC_REC2 (R699, 15)
def FC_REC2_FIRST_L : Fld := ⟨.fc, 0, 0xc, 0x4, 1, 0, 24, .ro, 0⟩
-- FC_REC3 (R699, 15)
def FC_REC3_FIRST_M : Fld := ⟨.fc, 0, 0x10, 0x4, 1, 0, 24, .ro, 0⟩
-- FC_REC4 (R699, 15)
def FC_REC4_EPOCH : Fld := ⟨.fc, 0, 0x14, 0x4, 1, 16, 8, .ro, 0⟩
def FC_REC4_FIRST_H : Fld := ⟨.fc, 0, 0x14, 0x4, 1, 0, 16, .ro, 0⟩
-- FC_REC5 (R699, 15)
def FC_REC5_DETAIL : Fld := ⟨.fc, 0, 0x18, 0x4, 1, 0, 24, .ro, 0⟩
-- FC_REC6 (R699, 15)
def FC_REC6_EVCNT : Fld := ⟨.fc, 0, 0x1c, 0x4, 1, 16, 8, .ro, 0⟩
def FC_REC6_LASTSRC : Fld := ⟨.fc, 0, 0x1c, 0x4, 1, 0, 8, .ro, 0⟩
-- FC_FORCED (R699, 15)
def FC_FORCED_GROUPS : Fld := ⟨.fc, 0, 0x20, 0x4, 1, 0, 16, .ro, 0⟩
-- FC_RECLOST (R699, 15)
def FC_RECLOST_COUNT : Fld := ⟨.fc, 0, 0x24, 0x4, 1, 0, 24, .w1c, 0⟩
-- FC_EVENTS (R699, 15)
def FC_EVENTS_COUNT : Fld := ⟨.fc, 0, 0x28, 0x4, 1, 0, 24, .ro, 0⟩
-- FC_RAILS (R699, 15)
def FC_RAILS_COUNT : Fld := ⟨.fc, 0, 0x2c, 0x4, 1, 0, 24, .w1c, 0⟩
-- FC_CFG (R699, 15)
def FC_CFG_FOWNER : Fld := ⟨.fc, 0, 0x30, 0x4, 1, 0, 8, .rwi, 0⟩
-- FC_GSTAT (R699, 15)
def FC_GSTAT_FORCED : Fld := ⟨.fc, 1, 0x0, 0x20, 16, 23, 1, .ro, 0⟩
def FC_GSTAT_NETFAIL : Fld := ⟨.fc, 1, 0x0, 0x20, 16, 22, 1, .ro, 0⟩
def FC_GSTAT_CASC : Fld := ⟨.fc, 1, 0x0, 0x20, 16, 21, 1, .ro, 0⟩
def FC_GSTAT_SEVERE : Fld := ⟨.fc, 1, 0x0, 0x20, 16, 12, 9, .ro, 0⟩
def FC_GSTAT_MINOR : Fld := ⟨.fc, 1, 0x0, 0x20, 16, 3, 9, .ro, 0⟩
-- FC_GEVT (R699, 15)
def FC_GEVT_EVT : Fld := ⟨.fc, 1, 0x4, 0x20, 16, 0, 7, .w1c, 0⟩
-- FC_GIEN (R699, 15)
def FC_GIEN_IEN : Fld := ⟨.fc, 1, 0x8, 0x20, 16, 0, 7, .rw, 0⟩
-- FC_GCLR (R699, 15)
def FC_GCLR_ALL : Fld := ⟨.fc, 1, 0xc, 0x20, 16, 8, 1, .wo, 0⟩
def FC_GCLR_SOURCE : Fld := ⟨.fc, 1, 0xc, 0x20, 16, 0, 8, .wo, 0⟩
-- FC_CLRRES (R699, 15)
def FC_CLRRES_SEQ : Fld := ⟨.fc, 1, 0x10, 0x20, 16, 20, 4, .ro, 0⟩
def FC_CLRRES_CLEARED : Fld := ⟨.fc, 1, 0x10, 0x20, 16, 12, 8, .ro, 0⟩
def FC_CLRRES_REJECTED : Fld := ⟨.fc, 1, 0x10, 0x20, 16, 4, 8, .ro, 0⟩
def FC_CLRRES_RESULT : Fld := ⟨.fc, 1, 0x10, 0x20, 16, 0, 4, .ro, 0⟩
-- FC_GTEST (R699, 15)
def FC_GTEST_TEST : Fld := ⟨.fc, 1, 0x14, 0x20, 16, 0, 1, .rw, 0⟩
-- FC_GCLRREJ (R699, 15)
def FC_GCLRREJ_COUNT : Fld := ⟨.fc, 1, 0x18, 0x20, 16, 0, 24, .w1c, 0⟩
-- FC_GMERGE (R699, 15)
def FC_GMERGE_COUNT : Fld := ⟨.fc, 1, 0x1c, 0x20, 16, 0, 24, .ro, 0⟩
-- FC_SRC (R699, 15)
def FC_SRC_STATE : Fld := ⟨.fc, 2, 0x0, 0x4, 256, 22, 2, .ro, 0⟩
def FC_SRC_RSTATE : Fld := ⟨.fc, 2, 0x0, 0x4, 256, 20, 2, .ro, 0⟩
def FC_SRC_CAUSE : Fld := ⟨.fc, 2, 0x0, 0x4, 256, 19, 1, .ro, 0⟩
def FC_SRC_RAILEQ : Fld := ⟨.fc, 2, 0x0, 0x4, 256, 18, 1, .ro, 0⟩
def FC_SRC_LGROUP : Fld := ⟨.fc, 2, 0x0, 0x4, 256, 14, 4, .ro, 0⟩
def FC_SRC_EVCNT : Fld := ⟨.fc, 2, 0x0, 0x4, 256, 0, 8, .ro, 0⟩
-- FC_SCFG (R699, 15)
def FC_SCFG_EN : Fld := ⟨.fc, 3, 0x0, 0x4, 256, 23, 1, .rwi, 0⟩
def FC_SCFG_KIND : Fld := ⟨.fc, 3, 0x0, 0x4, 256, 22, 1, .ro, 0⟩
def FC_SCFG_FORCE : Fld := ⟨.fc, 3, 0x0, 0x4, 256, 21, 1, .rwi, 0⟩
def FC_SCFG_SEV : Fld := ⟨.fc, 3, 0x0, 0x4, 256, 18, 3, .rwi, 0⟩
def FC_SCFG_GROUP : Fld := ⟨.fc, 3, 0x0, 0x4, 256, 14, 4, .rwi, 0⟩
def FC_SCFG_THRESH : Fld := ⟨.fc, 3, 0x0, 0x4, 256, 0, 8, .rwi, 0⟩
-- FC_SWIN (R699, 15)
def FC_SWIN_WIN : Fld := ⟨.fc, 4, 0x0, 0x4, 256, 0, 16, .rwi, 0⟩
-- FC_GCFG (R699, 15)
def FC_GCFG_CASCADE : Fld := ⟨.fc, 5, 0x0, 0x4, 16, 8, 16, .rwi, 0⟩
def FC_GCFG_GOWNER : Fld := ⟨.fc, 5, 0x0, 0x4, 16, 0, 8, .rwi, 0⟩
-- TEN_PWR_CMD (R708, 16)
def TEN_PWR_CMD_CMD : Fld := ⟨.ten, 0, 0x78, 0x4, 1, 20, 4, .wo, 0⟩
def TEN_PWR_CMD_OBJECT : Fld := ⟨.ten, 0, 0x78, 0x4, 1, 0, 8, .wo, 0⟩
-- TEN_PWR_RES (R708, 16)
def TEN_PWR_RES_SEQ : Fld := ⟨.ten, 0, 0x7c, 0x4, 1, 16, 8, .ro, 0⟩
def TEN_PWR_RES_BUSY : Fld := ⟨.ten, 0, 0x7c, 0x4, 1, 15, 1, .ro, 0⟩
def TEN_PWR_RES_OVR : Fld := ⟨.ten, 0, 0x7c, 0x4, 1, 14, 1, .ro, 0⟩
def TEN_PWR_RES_REASON : Fld := ⟨.ten, 0, 0x7c, 0x4, 1, 8, 4, .ro, 0⟩
def TEN_PWR_RES_RESULT : Fld := ⟨.ten, 0, 0x7c, 0x4, 1, 0, 4, .ro, 0⟩
-- PM_STAT (R738, 16)
def PM_STAT_OP : Fld := ⟨.pm, 0, 0x0, 0x4, 1, 22, 2, .ro, 0⟩
def PM_STAT_GOV : Fld := ⟨.pm, 0, 0x0, 0x4, 1, 20, 2, .ro, 0⟩
def PM_STAT_SLEW : Fld := ⟨.pm, 0, 0x0, 0x4, 1, 19, 1, .ro, 0⟩
def PM_STAT_CAL : Fld := ⟨.pm, 0, 0x0, 0x4, 1, 18, 1, .ro, 0⟩
def PM_STAT_FSLEPT : Fld := ⟨.pm, 0, 0x0, 0x4, 1, 17, 1, .ro, 0⟩
def PM_STAT_VCORE : Fld := ⟨.pm, 0, 0x0, 0x4, 1, 0, 10, .ro, 0⟩
-- PM_OPLIM (R738, 16)
def PM_OPLIM_OPHI : Fld := ⟨.pm, 0, 0x4, 0x4, 1, 2, 2, .rwi, 0⟩
def PM_OPLIM_OPLO : Fld := ⟨.pm, 0, 0x4, 0x4, 1, 0, 2, .rwi, 0⟩
-- PM_CFG (R738, 16)
def PM_CFG_OPOWNER : Fld := ⟨.pm, 0, 0x8, 0x4, 1, 16, 8, .rwi, 0⟩
def PM_CFG_PWOWNER : Fld := ⟨.pm, 0, 0x8, 0x4, 1, 8, 8, .rwi, 0⟩
def PM_CFG_FWPROP : Fld := ⟨.pm, 0, 0x8, 0x4, 1, 2, 1, .rwi, 0⟩
def PM_CFG_FSOP : Fld := ⟨.pm, 0, 0x8, 0x4, 1, 1, 1, .rwi, 0⟩
def PM_CFG_FSALLOW : Fld := ⟨.pm, 0, 0x8, 0x4, 1, 0, 1, .rwi, 0⟩
-- PM_TJ (R738, 16)
def PM_TJ_TJ : Fld := ⟨.pm, 0, 0xc, 0x4, 1, 0, 16, .ro, 0⟩
-- PM_PACE_RAW (R738, 16)
def PM_PACE_RAW_PS : Fld := ⟨.pm, 0, 0x10, 0x4, 1, 0, 16, .ro, 0⟩
-- PM_PACE_EST (R738, 16)
def PM_PACE_EST_PS : Fld := ⟨.pm, 0, 0x14, 0x4, 1, 0, 16, .ro, 0⟩
-- PM_PACE_MAX (R738, 16)
def PM_PACE_MAX_PS : Fld := ⟨.pm, 0, 0x18, 0x4, 1, 0, 16, .w1c, 0⟩
-- PM_PACE_ALARM (R738, 16)
def PM_PACE_ALARM_PS : Fld := ⟨.pm, 0, 0x1c, 0x4, 1, 0, 16, .rwi, 0⟩
-- PM_CALF (R738, 16)
def PM_CALF_FACTOR : Fld := ⟨.pm, 0, 0x20, 0x4, 3, 0, 13, .ro, 0⟩
-- PM_DOMSW (R738, 16)
def PM_DOMSW_COUNT : Fld := ⟨.pm, 0, 0x40, 0x4, 1, 0, 24, .ro, 0⟩
-- PM_REFUSED (R738, 16)
def PM_REFUSED_COUNT : Fld := ⟨.pm, 0, 0x44, 0x4, 1, 0, 24, .w1c, 0⟩
-- PM_SLEWS (R738, 16)
def PM_SLEWS_COUNT : Fld := ⟨.pm, 0, 0x48, 0x4, 1, 0, 24, .ro, 0⟩
-- PM_WAKES (R738, 16)
def PM_WAKES_COUNT : Fld := ⟨.pm, 0, 0x4c, 0x4, 1, 0, 24, .ro, 0⟩
-- PM_WAKE_TMO (R738, 16)
def PM_WAKE_TMO_COUNT : Fld := ⟨.pm, 0, 0x50, 0x4, 1, 0, 24, .w1c, 0⟩
-- PM_ROUNDS (R738, 16)
def PM_ROUNDS_COUNT : Fld := ⟨.pm, 0, 0x54, 0x4, 1, 0, 24, .ro, 0⟩
-- PM_ROUND_FAIL (R738, 16)
def PM_ROUND_FAIL_COUNT : Fld := ⟨.pm, 0, 0x58, 0x4, 1, 0, 24, .w1c, 0⟩
-- PM_PACE_ALARMS (R738, 16)
def PM_PACE_ALARMS_COUNT : Fld := ⟨.pm, 0, 0x5c, 0x4, 1, 0, 24, .w1c, 0⟩
-- PM_DON (R738, 16)
def PM_DON_ON : Fld := ⟨.pm, 1, 0x0, 0x4, 6, 0, 24, .ro, 0⟩
-- PM_DSW (R738, 16)
def PM_DSW_SW : Fld := ⟨.pm, 1, 0x20, 0x4, 6, 0, 24, .rwi, 0⟩
-- PM_DLAST (R738, 16)
def PM_DLAST_DOMAIN : Fld := ⟨.pm, 1, 0x40, 0x4, 1, 16, 8, .ro, 0⟩
def PM_DLAST_TENANT : Fld := ⟨.pm, 1, 0x40, 0x4, 1, 8, 8, .ro, 0⟩
def PM_DLAST_REASON : Fld := ⟨.pm, 1, 0x40, 0x4, 1, 0, 4, .ro, 0⟩
-- PM_PSLP (R738, 16)
def PM_PSLP_ASTATE : Fld := ⟨.pm, 2, 0x0, 0x4, 64, 21, 3, .ro, 0⟩
def PM_PSLP_VETO : Fld := ⟨.pm, 2, 0x0, 0x4, 64, 20, 1, .ro, 0⟩
def PM_PSLP_FSL : Fld := ⟨.pm, 2, 0x0, 0x4, 64, 19, 1, .ro, 0⟩
def PM_PSLP_ROUND : Fld := ⟨.pm, 2, 0x0, 0x4, 64, 8, 8, .ro, 0⟩
def PM_PSLP_LASTRES : Fld := ⟨.pm, 2, 0x0, 0x4, 64, 4, 4, .ro, 0⟩
-- PM_ASEL (R738, 16)
def PM_ASEL_PORT : Fld := ⟨.pm, 3, 0x0, 0x4, 1, 0, 6, .rw, 0⟩
-- PM_ARD0 (R738, 16)
def PM_ARD0_ID_L : Fld := ⟨.pm, 3, 0x4, 0x4, 1, 0, 24, .ro, 0⟩
-- PM_ARD1 (R738, 16)
def PM_ARD1_WIN : Fld := ⟨.pm, 3, 0x8, 0x4, 1, 12, 10, .ro, 0⟩
def PM_ARD1_WGATE : Fld := ⟨.pm, 3, 0x8, 0x4, 1, 11, 1, .ro, 0⟩
def PM_ARD1_FSLEEP : Fld := ⟨.pm, 3, 0x8, 0x4, 1, 10, 1, .ro, 0⟩
def PM_ARD1_ANISE_EN : Fld := ⟨.pm, 3, 0x8, 0x4, 1, 9, 1, .ro, 0⟩
def PM_ARD1_IDE : Fld := ⟨.pm, 3, 0x8, 0x4, 1, 8, 1, .ro, 0⟩
def PM_ARD1_ID_H : Fld := ⟨.pm, 3, 0x8, 0x4, 1, 0, 5, .ro, 0⟩
-- PM_ARD2 (R738, 16)
def PM_ARD2_MEMB_L : Fld := ⟨.pm, 3, 0xc, 0x4, 1, 0, 24, .ro, 0⟩
-- PM_ARD3 (R738, 16)
def PM_ARD3_MEMB_H : Fld := ⟨.pm, 3, 0x10, 0x4, 1, 0, 8, .ro, 0⟩
-- PM_ARD4 (R738, 16)
def PM_ARD4_GOT_L : Fld := ⟨.pm, 3, 0x14, 0x4, 1, 0, 24, .ro, 0⟩
-- PM_ARD5 (R738, 16)
def PM_ARD5_REFUSER : Fld := ⟨.pm, 3, 0x18, 0x4, 1, 8, 8, .ro, 0⟩
def PM_ARD5_GOT_H : Fld := ⟨.pm, 3, 0x18, 0x4, 1, 0, 8, .ro, 0⟩
-- CU_STAT (R769, 17)
def CU_STAT_PHASE : Fld := ⟨.cu, 0, 0x0, 0x4, 1, 22, 2, .ro, 0⟩
def CU_STAT_ACTSLOT : Fld := ⟨.cu, 0, 0x0, 0x4, 1, 21, 1, .ro, 0⟩
def CU_STAT_BOOTSEL : Fld := ⟨.cu, 0, 0x0, 0x4, 1, 20, 1, .ro, 0⟩
def CU_STAT_FALLBACK : Fld := ⟨.cu, 0, 0x0, 0x4, 1, 19, 1, .ro, 0⟩
def CU_STAT_NOFALLBACK : Fld := ⟨.cu, 0, 0x0, 0x4, 1, 18, 1, .ro, 0⟩
def CU_STAT_SESSION : Fld := ⟨.cu, 0, 0x0, 0x4, 1, 17, 1, .ro, 0⟩
def CU_STAT_SESSTEN : Fld := ⟨.cu, 0, 0x0, 0x4, 1, 8, 8, .ro, 0⟩
-- CU_CMD (R769, 17)
def CU_CMD_CMD : Fld := ⟨.cu, 0, 0x4, 0x4, 1, 20, 4, .wo, 0⟩
def CU_CMD_FORCE : Fld := ⟨.cu, 0, 0x4, 0x4, 1, 0, 1, .wo, 0⟩
-- CU_RES (R769, 17)
def CU_RES_SEQ : Fld := ⟨.cu, 0, 0x8, 0x4, 1, 16, 8, .ro, 0⟩
def CU_RES_BUSY : Fld := ⟨.cu, 0, 0x8, 0x4, 1, 15, 1, .ro, 0⟩
def CU_RES_OVR : Fld := ⟨.cu, 0, 0x8, 0x4, 1, 14, 1, .ro, 0⟩
def CU_RES_REASON : Fld := ⟨.cu, 0, 0x8, 0x4, 1, 4, 8, .ro, 0⟩
def CU_RES_RESULT : Fld := ⟨.cu, 0, 0x8, 0x4, 1, 0, 4, .ro, 0⟩
-- CU_GAP (R769, 17)
def CU_GAP_US : Fld := ⟨.cu, 0, 0xc, 0x4, 1, 0, 24, .ro, 0⟩
-- CU_LAST0 (R769, 17)
def CU_LAST0_CODE : Fld := ⟨.cu, 0, 0x10, 0x4, 1, 16, 8, .ro, 0⟩
def CU_LAST0_SLOT : Fld := ⟨.cu, 0, 0x10, 0x4, 1, 15, 1, .ro, 0⟩
def CU_LAST0_OUTCOME : Fld := ⟨.cu, 0, 0x10, 0x4, 1, 13, 2, .ro, 0⟩
-- CU_LAST1 (R769, 17)
def CU_LAST1_SECTION : Fld := ⟨.cu, 0, 0x14, 0x4, 1, 16, 8, .ro, 0⟩
def CU_LAST1_ENTRY : Fld := ⟨.cu, 0, 0x14, 0x4, 1, 0, 15, .ro, 0⟩
-- CU_ACTS (R769, 17)
def CU_ACTS_COUNT : Fld := ⟨.cu, 0, 0x40, 0x4, 1, 0, 24, .ro, 0⟩
-- CU_HOLD_NORFX (R769, 17)
def CU_HOLD_NORFX_COUNT : Fld := ⟨.cu, 0, 0x44, 0x4, 1, 0, 24, .ro, 0⟩
-- CU_CHKFAIL (R769, 17)
def CU_CHKFAIL_COUNT : Fld := ⟨.cu, 0, 0x48, 0x4, 1, 0, 24, .w1c, 0⟩
-- CU_HOLD_LOST (R769, 17)
def CU_HOLD_LOST_COUNT : Fld := ⟨.cu, 0, 0x4c, 0x4, 1, 0, 24, .w1c, 0⟩
-- CU_GAPWR (R769, 17)
def CU_GAPWR_COUNT : Fld := ⟨.cu, 0, 0x50, 0x4, 1, 0, 24, .w1c, 0⟩
-- CU_XFER_REJ (R769, 17)
def CU_XFER_REJ_COUNT : Fld := ⟨.cu, 0, 0x54, 0x4, 1, 0, 24, .w1c, 0⟩
-- CU_CFG (R769, 17)
def CU_CFG_ACTOWNER : Fld := ⟨.cu, 0, 0x100, 0x4, 1, 0, 8, .rwi, 0⟩
-- CU_CAR0 (R769, 17)
def CU_CAR0_V1 : Fld := ⟨.cu, 0, 0x104, 0x4, 1, 17, 1, .rwi, 0⟩
def CU_CAR0_V0 : Fld := ⟨.cu, 0, 0x104, 0x4, 1, 16, 1, .rwi, 0⟩
def CU_CAR0_CAR1 : Fld := ⟨.cu, 0, 0x104, 0x4, 1, 8, 8, .rwi, 0⟩
def CU_CAR0_CAR0 : Fld := ⟨.cu, 0, 0x104, 0x4, 1, 0, 8, .rwi, 0⟩
-- CU_CAR1 (R769, 17)
def CU_CAR1_V3 : Fld := ⟨.cu, 0, 0x108, 0x4, 1, 17, 1, .rwi, 0⟩
def CU_CAR1_V2 : Fld := ⟨.cu, 0, 0x108, 0x4, 1, 16, 1, .rwi, 0⟩
def CU_CAR1_CAR3 : Fld := ⟨.cu, 0, 0x108, 0x4, 1, 8, 8, .rwi, 0⟩
def CU_CAR1_CAR2 : Fld := ⟨.cu, 0, 0x108, 0x4, 1, 0, 8, .rwi, 0⟩
-- SL_STAT (R769, 17)
def SL_STAT_STATE : Fld := ⟨.cu, 1, 0x0, 0x40, 2, 21, 3, .ro, 0⟩
def SL_STAT_KIND : Fld := ⟨.cu, 1, 0x0, 0x40, 2, 20, 1, .ro, 0⟩
def SL_STAT_BASEOK : Fld := ⟨.cu, 1, 0x0, 0x40, 2, 19, 1, .ro, 0⟩
def SL_STAT_ERASES : Fld := ⟨.cu, 1, 0x0, 0x40, 2, 0, 14, .ro, 0⟩
-- SL_LEN (R769, 17)
def SL_LEN_WORDS : Fld := ⟨.cu, 1, 0x4, 0x40, 2, 0, 23, .ro, 0⟩
-- SL_PROG (R769, 17)
def SL_PROG_WORDS : Fld := ⟨.cu, 1, 0x8, 0x40, 2, 0, 23, .ro, 0⟩
-- SL_VER0 (R769, 17)
def SL_VER0_MAJOR : Fld := ⟨.cu, 1, 0xc, 0x40, 2, 16, 8, .ro, 0⟩
def SL_VER0_MINOR : Fld := ⟨.cu, 1, 0xc, 0x40, 2, 8, 8, .ro, 0⟩
def SL_VER0_SCHEMA : Fld := ⟨.cu, 1, 0xc, 0x40, 2, 0, 8, .ro, 0⟩
-- SL_VER1 (R769, 17)
def SL_VER1_SCHEMA_MIN : Fld := ⟨.cu, 1, 0x10, 0x40, 2, 16, 8, .ro, 0⟩
def SL_VER1_SECVER : Fld := ⟨.cu, 1, 0x10, 0x40, 2, 8, 8, .ro, 0⟩
-- SL_HASH0 (R769, 17)
def SL_HASH0_HASH : Fld := ⟨.cu, 1, 0x14, 0x40, 2, 0, 24, .ro, 0⟩
-- SL_HASH1 (R769, 17)
def SL_HASH1_HASH : Fld := ⟨.cu, 1, 0x18, 0x40, 2, 0, 24, .ro, 0⟩
-- SL_HASH2 (R769, 17)
def SL_HASH2_HASH : Fld := ⟨.cu, 1, 0x1c, 0x40, 2, 0, 16, .ro, 0⟩
-- SL_CHK (R769, 17)
def SL_CHK_CODE : Fld := ⟨.cu, 1, 0x20, 0x40, 2, 16, 8, .ro, 0⟩
def SL_CHK_OUTCOME : Fld := ⟨.cu, 1, 0x20, 0x40, 2, 14, 2, .ro, 0⟩
-- CU_PULL_A0 (R769, 17)
def CU_PULL_A0_ADDR : Fld := ⟨.cu, 2, 0x0, 0x4, 1, 0, 24, .rw, 0⟩
-- CU_PULL_A1 (R769, 17)
def CU_PULL_A1_ADDR : Fld := ⟨.cu, 2, 0x4, 0x4, 1, 0, 24, .rw, 0⟩
-- CU_PULL_A2 (R769, 17)
def CU_PULL_A2_ADDR : Fld := ⟨.cu, 2, 0x8, 0x4, 1, 0, 16, .rw, 0⟩
-- CU_PULL_OFF (R769, 17)
def CU_PULL_OFF_WORD : Fld := ⟨.cu, 2, 0xc, 0x4, 1, 0, 23, .rw, 0⟩
-- CU_PULL_LEN (R769, 17)
def CU_PULL_LEN_WORDS : Fld := ⟨.cu, 2, 0x10, 0x4, 1, 0, 21, .rw, 0⟩
-- CU_PULL_GO (R769, 17)
def CU_PULL_GO_GO : Fld := ⟨.cu, 2, 0x14, 0x4, 1, 0, 1, .wo, 0⟩
-- CU_PULL_RES (R769, 17)
def CU_PULL_RES_SEQ : Fld := ⟨.cu, 2, 0x18, 0x4, 1, 16, 8, .ro, 0⟩
def CU_PULL_RES_BUSY : Fld := ⟨.cu, 2, 0x18, 0x4, 1, 15, 1, .ro, 0⟩
def CU_PULL_RES_RESULT : Fld := ⟨.cu, 2, 0x18, 0x4, 1, 0, 4, .ro, 0⟩
-- CU_ROLL (R769, 17)
def CU_ROLL_COUNTER : Fld := ⟨.cu, 3, 0x0, 0x4, 1, 0, 8, .ro, 0⟩
-- CU_ANCH (R769, 17)
def CU_ANCH_OWNER : Fld := ⟨.cu, 3, 0x4, 0x4, 1, 1, 1, .ro, 0⟩
def CU_ANCH_VENDOR : Fld := ⟨.cu, 3, 0x4, 0x4, 1, 0, 1, .ro, 0⟩
-- CU_OWNH0 (R769, 17)
def CU_OWNH0_HASH : Fld := ⟨.cu, 3, 0x8, 0x4, 1, 0, 24, .ro, 0⟩
-- CU_OWNH1 (R769, 17)
def CU_OWNH1_HASH : Fld := ⟨.cu, 3, 0xc, 0x4, 1, 0, 24, .ro, 0⟩
-- CU_RUN0 (R769, 17)
def CU_RUN0_MAJOR : Fld := ⟨.cu, 3, 0x10, 0x4, 1, 16, 8, .ro, 0⟩
def CU_RUN0_MINOR : Fld := ⟨.cu, 3, 0x10, 0x4, 1, 8, 8, .ro, 0⟩
def CU_RUN0_SCHEMA : Fld := ⟨.cu, 3, 0x10, 0x4, 1, 0, 8, .ro, 0⟩
-- CU_RUN1 (R769, 17)
def CU_RUN1_SCHEMA_MIN : Fld := ⟨.cu, 3, 0x14, 0x4, 1, 16, 8, .ro, 0⟩
def CU_RUN1_SECVER : Fld := ⟨.cu, 3, 0x14, 0x4, 1, 8, 8, .ro, 0⟩
-- CU_RUNH0 (R769, 17)
def CU_RUNH0_HASH : Fld := ⟨.cu, 3, 0x18, 0x4, 1, 0, 24, .ro, 0⟩
-- CU_RUNH1 (R769, 17)
def CU_RUNH1_HASH : Fld := ⟨.cu, 3, 0x1c, 0x4, 1, 0, 24, .ro, 0⟩
-- CU_RUNH2 (R769, 17)
def CU_RUNH2_HASH : Fld := ⟨.cu, 3, 0x20, 0x4, 1, 0, 16, .ro, 0⟩
-- CU_RSTC (R788, 18)
def CU_RSTC_CAUSE : Fld := ⟨.cu, 0, 0x18, 0x4, 1, 22, 2, .ro, 0⟩
def CU_RSTC_FCKEPT : Fld := ⟨.cu, 0, 0x18, 0x4, 1, 21, 1, .ro, 0⟩
def CU_RSTC_SEVKEPT : Fld := ⟨.cu, 0, 0x18, 0x4, 1, 20, 1, .ro, 0⟩
def CU_RSTC_RESETS : Fld := ⟨.cu, 0, 0x18, 0x4, 1, 0, 16, .ro, 0⟩
-- CU_BOOTT (R788, 18)
def CU_BOOTT_US : Fld := ⟨.cu, 0, 0x1c, 0x4, 1, 0, 24, .ro, 0⟩
-- FB_TXOK (R294, 05)
def FB_TXOK_COUNT : Fld := ⟨.fb, 3, 0x0, 0x4, 1, 0, 24, .ro, 0⟩
-- FB_RXOK (R294, 05)
def FB_RXOK_COUNT : Fld := ⟨.fb, 3, 0x4, 0x4, 1, 0, 24, .ro, 0⟩
-- FB_BITERR (R294, 05)
def FB_BITERR_COUNT : Fld := ⟨.fb, 3, 0x8, 0x4, 1, 0, 24, .w1c, 0⟩
-- FB_STUFFERR (R294, 05)
def FB_STUFFERR_COUNT : Fld := ⟨.fb, 3, 0xc, 0x4, 1, 0, 24, .w1c, 0⟩
-- FB_FORMERR (R294, 05)
def FB_FORMERR_COUNT : Fld := ⟨.fb, 3, 0x10, 0x4, 1, 0, 24, .w1c, 0⟩
-- FB_CRCERR (R294, 05)
def FB_CRCERR_COUNT : Fld := ⟨.fb, 3, 0x14, 0x4, 1, 0, 24, .w1c, 0⟩
-- FB_ACKERR (R294, 05)
def FB_ACKERR_COUNT : Fld := ⟨.fb, 3, 0x18, 0x4, 1, 0, 24, .w1c, 0⟩
-- FB_ARBLOST (R294, 05)
def FB_ARBLOST_COUNT : Fld := ⟨.fb, 3, 0x1c, 0x4, 1, 0, 24, .w1c, 0⟩
-- FB_OVLD (R294, 05)
def FB_OVLD_COUNT : Fld := ⟨.fb, 3, 0x20, 0x4, 1, 0, 24, .w1c, 0⟩
-- FB_BUSOFF_CNT (R294, 05)
def FB_BUSOFF_CNT_COUNT : Fld := ⟨.fb, 3, 0x24, 0x4, 1, 0, 24, .w1c, 0⟩
-- FB_AUTOCLR_CNT (R294, 05)
def FB_AUTOCLR_CNT_COUNT : Fld := ⟨.fb, 3, 0x28, 0x4, 1, 0, 24, .w1c, 0⟩
-- FB_PXE_CNT (R294, 05)
def FB_PXE_CNT_COUNT : Fld := ⟨.fb, 3, 0x2c, 0x4, 1, 0, 24, .w1c, 0⟩
-- FB_TDCSAT_CNT (R294, 05)
def FB_TDCSAT_CNT_COUNT : Fld := ⟨.fb, 3, 0x30, 0x4, 1, 0, 24, .w1c, 0⟩
-- FB_TXDOM_CNT (R294, 05)
def FB_TXDOM_CNT_COUNT : Fld := ⟨.fb, 3, 0x34, 0x4, 1, 0, 24, .w1c, 0⟩
-- PQ_INSERT (R341, 06)
def PQ_INSERT_COUNT : Fld := ⟨.pq, 0, 0x40, 0x4, 1, 0, 24, .ro, 0⟩
-- PQ_SENT (R341, 06)
def PQ_SENT_COUNT : Fld := ⟨.pq, 0, 0x44, 0x4, 1, 0, 24, .ro, 0⟩
-- PQ_LOST (R341, 06)
def PQ_LOST_COUNT : Fld := ⟨.pq, 0, 0x48, 0x4, 1, 0, 24, .w1c, 0⟩
-- PQ_ERR (R341, 06)
def PQ_ERR_COUNT : Fld := ⟨.pq, 0, 0x4c, 0x4, 1, 0, 24, .w1c, 0⟩
-- PQ_RETURNED (R341, 06)
def PQ_RETURNED_COUNT : Fld := ⟨.pq, 0, 0x50, 0x4, 1, 0, 24, .w1c, 0⟩
-- PQ_RSV_REFUSED (R341, 06)
def PQ_RSV_REFUSED_COUNT : Fld := ⟨.pq, 0, 0x54, 0x4, 1, 0, 24, .w1c, 0⟩
-- PQ_RSV_EXPIRED (R341, 06)
def PQ_RSV_EXPIRED_COUNT : Fld := ⟨.pq, 0, 0x58, 0x4, 1, 0, 24, .w1c, 0⟩
-- PQ_RESETS (R341, 06)
def PQ_RESETS_COUNT : Fld := ⟨.pq, 0, 0x5c, 0x4, 1, 0, 24, .w1c, 0⟩
-- RU_FIRE (R424, 08)
def RU_FIRE_COUNT : Fld := ⟨.ru, 0, 0x40, 0x800, 2, 0, 24, .ro, 0⟩
-- RU_NOFIRE (R424, 08)
def RU_NOFIRE_COUNT : Fld := ⟨.ru, 0, 0x44, 0x800, 2, 0, 24, .ro, 0⟩
-- RU_SUPPRESS (R424, 08)
def RU_SUPPRESS_COUNT : Fld := ⟨.ru, 0, 0x48, 0x800, 2, 0, 24, .w1c, 0⟩
-- RU_RPL_REFUSED (R424, 08)
def RU_RPL_REFUSED_COUNT : Fld := ⟨.ru, 0, 0x4c, 0x800, 2, 0, 24, .w1c, 0⟩
-- RU_DOUT_DROP (R424, 08)
def RU_DOUT_DROP_COUNT : Fld := ⟨.ru, 0, 0x50, 0x800, 2, 0, 24, .w1c, 0⟩
-- RU_RMBX_DROP (R424, 08)
def RU_RMBX_DROP_COUNT : Fld := ⟨.ru, 0, 0x54, 0x800, 2, 0, 24, .w1c, 0⟩
-- RU_GTH_REFUSED (R424, 08)
def RU_GTH_REFUSED_COUNT : Fld := ⟨.ru, 0, 0x58, 0x800, 2, 0, 24, .w1c, 0⟩
-- TU_SYNC_RX (R469, 09)
def TU_SYNC_RX_COUNT : Fld := ⟨.tu, 0, 0x64, 0x4, 1, 0, 24, .ro, 0⟩
-- TU_OUTLIER (R469, 09)
def TU_OUTLIER_COUNT : Fld := ⟨.tu, 0, 0x68, 0x4, 1, 0, 24, .w1c, 0⟩
-- TU_STEPS (R469, 09)
def TU_STEPS_COUNT : Fld := ⟨.tu, 0, 0x6c, 0x4, 1, 0, 24, .w1c, 0⟩
-- TU_LOSS (R469, 09)
def TU_LOSS_COUNT : Fld := ⟨.tu, 0, 0x70, 0x4, 1, 0, 24, .w1c, 0⟩
-- TU_PPS_SUPP (R469, 09)
def TU_PPS_SUPP_COUNT : Fld := ⟨.tu, 0, 0x74, 0x4, 1, 0, 24, .w1c, 0⟩
-- IC_MSG (R665, 14)
def IC_MSG_COUNT : Fld := ⟨.ic, 4, 0x40, 0x4, 1, 0, 24, .ro, 0⟩
-- IC_WAKES (R665, 14)
def IC_WAKES_COUNT : Fld := ⟨.ic, 4, 0x44, 0x4, 1, 0, 24, .w1c, 0⟩
-- IC_BADC (R665, 14)
def IC_BADC_COUNT : Fld := ⟨.ic, 4, 0x48, 0x4, 1, 0, 24, .w1c, 0⟩
-- IC_HELDMAX (R665, 14)
def IC_HELDMAX_COUNT : Fld := ⟨.ic, 4, 0x4c, 0x4, 1, 0, 24, .w1c, 0⟩
-- TU_ALARM0 (R468, 09)
def TU_ALARM0_NS_15_0 : Fld := ⟨.tu, 0, 0x30, 0x4, 1, 8, 16, .rw, 0⟩
def TU_ALARM0_FRAC : Fld := ⟨.tu, 0, 0x30, 0x4, 1, 0, 8, .rw, 0⟩
-- TU_ALARM1 (R468, 09)
def TU_ALARM1_NS_39_16 : Fld := ⟨.tu, 0, 0x34, 0x4, 1, 0, 24, .rw, 0⟩
-- TU_ALARM2 (R468, 09)
def TU_ALARM2_NS_63_40 : Fld := ⟨.tu, 0, 0x38, 0x4, 1, 0, 24, .rw, 0⟩
-- TU_SET0 (R468, 09)
def TU_SET0_NS_15_0 : Fld := ⟨.tu, 0, 0x40, 0x4, 1, 8, 16, .rw, 0⟩
def TU_SET0_FRAC : Fld := ⟨.tu, 0, 0x40, 0x4, 1, 0, 8, .rw, 0⟩
-- TU_SET1 (R468, 09)
def TU_SET1_NS_39_16 : Fld := ⟨.tu, 0, 0x44, 0x4, 1, 0, 24, .rw, 0⟩
-- TU_SET2 (R468, 09)
def TU_SET2_NS_63_40 : Fld := ⟨.tu, 0, 0x48, 0x4, 1, 0, 24, .rw, 0⟩
-- TU_CFG (R469, 09)
def TU_CFG_TMPRI : Fld := ⟨.tu, 1, 0x0, 0x4, 1, 16, 4, .rwi, 0⟩
def TU_CFG_HOSTSET : Fld := ⟨.tu, 1, 0x0, 0x4, 1, 15, 1, .rwi, 0⟩
def TU_CFG_PPSIN_EN : Fld := ⟨.tu, 1, 0x0, 0x4, 1, 14, 1, .rwi, 0⟩
def TU_CFG_PPS_GATE : Fld := ⟨.tu, 1, 0x0, 0x4, 1, 12, 2, .rwi, 0⟩
def TU_CFG_TOWNER : Fld := ⟨.tu, 1, 0x0, 0x4, 1, 0, 8, .rwi, 0⟩
-- TU_SYNC (R469, 09)
def TU_SYNC_OUTLIER : Fld := ⟨.tu, 1, 0x4, 0x4, 1, 8, 8, .rwi, 0⟩
def TU_SYNC_SYNCPER : Fld := ⟨.tu, 1, 0x4, 0x4, 1, 0, 7, .rwi, 0⟩
-- TU_LIMITS (R469, 09)
def TU_LIMITS_HOLDMAX : Fld := ⟨.tu, 1, 0x8, 0x4, 1, 8, 16, .rwi, 0⟩
def TU_LIMITS_SLEWMAX : Fld := ⟨.tu, 1, 0x8, 0x4, 1, 0, 8, .rwi, 0⟩
-- TU_PPS (R469, 09)
def TU_PPS_PPSW : Fld := ⟨.tu, 1, 0xc, 0x4, 1, 14, 10, .rwi, 0⟩
def TU_PPS_PPSIN_LINE : Fld := ⟨.tu, 1, 0xc, 0x4, 1, 0, 8, .rwi, 0⟩
-- TT_RD0 (R469, 09)
def TT_RD0_ROLE : Fld := ⟨.tu, 2, 0x4, 0x4, 1, 22, 2, .ro, 0⟩
def TT_RD0_SYNC_OK : Fld := ⟨.tu, 2, 0x4, 0x4, 1, 21, 1, .ro, 0⟩
def TT_RD0_ACTING : Fld := ⟨.tu, 2, 0x4, 0x4, 1, 20, 1, .ro, 0⟩
def TT_RD0_CC : Fld := ⟨.tu, 2, 0x4, 0x4, 1, 14, 6, .ro, 0⟩
def TT_RD0_CCMAX : Fld := ⟨.tu, 2, 0x4, 0x4, 1, 8, 6, .ro, 0⟩
def TT_RD0_RM_DLC : Fld := ⟨.tu, 2, 0x4, 0x4, 1, 4, 4, .ro, 0⟩
def TT_RD0_RM_IDE : Fld := ⟨.tu, 2, 0x4, 0x4, 1, 3, 1, .ro, 0⟩
-- TT_RD1 (R469, 09)
def TT_RD1_RM_ID_L : Fld := ⟨.tu, 2, 0x8, 0x4, 1, 0, 24, .ro, 0⟩
-- TT_RD2 (R469, 09)
def TT_RD2_RM_ID_H : Fld := ⟨.tu, 2, 0xc, 0x4, 1, 0, 5, .ro, 0⟩
-- TT_RD3 (R469, 09)
def TT_RD3_CYC_LEN : Fld := ⟨.tu, 2, 0x10, 0x4, 1, 0, 24, .ro, 0⟩
-- TT_RD4 (R469, 09)
def TT_RD4_ORIGIN : Fld := ⟨.tu, 2, 0x14, 0x4, 1, 0, 24, .ro, 0⟩
-- TT_RD5 (R469, 09)
def TT_RD5_RM_TIMEOUT : Fld := ⟨.tu, 2, 0x18, 0x4, 1, 0, 24, .ro, 0⟩
-- TT_RD6 (R469, 09)
def TT_RD6_MARK_NS_15_0 : Fld := ⟨.tu, 2, 0x1c, 0x4, 1, 8, 16, .ro, 0⟩
def TT_RD6_MARK_FRAC : Fld := ⟨.tu, 2, 0x1c, 0x4, 1, 0, 8, .ro, 0⟩
-- TT_RD7 (R469, 09)
def TT_RD7_MARK_NS_39_16 : Fld := ⟨.tu, 2, 0x20, 0x4, 1, 0, 24, .ro, 0⟩
-- TT_RD8 (R469, 09)
def TT_RD8_MARK_NS_63_40 : Fld := ⟨.tu, 2, 0x24, 0x4, 1, 0, 24, .ro, 0⟩
-- TT_RD9 (R469, 09)
def TT_RD9_MARK_EPOCH : Fld := ⟨.tu, 2, 0x28, 0x4, 1, 0, 8, .ro, 0⟩
-- TT_RD10 (R469, 09)
def TT_RD10_RM_COUNT : Fld := ⟨.tu, 2, 0x2c, 0x4, 1, 0, 24, .ro, 0⟩
-- TT_RD11 (R469, 09)
def TT_RD11_LATE : Fld := ⟨.tu, 2, 0x30, 0x4, 1, 16, 8, .ro, 0⟩
def TT_RD11_DEFER : Fld := ⟨.tu, 2, 0x30, 0x4, 1, 8, 8, .ro, 0⟩
def TT_RD11_SKIP : Fld := ⟨.tu, 2, 0x30, 0x4, 1, 0, 8, .ro, 0⟩
-- TT_RD12 (R469, 09)
def TT_RD12_TIMEOUT : Fld := ⟨.tu, 2, 0x34, 0x4, 1, 16, 8, .ro, 0⟩
-- CL_RX_COMMIT (R392, 07)
def CL_RX_COMMIT_COUNT : Fld := ⟨.cl, 1, 0x0, 0x20, 16, 0, 24, .ro, 0⟩
-- CL_RX_OWN (R392, 07)
def CL_RX_OWN_COUNT : Fld := ⟨.cl, 1, 0x4, 0x20, 16, 0, 24, .ro, 0⟩
-- CL_RX_NODEST (R392, 07)
def CL_RX_NODEST_COUNT : Fld := ⟨.cl, 1, 0x8, 0x20, 16, 0, 24, .ro, 0⟩
-- CL_RX_FANOUT (R392, 07)
def CL_RX_FANOUT_COUNT : Fld := ⟨.cl, 1, 0xc, 0x20, 16, 0, 24, .ro, 0⟩
-- CL_RX_CAPDROP (R392, 07)
def CL_RX_CAPDROP_COUNT : Fld := ⟨.cl, 1, 0x10, 0x20, 16, 0, 24, .ro, 0⟩
-- CL_RX_FAILREC (R392, 07)
def CL_RX_FAILREC_COUNT : Fld := ⟨.cl, 1, 0x14, 0x20, 16, 0, 24, .ro, 0⟩
-- CL_RX_MBX (R392, 07)
def CL_RX_MBX_COUNT : Fld := ⟨.cl, 1, 0x18, 0x20, 16, 0, 24, .ro, 0⟩
-- CL_RX_SEQ (R392, 07)
def CL_RX_SEQ_COUNT : Fld := ⟨.cl, 1, 0x1c, 0x20, 16, 0, 24, .ro, 0⟩

/-- Every register field of block `ten`. -/
def tenFields : List Fld :=
  [LV_COUNT_COUNT, TEN_ID_BEARING, TEN_ID_PF, TEN_ID_LINK, TEN_ID_TENANT, TEN_VIOL_COUNT,
   TEN_RINGS_COUNT, TEN_NOTE_NOTE, TEN_EQ_VALID, TEN_EQ_RING, TEN_EQLOST_COUNT,
   TEN_TXPOOL_POOL, TEN_SLOT_ALLOC_HELD, TEN_BADHDL_COUNT, TEN_RXINACT_COUNT, TEN_RXNORING_COUNT,
   TEN_SPTX_SEL_PORT, TEN_SPTX_SEL_ADDRV, TEN_SPTX_SEL_ADDR, TEN_SPTX_D_DATA, TEN_SPTX_GO_GO,
   TEN_SPTX_RES_SEQ, TEN_SPTX_RES_OVF, TEN_SPTX_RES_FILL, TEN_SPTX_RES_STATUS, TEN_SPTX_SENT_COUNT,
   TEN_SPTX_FAIL_COUNT, TEN_PWR_CMD_CMD, TEN_PWR_CMD_OBJECT, TEN_PWR_RES_SEQ, TEN_PWR_RES_BUSY,
   TEN_PWR_RES_OVR, TEN_PWR_RES_REASON, TEN_PWR_RES_RESULT]

/-- Every register field of block `lv`. -/
def lvFields : List Fld :=
  [LV_CTL_VALID, LV_CTL_DIR, LV_CTL_FMT, LV_CTL_KINDS,
   LV_CTL_PORT, LV_CTL_TENANT, LV_LO_LO_LOW, LV_HI_HI_LOW, LV_EXT_HI_TOP,
   LV_EXT_LO_TOP, LV_QUOTA_QUOTA, LV_SHARE_SHARE, LV_BURST_BURST, LV_USED_USED,
   LV_TOKENS_TOKENS]

/-- Every register field of block `pg`. -/
def pgFields : List Fld :=
  [PG_CTL_DISCARD, PG_STAT_PEND, PG_STAT_IMMED, PG_STAT_APPLY_SEQ]

/-- Every register field of block `rc`. -/
def rcFields : List Fld :=
  [RC_CTL_TYPE, RC_CTL_LOG2N, RC_CTL_HOME, RC_CTL_POLICY, RC_CTL_CQN,
   RC_BASE0_BASE_35_12, RC_BASE1_BASE_59_36, RC_BASE2_BASE_63_60, RC_CMD_DISARM, RC_CMD_ARM,
   RC_PROD_WRAP, RC_PROD_INDEX, RC_CONS_WRAP, RC_CONS_INDEX, RC_STAT_STATE,
   RC_STAT_NOTIFY, RC_STAT_STALL, RC_STAT_STALE, RC_STAT_CAUSE, RC_STAT_ERRCODE,
   RC_DROP_COUNT, RC_BADDB_COUNT, RC_OUTST_COUNT]

/-- Every register field of block `hp`. -/
def hpFields : List Fld :=
  [HP_DB_CNT_COUNT, HP_FETCH_CNT_COUNT, HP_RDERR_COUNT, HP_TAGS_OUTST, HP_SLOTS_FREE_FREE,
   HP_ADM_CNT_COUNT, HP_REFUSE_CNT_COUNT, HP_CANCEL_CNT_COUNT, HP_LASTREF_STATUS, HP_LASTREF_PORT,
   HP_LASTREF_TENANT, HP_REC_CNT_COUNT, HP_DEL_QUEUE_FRAMES, HP_HELD_RECORDS, HP_SER_CNT_COUNT,
   HP_DROP_CNT_COUNT, HP_LASTDROP_REASON, HP_LASTDROP_TENANT, HP_LASTDROP_RING]

/-- Every register field of block `fb`. -/
def fbFields : List Fld :=
  [FB_STAT_STATE, FB_STAT_PEND_EN, FB_STAT_BOMEM, FB_STAT_R_OWN, FB_STAT_R_MACE,
   FB_STAT_WARN, FB_STAT_TXING, FB_STAT_RXING, FB_STAT_IDLE, FB_STAT_XCVR,
   FB_STAT_BUSDOM, FB_ERRC_REC, FB_ERRC_TEC, FB_CMD_CLR_BO, FB_CMD_DISABLE,
   FB_CMD_ENABLE, FB_CMDRES_CMD_SEQ, FB_CMDRES_RESULT, FB_MODE_RESTRICT, FB_EVT_EVT,
   FB_IEN_IEN, FB_LASTERR_TYPE, FB_LASTERR_DIR, FB_LASTERR_PHASE, FB_LASTERR_BITPOS,
   FB_TDC_VALID, FB_TDC_SAT, FB_TDC_DELAY, FB_BOSUP_HELD, FB_BOSUP_WINCNT,
   FB_BOSUP_OCC, FB_CFG_ACKLIM, FB_CFG_TERM, FB_CFG_TDCE, FB_CFG_PEX,
   FB_CFG_BRSE, FB_CFG_FDOE, FB_CFG_START, FB_CFG_PRESENT, FB_NBTA_NSEG1,
   FB_NBTB_NSJW, FB_NBTB_NSEG2, FB_DBT_DSJW, FB_DBT_DSEG2, FB_DBT_DSEG1,
   FB_TDCO_TDCO, FB_WAKE_WAKE_EN, FB_WAKE_WFILT, FB_AR_EN, FB_AR_LIMIT,
   FB_AR_K, FB_OWNER_VALID, FB_OWNER_TENANT, FB_ROLE_GROUP, FB_ROLE_WITNESS,
   FB_ROLE_TTROLE, FB_CAP_OWN, FB_CAP_FAILED, FB_CAP_EN, FB_CAPRQ_VALID,
   FB_CAPRQ_RING, FB_TXOK_COUNT, FB_RXOK_COUNT, FB_BITERR_COUNT, FB_STUFFERR_COUNT,
   FB_FORMERR_COUNT, FB_CRCERR_COUNT, FB_ACKERR_COUNT, FB_ARBLOST_COUNT, FB_OVLD_COUNT,
   FB_BUSOFF_CNT_COUNT, FB_AUTOCLR_CNT_COUNT, FB_PXE_CNT_COUNT, FB_TDCSAT_CNT_COUNT, FB_TXDOM_CNT_COUNT]

/-- Every register field of block `pq`. -/
def pqFields : List Fld :=
  [PQ_STAT_UNDER, PQ_STAT_RESETTING, PQ_STAT_INFLIGHT, PQ_STAT_ACCEPT, PQ_STAT_COUNT,
   PQ_CFG_RLIFE, PQ_CFG_RSV, PQ_RSV_USED_USED, PQ_HEAD0_KEY_HI, PQ_HEAD1_EMPTY,
   PQ_HEAD1_REFLEX, PQ_HEAD1_DEVICE, PQ_HEAD1_TENANT, PQ_HEAD1_KEY_LO, PQ_WAIT_LEASES,
   PQ_INSERT_COUNT, PQ_SENT_COUNT, PQ_LOST_COUNT, PQ_ERR_COUNT, PQ_RETURNED_COUNT,
   PQ_RSV_REFUSED_COUNT, PQ_RSV_EXPIRED_COUNT, PQ_RESETS_COUNT]

/-- Every register field of block `cl`. -/
def clFields : List Fld :=
  [CL_HDR_CNT_COUNT, CL_COMMIT_CNT_COUNT, CL_ABANDON_CNT_COUNT, CL_USED_DSETS, CL_USED_TCAM,
   CL_RDSEL_TABLE, CL_RDSEL_SUB, CL_RDSEL_INDEX, CL_RDDATA_DATA, CL_RX_COMMIT_COUNT,
   CL_RX_OWN_COUNT, CL_RX_NODEST_COUNT, CL_RX_FANOUT_COUNT, CL_RX_CAPDROP_COUNT, CL_RX_FAILREC_COUNT,
   CL_RX_MBX_COUNT, CL_RX_SEQ_COUNT]

/-- Every register field of block `fs`. -/
def fsFields : List Fld :=
  [FS_HELD_HELD, FS_ECC_CORR_COUNT, FS_ECC_UNC_COUNT, FS_FREE_FREE, FS_LOW_LOW,
   FS_CTL_LOWCLR]

/-- Every register field of block `ru`. -/
def ruFields : List Fld :=
  [RU_STAT_ON, RU_STAT_RULES, RU_LAST_RULE, RU_LAST_PORT, RU_RDSEL_TABLE,
   RU_RDSEL_INDEX, RU_RDDATA_DATA, RU_FCNT_COUNT, RU_FIRE_COUNT, RU_NOFIRE_COUNT,
   RU_SUPPRESS_COUNT, RU_RPL_REFUSED_COUNT, RU_DOUT_DROP_COUNT, RU_RMBX_DROP_COUNT, RU_GTH_REFUSED_COUNT]

/-- Every register field of block `tu`. -/
def tuFields : List Fld :=
  [TU_NOW0_NS_15_0, TU_NOW0_FRAC, TU_NOW1_NS_39_16, TU_NOW2_NS_63_40, TU_STAT_STATE,
   TU_STAT_SLEW, TU_STAT_QUAL, TU_STAT_VALID, TU_STAT_MASTER, TU_STAT_SUPP_PEND,
   TU_STAT_PPSIN_OK, TU_EPOCH_EPOCH, TU_OFFSET_OFFSET, TU_FREQ_FREQ, TU_SLEW_REMAIN,
   TU_DISC_SECONDS, TU_HOLD_SECONDS, TU_EVT_EVT, TU_IEN_IEN, TU_ALCTL_ARMED,
   TU_ALCTL_LATE, TU_ALCTL_DISARM, TU_SETRES_SEQ, TU_SETRES_RESULT, TU_MASTER_NODE,
   TU_MASTER_HOPS, TU_MASTER_TMPRI, TU_MASTER_MSTATE, TU_MASTER_MVALID, TU_MASTER_RING,
   TU_LDLY_DELAY, TT_SEL_PORT, TT_CTL_CLR, TT_PSTAT_ROLE, TT_PSTAT_SYNC_OK,
   TT_PSTAT_ACTING, TT_PSTAT_CC, TU_SYNC_RX_COUNT, TU_OUTLIER_COUNT, TU_STEPS_COUNT,
   TU_LOSS_COUNT, TU_PPS_SUPP_COUNT, TU_ALARM0_NS_15_0, TU_ALARM0_FRAC, TU_ALARM1_NS_39_16,
   TU_ALARM2_NS_63_40, TU_SET0_NS_15_0, TU_SET0_FRAC, TU_SET1_NS_39_16, TU_SET2_NS_63_40,
   TU_CFG_TMPRI, TU_CFG_HOSTSET, TU_CFG_PPSIN_EN, TU_CFG_PPS_GATE, TU_CFG_TOWNER,
   TU_SYNC_OUTLIER, TU_SYNC_SYNCPER, TU_LIMITS_HOLDMAX, TU_LIMITS_SLEWMAX, TU_PPS_PPSW,
   TU_PPS_PPSIN_LINE, TT_RD0_ROLE, TT_RD0_SYNC_OK, TT_RD0_ACTING, TT_RD0_CC,
   TT_RD0_CCMAX, TT_RD0_RM_DLC, TT_RD0_RM_IDE, TT_RD1_RM_ID_L, TT_RD2_RM_ID_H,
   TT_RD3_CYC_LEN, TT_RD4_ORIGIN, TT_RD5_RM_TIMEOUT, TT_RD6_MARK_NS_15_0, TT_RD6_MARK_FRAC,
   TT_RD7_MARK_NS_39_16, TT_RD8_MARK_NS_63_40, TT_RD9_MARK_EPOCH, TT_RD10_RM_COUNT, TT_RD11_LATE,
   TT_RD11_DEFER, TT_RD11_SKIP, TT_RD12_TIMEOUT]

/-- Every register field of block `sp`. -/
def spFields : List Fld :=
  [SP_STAT_STATE, SP_STAT_PEND_EN, SP_STAT_TXING, SP_STAT_RXING, SP_STAT_XCVR,
   SP_STAT_TXQ, SP_CMD_DISABLE, SP_CMD_ENABLE, SP_CMDRES_CMD_SEQ, SP_CMDRES_RESULT,
   SP_BITLEN_BITLEN, SP_FRAME_IDLEGAP, SP_FRAME_TXGAP, SP_FRAME_STOP2, SP_FRAME_PARITY,
   SP_FRAME_DBITS, SP_EVT_EVT, SP_IEN_IEN, SP_CAP_EN, SP_CAP_RING,
   SP_CFG_BIAS, SP_CFG_TERM, SP_CFG_ADDRM, SP_CFG_DUPLEX, SP_CFG_START,
   SP_CFG_PRESENT, SP_OWNER_VALID, SP_OWNER_TENANT, SP_BLMIN_BITLEN, SP_BLMAX_BITLEN,
   SP_RXREC_COUNT, SP_TXMSG_COUNT, SP_PARERR_COUNT, SP_FRMERR_COUNT, SP_NOISE_COUNT,
   SP_BREAK_COUNT, SP_COLL_COUNT, SP_RXFANOUT_COUNT]

/-- Every register field of block `db`. -/
def dbFields : List Fld :=
  [DB_STAT_VF_OK, DB_STAT_MACE, DB_IN_LEVEL, DB_OUT_CMD, DB_OSET_LINES,
   DB_OCLR_LINES, DB_OPULSE_LINES, DB_PWIDTH_WIDTH, DB_FUNC0_FUNC, DB_FUNC1_FUNC,
   DB_EDGE_R_EDGE, DB_EDGE_F_EDGE, DB_REN_EN, DB_FEN_EN, DB_OC_OC,
   DB_EVT_EVT, DB_IEN_IEN, DB_EIEN_EIEN, DB_DEB_DEB, DB_CNT_COUNT,
   DB_CNTCLR_LINES, DB_CNTOVF_OVF, DB_TSF0_VALID, DB_TSF0_RISE, DB_TSF0_LINE,
   DB_TSF0_EPOCH, DB_TSF0_FRAC, DB_TSF_NS, DB_TSCNT_COUNT, DB_TSLOST_COUNT,
   DB_CMDDROP_COUNT, DB_CFG_TYPE, DB_CFG_GROUP, DB_CFG_PRESENT, DB_OWNER_TENANT,
   DB_PERMOUT_LINES, DB_PERMCNT_LINES, DB_PERMTS_LINES, DB_SAFE_SAFE, DB_GRANTV_VALID,
   DB_GRANT_TENANT]

/-- Every register field of block `rg`. -/
def rgFields : List Fld :=
  [RG_STAT_RSTATE_A, RG_STAT_RSTATE_B, RG_STAT_STOP, RG_STAT_DUP, RG_STAT_SLEEPING,
   RG_STAT_NODE, RG_EVT_EVT, RG_IEN_IEN, RG_MEPOCH_EPOCH, RG_MCOUNT_CNT_B,
   RG_MCOUNT_CNT_A, RG_MCOUNT_CNT, RG_MBM_MEMBER, RG_RCHA_REACH, RG_RCHB_REACH,
   RG_SLEEP_CMD_START, RG_SLEEP_RES_SEQ, RG_SLEEP_RES_REFUSER, RG_SLEEP_RES_REASON, RG_SLEEP_RES_RESULT,
   RG_TX_REQ_COUNT, RG_RX_REQ_COUNT, RG_REFUSED_IN_COUNT, RG_ABORTED_COUNT, RG_TIMEOUT_COUNT,
   RG_LATE_RSP_COUNT, RG_HOPLIM_COUNT, RG_NOROOM_COUNT, RG_CFG_RGOWNER, RG_CFG_GROUP,
   RG_CFG_ENB, RG_CFG_ENA, RG_CFG_NODE, RG_FABID_FABRIC_ID, RG_RTMO_RTMO,
   RG_RATE_A_RATE_REQ, RG_RATE_A_RATE_RSP, RG_RATE_B_RATE_REQ, RG_RATE_B_RATE_RSP, RG_NGRANT_COUNT,
   RG_GSEL_INDEX, RG_GDATA0_STENANT, RG_GDATA0_SNODE_HI, RG_GDATA0_SNODE_LO, RG_GDATA1_CLASS,
   RG_GDATA1_ORIGINS, RG_GDATA1_STANY, RG_GDATA1_OBJ_LO, RG_GDATA2_W, RG_GDATA2_R,
   RG_GDATA2_OBJ_HI, RG_CTX_GATHER, RG_CTX_REFLEX, RG_CTX_WINDOW, RR_GA0_GA_LO,
   RR_GA1_NODE, RR_CTL_GO, RR_CTL_NOTE, RR_CTL_COUNT, RR_CTL_OP,
   RR_DCMD_DOP, RR_DCMD_LINES, RR_PW_PWIDTH, RR_MW0_ID_LO, RR_MW1_LEN,
   RR_MW1_BRS, RR_MW1_FDF, RR_MW1_RTR, RR_MW1_IDE, RR_MW1_DLC,
   RR_MW1_ID_HI, RR_RES_BUSY, RR_RES_OVR, RR_RES_SEQ, RR_RES_REASON,
   RR_RES_STATUS, RR_RES1_DROPPED, RR_DATA_DATA]

/-- Every register field of block `rl`. -/
def rlFields : List Fld :=
  [RL_STAT_STATE, RL_STAT_WRAP, RL_STAT_LOCK, RL_STAT_HIBER, RL_STAT_RFAULT,
   RL_STAT_REMAIN, RL_CFG_TXEQ, RL_CFG_RETRY, RL_CMD_FORGET, RL_CMD_RETRAIN,
   RL_LASTLOSS_REASON, RL_NB_IDENT, RL_SEQ_TXNEXT, RL_SEQ_RXEXP, RL_BUF_CRED1,
   RL_BUF_CRED0, RL_BUF_RETRYBUF, RL_TXCELL_COUNT, RL_RXCELL_COUNT, RL_CRCERR_COUNT,
   RL_REPLAY_COUNT, RL_LOSSES_COUNT, RL_BADMSG_COUNT]

/-- Every register field of block `ge`. -/
def geFields : List Fld :=
  [GE_STAT_SLOTS, GE_STAT_QUEUED, GE_NGROUP_COUNT, GE_STARTS_COUNT, GE_RUNS_COUNT,
   GE_REFUSED_COUNT, GE_OVERRUN_COUNT, GE_PARTIAL_COUNT, GE_SAT_COUNT, GE_LATE_COUNT,
   GE_RECDROP_COUNT, GE_GSEL_GROUP, GE_GDATA_DATA]

/-- Every register field of block `gt`. -/
def gtFields : List Fld :=
  [GT_START_GROUP, GT_SRES_SEQ, GT_SRES_RESULT, GT_RSEL_GROUP, GT_R0_CSTAT,
   GT_R0_TRIG, GT_R0_SAT, GT_R0_LATE, GT_R0_VALID, GT_R0_INCL,
   GT_R1_FMASK, GT_R2_RESULT, GT_R3_RESULT, GT_R4_SEQ, GT_GSTAT_SATSTK,
   GT_GSTAT_STATE, GT_DONE_DONE]

/-- Every register field of block `pr`. -/
def prFields : List Fld :=
  [PR_STAT_STATE, PR_STAT_ACTING, PR_STAT_PL0_OK, PR_STAT_PL1_OK, PR_STAT_RING_OK,
   PR_STAT_MIRROR_OK, PR_STAT_ISOL, PR_STAT_SWAPPING, PR_EPOCH_EPOCH, PR_PEER_PSTATE,
   PR_PEER_PACTING, PR_PEER_AGE, PR_CMD_SWAP, PR_CMDRES_CMD_SEQ, PR_CMDRES_RESULT,
   PR_CLV0_OWN_ID, PR_CLV1_OWN_ID, PR_CLV2_PEER_ID, PR_CLV3_PEER_ID, PR_CLV3_OUTCOME,
   PR_EVT_EVT, PR_IEN_IEN, PR_MSEQ_MSEQ, PR_MLAG_LAG, PR_HBMISS_COUNT,
   PR_CONTESTS_COUNT, PR_FAILOVERS_COUNT, PR_SHADOW_COUNT, PR_OBSERVED_COUNT, PR_NOCQ_COUNT,
   PR_FOREIGN_COUNT, PR_RESYNC_COUNT, PR_CFG_PAIRED, PR_CFG_PREFER, PR_CFG_POWNER,
   PR_CFG_PNODE, PR_PSER0_SERIAL, PR_PSER1_SERIAL, PR_PSER2_SERIAL, PR_CLVPFX_PFX,
   PR_JOIN_JOIN_TMO]

/-- Every register field of block `pl`. -/
def plFields : List Fld :=
  [PL_STAT_STATE, PL_STAT_LOCK, PL_STAT_HIBER, PL_STAT_RFAULT, PL_CFG_TXEQ,
   PL_CMD_RETRAIN, PL_LASTLOSS_REASON, PL_NB_IDENT, PL_TXCELL_COUNT, PL_RXCELL_COUNT,
   PL_HBRX_COUNT, PL_CRCERR_COUNT, PL_REPLAY_COUNT, PL_LOSSES_COUNT]

/-- Every register field of block `ic`. -/
def icFields : List Fld :=
  [IC_SETB_SET, IC_CLRB_CLR, IC_SETN_SOURCE, IC_CLRN_SOURCE, IC_BADTGT_COUNT,
   IC_SRC_INPUT, IC_SRC_P, IC_SRC_STATE, IC_SRC_TARGET, IC_SRC_SENSE,
   IC_SRC_PRI, IC_TCFG_CNT, IC_TCFG_COAL, IC_TCFG_THR, IC_TTIME_TIME,
   IC_CLAIM_VALID, IC_CLAIM_PRI, IC_CLAIM_SOURCE, IC_COMPLETE_SOURCE, IC_TSTAT_DELIV,
   IC_TSTAT_ARMED, IC_TSTAT_WIN, IC_TSTAT_WAKE, IC_TSTAT_TGT, IC_TSTAT_RPRI,
   IC_TACT_ACT, IC_TMSG_COUNT, IC_TBADC_COUNT, IC_RDSEL_TABLE, IC_RDSEL_INDEX,
   IC_RDDATA_DATA, IC_MSG_COUNT, IC_WAKES_COUNT, IC_BADC_COUNT, IC_HELDMAX_COUNT]

/-- Every register field of block `fc`. -/
def fcFields : List Fld :=
  [FC_FSTAT_EMPTY, FC_FSTAT_FULL, FC_FSTAT_UNDER, FC_FSTAT_COUNT, FC_REC0_VALID,
   FC_REC0_SEVERE, FC_REC0_CLASS, FC_REC0_CONT, FC_REC0_RANK, FC_REC0_SOURCE,
   FC_REC1_GROUP, FC_REC1_MERGE, FC_REC2_FIRST_L, FC_REC3_FIRST_M, FC_REC4_EPOCH,
   FC_REC4_FIRST_H, FC_REC5_DETAIL, FC_REC6_EVCNT, FC_REC6_LASTSRC, FC_FORCED_GROUPS,
   FC_RECLOST_COUNT, FC_EVENTS_COUNT, FC_RAILS_COUNT, FC_CFG_FOWNER, FC_GSTAT_FORCED,
   FC_GSTAT_NETFAIL, FC_GSTAT_CASC, FC_GSTAT_SEVERE, FC_GSTAT_MINOR, FC_GEVT_EVT,
   FC_GIEN_IEN, FC_GCLR_ALL, FC_GCLR_SOURCE, FC_CLRRES_SEQ, FC_CLRRES_CLEARED,
   FC_CLRRES_REJECTED, FC_CLRRES_RESULT, FC_GTEST_TEST, FC_GCLRREJ_COUNT, FC_GMERGE_COUNT,
   FC_SRC_STATE, FC_SRC_RSTATE, FC_SRC_CAUSE, FC_SRC_RAILEQ, FC_SRC_LGROUP,
   FC_SRC_EVCNT, FC_SCFG_EN, FC_SCFG_KIND, FC_SCFG_FORCE, FC_SCFG_SEV,
   FC_SCFG_GROUP, FC_SCFG_THRESH, FC_SWIN_WIN, FC_GCFG_CASCADE, FC_GCFG_GOWNER]

/-- Every register field of block `pm`. -/
def pmFields : List Fld :=
  [PM_STAT_OP, PM_STAT_GOV, PM_STAT_SLEW, PM_STAT_CAL, PM_STAT_FSLEPT,
   PM_STAT_VCORE, PM_OPLIM_OPHI, PM_OPLIM_OPLO, PM_CFG_OPOWNER, PM_CFG_PWOWNER,
   PM_CFG_FWPROP, PM_CFG_FSOP, PM_CFG_FSALLOW, PM_TJ_TJ, PM_PACE_RAW_PS,
   PM_PACE_EST_PS, PM_PACE_MAX_PS, PM_PACE_ALARM_PS, PM_CALF_FACTOR, PM_DOMSW_COUNT,
   PM_REFUSED_COUNT, PM_SLEWS_COUNT, PM_WAKES_COUNT, PM_WAKE_TMO_COUNT, PM_ROUNDS_COUNT,
   PM_ROUND_FAIL_COUNT, PM_PACE_ALARMS_COUNT, PM_DON_ON, PM_DSW_SW, PM_DLAST_DOMAIN,
   PM_DLAST_TENANT, PM_DLAST_REASON, PM_PSLP_ASTATE, PM_PSLP_VETO, PM_PSLP_FSL,
   PM_PSLP_ROUND, PM_PSLP_LASTRES, PM_ASEL_PORT, PM_ARD0_ID_L, PM_ARD1_WIN,
   PM_ARD1_WGATE, PM_ARD1_FSLEEP, PM_ARD1_ANISE_EN, PM_ARD1_IDE, PM_ARD1_ID_H,
   PM_ARD2_MEMB_L, PM_ARD3_MEMB_H, PM_ARD4_GOT_L, PM_ARD5_REFUSER, PM_ARD5_GOT_H]

/-- Every register field of block `cu`. -/
def cuFields : List Fld :=
  [CU_STAT_PHASE, CU_STAT_ACTSLOT, CU_STAT_BOOTSEL, CU_STAT_FALLBACK, CU_STAT_NOFALLBACK,
   CU_STAT_SESSION, CU_STAT_SESSTEN, CU_CMD_CMD, CU_CMD_FORCE, CU_RES_SEQ,
   CU_RES_BUSY, CU_RES_OVR, CU_RES_REASON, CU_RES_RESULT, CU_GAP_US,
   CU_LAST0_CODE, CU_LAST0_SLOT, CU_LAST0_OUTCOME, CU_LAST1_SECTION, CU_LAST1_ENTRY,
   CU_ACTS_COUNT, CU_HOLD_NORFX_COUNT, CU_CHKFAIL_COUNT, CU_HOLD_LOST_COUNT, CU_GAPWR_COUNT,
   CU_XFER_REJ_COUNT, CU_CFG_ACTOWNER, CU_CAR0_V1, CU_CAR0_V0, CU_CAR0_CAR1,
   CU_CAR0_CAR0, CU_CAR1_V3, CU_CAR1_V2, CU_CAR1_CAR3, CU_CAR1_CAR2,
   SL_STAT_STATE, SL_STAT_KIND, SL_STAT_BASEOK, SL_STAT_ERASES, SL_LEN_WORDS,
   SL_PROG_WORDS, SL_VER0_MAJOR, SL_VER0_MINOR, SL_VER0_SCHEMA, SL_VER1_SCHEMA_MIN,
   SL_VER1_SECVER, SL_HASH0_HASH, SL_HASH1_HASH, SL_HASH2_HASH, SL_CHK_CODE,
   SL_CHK_OUTCOME, CU_PULL_A0_ADDR, CU_PULL_A1_ADDR, CU_PULL_A2_ADDR, CU_PULL_OFF_WORD,
   CU_PULL_LEN_WORDS, CU_PULL_GO_GO, CU_PULL_RES_SEQ, CU_PULL_RES_BUSY, CU_PULL_RES_RESULT,
   CU_ROLL_COUNTER, CU_ANCH_OWNER, CU_ANCH_VENDOR, CU_OWNH0_HASH, CU_OWNH1_HASH,
   CU_RUN0_MAJOR, CU_RUN0_MINOR, CU_RUN0_SCHEMA, CU_RUN1_SCHEMA_MIN, CU_RUN1_SECVER,
   CU_RUNH0_HASH, CU_RUNH1_HASH, CU_RUNH2_HASH, CU_RSTC_CAUSE, CU_RSTC_FCKEPT,
   CU_RSTC_SEVKEPT, CU_RSTC_RESETS, CU_BOOTT_US]

/-- The register fields of a block. -/
def Blk.fields : Blk → List Fld
  | .ten => tenFields
  | .lv => lvFields
  | .rc => rcFields
  | .hp => hpFields
  | .fb => fbFields
  | .pq => pqFields
  | .cl => clFields
  | .fs => fsFields
  | .ru => ruFields
  | .tu => tuFields
  | .sp => spFields
  | .db => dbFields
  | .rg => rgFields
  | .rl => rlFields
  | .ge => geFields
  | .gt => gtFields
  | .pr => prFields
  | .pl => plFields
  | .ic => icFields
  | .fc => fcFields
  | .pm => pmFields
  | .cu => cuFields
  | .pg => pgFields

end Sys2Proof.Machine
end

