-- ==== Sys2Proof/Machine/State.lean ====
section
/-! DEFINITION. The state of the device: plain data, holding everything the spec gives the machine. -/

namespace Sys2Proof.Machine

/-- Why a step stops. No row of the table is without an effect, so nothing raises one; kept so that a later repair can name one.
Safe: the model never answers it. -/
inductive Fault where
  /-- Raised by nothing; safe. -/
  | unreachable
  deriving DecidableEq, Repr

/-- Why a command has no meaning. -/
inductive Refusal where
  /-- Raised by an arm of `exec` whose command has no meaning yet; safe. -/
  | notModelled (mnemonic : String)
  deriving DecidableEq, Repr

/-- What a pair link cell carries (R605). -/
inductive PairItem where
  | hb (h : Heartbeat)
  | mirror (recs : List MirrorRec)
  | swap (mseq round : Nat)
  | handover (record : List Byte)
  | snap (recs : List MirrorRec) (last : Bool)
  deriving DecidableEq, Repr

/-- What leaves the device. -/
inductive Emission where
  /-- A posted write to host memory: link, function, address, bytes. -/
  | hostWrite (link fn addr : Nat) (bytes : List Byte)
  /-- A read request to host memory: link, function, address, length, tag. -/
  | hostRead (link fn addr len tag : Nat)
  /-- The completion of a read of the register window: slots, lowest address first. -/
  | readDone (f : Func) (off : Nat) (slots : List Nat)
  /-- An MSI-X message: link, function, vector, address, data. -/
  | msix (link fn vec addr data : Nat)
  /-- A frame begins on a field bus: port, frame, ESI recessive. -/
  | frameStart (p : Nat) (fr : Frame) (esiRecessive : Bool)
  /-- An error flag: port, active. -/
  | errorFlag (p : Nat) (active : Bool)
  /-- An overload flag. -/
  | overloadFlag (p : Nat)
  /-- The transceiver of a port is commanded to a mode (R256). -/
  | transceiver (p mode : Nat)
  /-- A cell leaves on a ring link port. -/
  | cell (port : Nat) (c : Cell)
  /-- A cell leaves on a pair link port (4 PL0, 5 PL1). -/
  | pairCell (port : Nat) (c : PairItem)
  /-- The output drivers of a discrete bank: lines on. -/
  | lines (bank on : Nat)
  /-- The driver of a serial port goes on or off (R477), and the characters it sends from an instant on, with their address marks (R472). -/
  | serialDriver (n : Nat) (on : Bool)
  | serialSend (n at_ : Nat) (chars : List (Nat × Bool))
  /-- The value that the data register selected by the test instruction shifts out, and the pins' boundary cells in control or not. -/
  | tapData (v : Nat)
  | tapPins (ir : Nat) (act : Bool)
  /-- A link message of R521: port, kind, bits 19:0. -/
  | linkMsg (port kind v : Nat)
  /-- A ring link port sends a fault sequence: Remote Fault (R547) or Local Fault (R529). -/
  | laneFault (port : Nat) (remote : Bool)
  deriving DecidableEq, Repr

/-! ### Host links, functions and descriptor rings (chapters 02 and 04) -/

/-- A completion to be written into its CQ (R192): the SQ, the descriptor's sequence number and position, the entry's fields, and the CQ to which
the SQ was bound when the completion became final. -/
structure Comp where
  ring : Nat
  seq : Nat
  pos : Nat
  opcode : Nat
  tag : Nat
  status : Nat
  result : Nat
  cq : Nat := 0
  deriving DecidableEq, Repr

/-- The fields of a receive record (R198), field bus or serial, but G and LOST, which its write decides.
`tail` is bytes 26-31, `head` bytes 0-5. -/
structure RxRec where
  head : List Byte
  port : Nat
  capture : Bool
  serial : Bool
  ns : Nat
  frac : Nat
  epoch : Nat
  seq : Nat
  tail : List Byte := []
  data : List Byte
  deriving DecidableEq, Repr

/-- A delivery of a record to an RQ: the ring, the lease charged (none for capture), the frame-store slot it holds, and the record. -/
structure Deliv where
  ring : Nat
  lease : Option Nat
  slot : Option Nat
  /-- A serial record slot of a serial port (R482, R486): port, capture. -/
  spSlot : Option Nat := none
  /-- The gather group whose result record this is (R592). -/
  gather : Option Nat := none
  rec_ : RxRec
  deriving DecidableEq, Repr

/-- A posted write at a delivery engine, not yet issued (R374, R791). -/
inductive Post where
  | cq (c : Comp)
  | rq (d : Deliv)
  /-- An EQ entry (R203): tenant, code, object, fabric time when raised, detail. -/
  | eq (tenant code object ns : Nat) (detail : List Byte)
  /-- An MSI-X message (R650); its table entry is read when it is issued (R652). -/
  | msix (fn vec : Nat)
  deriving DecidableEq, Repr

/-- What an outstanding host read is for (R224). -/
inductive ReadFor where
  /-- Descriptors of an SQ from composite index `start`. -/
  | desc (ring start n : Nat)
  /-- The payload or fill data of the descriptor with sequence number `seq`. -/
  | payload (ring seq : Nat)
  /-- Words of an image object (R749). -/
  | pull
  deriving DecidableEq, Repr

/-- An outstanding host read: its tag, purpose, instant of issue and whether its completion is discarded. -/
structure HostRead where
  tag : Nat
  what : ReadFor
  at_ : Nat
  dead : Bool := false
  deriving DecidableEq, Repr

/-- A payload slot (R215-R218): allocation count, holder and contents. -/
structure PaySlot where
  use : Nat := 0
  owner : Option Nat := none
  data : List Byte := []
  deriving DecidableEq, Repr

/-- A host link: H0 or H1. (DESIGN CHOICE, log entry 26.) -/
structure LinkSt where
  /-- The link is up and out of reset (R69, R783). -/
  up : Bool := false
  perst : Bool := true
  /-- Configuration requests are answered (after boot step 8, R784); before it the link answers CRS. -/
  cfg : Bool := false
  /-- ASPM L1 (R655). -/
  l1 : Bool := false
  /-- An exit from L1 is in progress. -/
  exiting : Bool := false
  /-- Posted-write credit left; `none` is infinite credit. -/
  credit : Option Nat := none
  waiting : List Post := []
  nextTag : Nat := 0
  reads : List HostRead := []
  /-- The descriptor ring served last by the fetch rotation (R226). -/
  rot : Nat := 0
  slots : Tbl PaySlot := []
  /-- Max Read Request Size in bytes, and the lower limit of the Completion Timeout range, in tq, as the host programs them (R224, R227). -/
  mrrs : Nat := 512
  ctoMin : Nat := 6400000
  /-- Max Payload Size in bytes, the Completion Timeout Value and NumVFs, as the host programs them in configuration space (R61, R66). -/
  mps : Nat := 128
  ctoVal : Nat := 0
  numVfs : Nat := 0
  /-- The host allows ASPM L1 on the link (Link Control, R655, R656). -/
  aspm : Bool := false
  deriving DecidableEq, Repr

/-- An entry of a function's MSI-X table (PCI Express Base 4.0): message address, data and the mask bit. -/
structure MsixEntry where
  addr : Nat := 0
  data : Nat := 0
  mask : Bool := true
  deriving DecidableEq, Repr

/-- A function of a link (R69): enabled, bus mastering, D-state, and the function reset in progress (R84). -/
structure FnSt where
  enabled : Bool := false
  busMaster : Bool := false
  d3hot : Bool := false
  resetting : Bool := false
  resetAt : Nat := 0
  /-- MSI-X Enable and Function Mask of the function, and its Pending Bit Array (R650, R657). -/
  msixEn : Bool := false
  fmask : Bool := false
  msix : Tbl MsixEntry := []
  /-- What the host has written to the address words of the function's BARs, by their offset in configuration space (R71). -/
  bars : Tbl Nat := []
  deriving DecidableEq, Repr

/-- A descriptor read whose completion may have arrived out of order (R189, R224). -/
structure DescRead where
  tag : Nat
  start : Nat
  n : Nat
  data : Option (List (List Byte)) := none
  deriving DecidableEq, Repr

/-- How far the payload of a fetched descriptor has come (R230). -/
inductive Payload where
  | ready (bytes : List Byte)
  /-- The host read is still to be issued. -/
  | wanted
  | reading
  /-- The host read failed: the descriptor completes PAYLOAD_DMA. -/
  | failed
  deriving DecidableEq, Repr

/-- A fetched descriptor not yet passed on (R189, R208). -/
structure Work where
  seq : Nat
  pos : Nat
  raw : List Byte
  payload : Payload
  deriving DecidableEq, Repr

/-- What the device holds of a descriptor ring beyond its control registers. -/
structure Ring where
  /-- SQ: the next position to request, and the reads outstanding in SQ order. -/
  fetchPos : Nat := 0
  reads : List DescRead := []
  /-- SQ: descriptors fetched and not yet passed on, in order. -/
  work : List Work := []
  /-- SQ: sequence numbers of descriptors fetched and not completed (RC_OUTST counts them). -/
  live : List Nat := []
  nextSeq : Nat := 0
  /-- RQ, EQ: entries dropped since the last one written (LOST). -/
  lost : Nat := 0
  /-- RQ: an RQ_DROP event has been queued since the last record written (R200). -/
  dropTold : Bool := false
  /-- RQ under HOLD: records waiting for room. -/
  held : List Post := []
  /-- The last valid doorbell of a warm-restart gap (R759). -/
  latched : Option Nat := none
  deriving DecidableEq, Repr

/-- A lease (R86), with the descriptor ring a receive lease delivers to (R351). -/
structure Lease where
  tenant : Nat
  port : Nat
  tx : Bool
  fmt : Nat
  kinds : Nat
  lo : Nat
  hi : Nat
  quota : Nat
  share : Nat := 0
  burst : Nat := 0
  ring : Nat := 0
  deriving DecidableEq, Repr

/-- The quota in use and the tokens of a lease (R89, R96); tokens in units of 1/4,096 tq as of interval tick `tokAt`. -/
structure LeaseRt where
  used : Nat := 0
  tokens : Nat := 0
  tokAt : Nat := 0
  deriving DecidableEq, Repr

/-- Image: a page of BAR0 open to a function (R75, R76). -/
structure PageOpen where
  link : Nat
  fn : Nat
  page : Nat
  write : Bool
  deriving DecidableEq, Repr

/-- The last event of one code and object queued to a tenant, on the interval count (R842). -/
structure EventStamp where
  tenant : Nat
  code : Nat
  object : Nat
  at_ : Nat
  deriving DecidableEq, Repr

/-- A part of a wide group latched for a function (R107), or written by it and not yet committed (R108). -/
structure FnPart where
  link : Nat
  fn : Nat
  key : Nat
  val : Nat
  deriving DecidableEq, Repr

/-- The host side: links, functions, descriptor rings. -/
structure HostSt where
  links : Tbl LinkSt := []
  fns : Tbl FnSt := []
  /-- Keyed by tenant x 256 + ring number. -/
  rings : Tbl Ring := []
  /-- Completions held per link while a tenant is inactive, oldest first (R69). -/
  heldComps : List Comp := []
  stamps : List EventStamp := []
  snaps : List FnPart := []
  holds : List FnPart := []
  deriving DecidableEq, Repr

/-! ### Field bus ports, queues and the receive path (chapters 05 to 07) -/

/-- The frame in progress on a port (R265). -/
structure CurFrame where
  /-- The port transmits it: the sequence value of the queue entry taken. -/
  own : Option Nat
  /-- Known from the header event on. -/
  hdr : Option Header := none
  /-- Fabric time in ns, fraction and epoch of the SOF sample point (R240). -/
  ns : Nat := 0
  frac : Nat := 0
  epoch : Nat := 0
  ivl : Nat := 0
  /-- The steering bank in force at the port's last boundary before the SOF (R353). -/
  bank : Nat := 0
  /-- The transit slot of the frame store (R345). -/
  slot : Option Nat := none
  /-- The port was ACTIVE at SOF: ESI is sent dominant (R236). -/
  esi : Bool := false
  /-- FB_CAP as it stood at the SOF (R390): EN, and twice OWN, and four times FAILED. -/
  cap : Nat := 0
  /-- The loop delay of this frame was taken as 63 tq (R247). -/
  sat : Bool := false
  deriving DecidableEq, Repr

/-- The sender of an own frame (R348). -/
inductive Sender where
  | foreign
  | tenant (t : Nat)
  | rule (r : Nat)
  | device (what : DevFrame)
  deriving DecidableEq, Repr

/-- A frame at its EOF event (R352): the port, what was received, the sender of an own frame, the SOF time and epoch,
the steering bank and the receive sequence number. -/
structure RxFrame where
  port : Nat
  hdr : Header
  data : List Byte
  sender : Sender
  ns : Nat
  frac : Nat
  epoch : Nat
  bank : Nat
  seq : Nat
  /-- FB_CAP as it stood at the SOF (R390). -/
  cap : Nat
  deriving DecidableEq, Repr

/-- The outcome of a transmission (R255); `ackOnly` marks an ACK error that left TEC unchanged. -/
inductive TxOutcome where
  | sent (ns frac epoch ivl : Nat)
  | lost
  | error (ackOnly : Bool)
  | busOff
  | abandoned
  deriving DecidableEq, Repr

/-- What the device holds of an FB port beyond its registers. -/
structure FbSt where
  cur : Option CurFrame := none
  /-- A frame is in progress until its delimiter, although its outcome is reported (R265, R266). -/
  tail : Bool := false
  /-- The port is the transmitter of the frame in progress, or of the frame whose error frame is in progress (R249). -/
  role : Bool := false
  /-- Suspend transmission follows at the next boundary (R253), and the instant at which it ends. -/
  suspend : Bool := false
  suspEnd : Nat := 0
  /-- The state the port acts as while it drains (R276), and the instant of the drain limit. -/
  drainFrom : Nat := 0
  drainAt : Nat := 0
  /-- Instants of the automatic clears, on the time base (R281, R283). -/
  autoClears : List Nat := []
  /-- Occurrences before the clear, and its cause (R289). -/
  occBefore : Nat := 0
  clearCause : Nat := 0
  /-- A transceiver mode change runs until this instant at the latest, and the mode it leads to (R258). -/
  xcvrBy : Option Nat := none
  xcvrTo : Nat := 0
  /-- The entry taken, by sequence value and mirror mark, whose outcome is not yet reported (R255, R348). -/
  taken : Option (Nat × Bool) := none
  /-- The bit engine still waits for 11 recessive bits after an error or a cut in restricted operation, or a protocol exception (R234, R267). -/
  reint : Bool := false
  /-- Mace forces restricted operation; its release waits for the boundary (R266). -/
  maceForce : Bool := false
  maceRelease : Bool := false
  /-- PRESENT became 0 by image activation: ABSENT when DISABLED is reached (R273). -/
  leaving : Bool := false
  /-- The termination switch, and its arms disconnected by current (R264, R821). -/
  term : Bool := false
  armOff : List Nat := []
  /-- The driver is held recessive by temperature (R822) or by the dominant time-out (R259). -/
  hot : Bool := false
  txdomHold : Bool := false
  /-- A new image's RWI values wait for the boundary (R292), and the steering bank in force (R353). -/
  rwiPend : Bool := false
  bank : Nat := 0
  rxSeq : Nat := 0
  /-- Tenant and mirror entries are not presented: until the boundary after a promotion (R610), or stopped by a swap (R626). -/
  txHold : Bool := false
  /-- Frames held during a warm-restart gap, in EOF order, those lost beyond 64, and an outcome held (R759, R762). -/
  heldEof : List RxFrame := []
  heldLost : Nat := 0
  heldOut : Option TxOutcome := none
  /-- The port stopped accepting during the gap: the status with which its queue returns every entry at the gap's end (R321, R759). -/
  gapReturn : Option Nat := none
  deriving DecidableEq, Repr

/-- Who a queue entry comes from (R311): a tenant's lease, a device lease, a reflex rule, or (on a holding unit) the partner's mirror. -/
inductive EntrySrc where
  | tenant (lease : Nat)
  | device (lease : Nat) (what : DevFrame)
  | reflex (rule : Nat)
  deriving DecidableEq, Repr

/-- A queue entry (R311). -/
structure QEntry where
  key : Nat
  seq : Nat
  cost : Nat
  src : EntrySrc
  frame : Frame
  /-- Tenant entries: SQ (tenant x 256 + number), home link, descriptor position and sequence, TAG, NOCOMP. -/
  ring : Nat := 0
  link : Nat := 0
  pos : Nat := 0
  wseq : Nat := 0
  tag : Nat := 0
  nocomp : Bool := false
  /-- Consecutive ACK errors without TEC change (R320). -/
  acks : Nat := 0
  /-- Marked for removal on LOST or ERROR, with the status it then takes (R332, R334). -/
  mark : Option Nat := none
  /-- A function reset took its tenant: no completion, no retry (R82). -/
  orphan : Bool := false
  /-- A reply whose lifetime passed in flight (R328). -/
  expired : Bool := false
  inflight : Bool := false
  born : Nat := 0
  /-- On a holding unit: an entry of the partner's mirror, eligible after promotion (R610, R613). -/
  mirror : Bool := false
  /-- On a holding unit: the SOF time of the frame seen on the port while the partner had the entry in flight (R618). -/
  seen : Option Nat := none
  deriving DecidableEq, Repr

/-- A priority queue (R311, R334). -/
structure PqSt where
  entries : List QEntry := []
  nextSeq : Nat := 0
  lastKey : Nat := 0
  /-- The two copies of the head, tail and free-list pointers. -/
  ptrA : List Nat := [0, 0, 0]
  ptrB : List Nat := [0, 0, 0]
  deriving DecidableEq, Repr

/-- A frame-store slot in use (R366): the deliveries pending, posted or set aside under HOLD that hold it, and whether it is the transit slot of
a frame in progress (R345). -/
structure StoredFrame where
  holders : Nat := 0
  transit : Bool := false
  deriving DecidableEq, Repr

/-- A frame or serial record at the input of a delivery engine (R371): its deliveries on that link, in the order in which they are written. -/
structure DelFrame where
  slot : Option Nat
  delivs : List Deliv
  deriving DecidableEq, Repr

/-- A mailbox buffer (R378). -/
structure MbBuf where
  valid : Bool := false
  upd : Nat := 0
  id : Nat := 0
  port : Nat := 0
  dlc : Nat := 0
  flags : Nat := 0
  epoch : Nat := 0
  ns : Nat := 0
  frac : Nat := 0
  data : List Byte := []
  deriving DecidableEq, Repr

/-- An open read sequence (R379, R382): the function that opened it, the instant and the latched buffer. -/
structure MbSeq where
  link : Nat
  fn : Nat
  at_ : Nat
  buf : MbBuf
  deriving DecidableEq, Repr

/-- A mailbox with its shadow (R377). -/
structure Mailbox where
  cur : MbBuf := {}
  shadow : Option MbBuf := none
  upd : Nat := 0
  open_ : Option MbSeq := none
  autoPrev : Bool := false
  deriving DecidableEq, Repr

/-- Image: a destination of a destination set (R351), with its number. -/
structure Dest where
  num : Nat := 0
  tenant : Nat
  ring : Nat
  kinds : Nat
  lease : Nat
  deriving DecidableEq, Repr

/-- Image: a destination set with its XCOUNT. -/
structure DestSet where
  dests : List Dest := []
  xcount : Nat := 0
  deriving DecidableEq, Repr

/-- Image: a steering result, a destination set and a mailbox (R350). -/
structure Steer where
  dset : Nat := 0
  mbx : Option Nat := none
  deriving DecidableEq, Repr

/-- Image: a ternary entry (R350), with its index in its group. -/
structure Ternary where
  index : Nat := 0
  valId : Nat
  valPort : Nat
  maskId : Nat
  maskPort : Nat
  steer : Steer
  deriving DecidableEq, Repr

/-- Image: the steering tables of one bank (R349-R353), keyed as port x 2,048 + identifier, group, lane x 4,096 + set; the reflex rules
with their 24 words, in ascending number, and the tenants of the latches, which have two banks likewise (R394, R420). -/
structure SteerBank where
  base : Tbl Steer := []
  ternary : Tbl (List Ternary) := []
  sets : Tbl DestSet := []
  rules : List (Nat × List Nat) := []
  latches : List (Nat × Nat) := []
  deriving DecidableEq, Repr, Inhabited

/-- The receive side: frame store, delivery engine queues, mailboxes, steering banks. -/
structure RxSt where
  /-- The key of the bank permutation, drawn afresh at each reset (R368). -/
  fsKey : Nat := 0
  slots : Tbl StoredFrame := []
  /-- Per link, the frames waiting at the delivery engine, oldest first (R371). -/
  deq : Tbl (List DelFrame) := []
  /-- Per port, capture records not yet issued (R364). -/
  capHeld : Tbl Nat := []
  mboxes : Tbl Mailbox := []
  bank0 : SteerBank := {}
  bank1 : SteerBank := {}
  /-- The bank a new image was loaded into last, and the leases that the destinations of the other bank name (R353). -/
  newBank : Nat := 0
  oldLeases : List Lease := []
  deriving DecidableEq, Repr

/-! ### The reflex unit (chapter 08) -/

/-- A latch of 8 bytes (R414, R415): its value before the stores listed, and the stores whose trigger ended within 1 µs, oldest first:
the instant of the trigger's EOF event, its frame assembler and the bytes stored. -/
structure LatchSt where
  base : List Byte := [0, 0, 0, 0, 0, 0, 0, 0]
  recent : List (Nat × Nat × List Byte) := []
  deriving DecidableEq, Repr

/-- The reflex unit beyond its registers: latches 256 h + n, and the EOF instant of each rule's last firing plus 1 (0 never; R401). -/
structure ReflexSt where
  latches : Tbl LatchSt := []
  fired : Tbl Nat := []
  deriving DecidableEq, Repr

/-! ### Time (chapter 09) -/

/-- The SYNC stream heard on a ring (R444): master node, hop count, and the interval count when last heard. -/
structure SyncHeard where
  node : Nat := 0
  hops : Nat := 0
  at_ : Nat := 0
  deriving DecidableEq, Repr

/-- A point from which both counts run on at one rate (R427, R452): the instant, the counts, the remaining slew, FREQ, SLEWMAX and the epoch. -/
structure TimeMark where
  at_ : Nat
  fab : Nat
  ivl : Nat
  rem : Int
  freq : Int
  slewMax : Nat
  epoch : Nat
  deriving DecidableEq, Repr

/-- The time unit beyond its registers. Fabric time and the interval count are in units of 2^-32 ns (R426-R429). -/
structure TimeSt where
  fab : Nat := 0
  ivl : Nat := 0
  /-- The model instant at which the time base count was 0, and the remaining slew, positive where fabric time is still to advance. -/
  tb0 : Nat := 0
  slewRem : Int := 0
  /-- Interval counts at which LOCKED and HOLDOVER were entered (R433), and of the last accepted SYNC; its SYNC period (R446). -/
  lockedAt : Nat := 0
  holdAt : Nat := 0
  syncAt : Nat := 0
  syncPer : Nat := 0
  /-- FREQ during the present LOCKED: interval count at which each value was taken (R435). -/
  freqs : List (Nat × Int) := []
  /-- The offsets accepted since device reset, in 2^-8 ns, each with its interval count, the newest first (R447); whether a reference was (R471). -/
  offs : List (Nat × Int) := []
  accepted : Bool := false
  /-- Consecutive SYNCs discarded (R445), and consecutive smaller hop counts on the other ring (R444). -/
  outliers : Nat := 0
  smaller : Nat := 0
  heardA : SyncHeard := {}
  heardB : SyncHeard := {}
  /-- The instant since which no SYNC of a better master was accepted (R439), and the sequence number sent last. -/
  betterAt : Nat := 0
  seq : Nat := 0
  /-- The interval count of the last accepted PPSIN edge, and how many were accepted in a row (R448). -/
  ppsEdge : Option Nat := none
  ppsRun : Nat := 0
  /-- PPS lines (0-191): fabric seconds looked at, the interval count at which a pulse ends, the second suppressed last (R455-R458). -/
  ppsSec : Tbl Nat := []
  ppsOff : Tbl Nat := []
  suppSec : Option Nat := none
  /-- Ring link ports: t1 of the delay exchange that runs, and the last 16 delays, in 2^-8 ns (R443). -/
  delayT1 : Tbl (Option Nat) := []
  delays : Tbl (List Nat) := []
  /-- The points at which fabric time left its straight course, newest first: a step, a new rate, the begin of a slew (R428, R452). -/
  marks : List TimeMark := []
  deriving DecidableEq, Repr

/-- A port with an ISO 11898-4 role beyond its registers (R460-R464): the last count seen, the interval count at the last mark,
and the fabric time in ns up to which cycle starts have been looked at. -/
structure TtSt where
  last : Option Nat := none
  markAt : Nat := 0
  seenNs : Nat := 0
  deriving DecidableEq, Repr
/-! ### Serial ports and discrete banks (chapter 10) -/

/-- A committed serial message (R489-R492): its tenant, transmit lease, the SEQ of its commit, the address character and the data characters. -/
structure SpMsg where
  tenant : Nat
  lease : Nat
  seq : Nat
  addr : Option Nat
  chars : List Byte
  deriving DecidableEq, Repr

/-- The message in progress: the instant at which its first start bit may begin, and the characters read back. -/
structure SpSend where
  msg : SpMsg
  at_ : Nat
  echoed : Nat
  deriving DecidableEq, Repr

/-- An open record (R480, R481): address, continuation, start of its first character (fabric time and interval count), the interval
count at its last stop bit, ERR, ERRPOS and data. -/
structure SpRec where
  addr : Option Nat
  cont : Bool
  ns : Nat
  frac : Nat
  epoch : Nat
  ivl0 : Nat
  ivl1 : Nat
  err : Nat := 0
  errPos : Option Nat := none
  data : List Byte := []
  deriving DecidableEq, Repr

/-- What the device holds of a serial port beyond its registers. -/
structure SpSt where
  /-- Record slots in use, for leases and for capture (R483). -/
  recHeld : Nat := 0
  capHeld : Nat := 0
  rec_ : Option SpRec := none
  /-- After a FULL close the next record continues with this address (R480). -/
  carry : Option (Option Nat) := none
  /-- The record count (R481). -/
  seq : Nat := 0
  msgs : List SpMsg := []
  cur : Option SpSend := none
  /-- Instants of the end of the last own message, and of the last character on the line (R477, R478). -/
  txEnd : Nat := 0
  lineEnd : Nat := 0
  /-- The receiver accepts start bits; since when it waits for 10 idle bit times (R495). -/
  rxReady : Bool := false
  rxFrom : Nat := 0
  /-- TERM and BIAS as they are switched; the new image's values wait for the port's boundary (R479). -/
  term : Bool := false
  bias : Bool := false
  rwiPend : Bool := false
  /-- PRESENT became 0 by image activation: ABSENT when DISABLED is reached (R495). -/
  leaving : Bool := false
  /-- Records closed during a warm-restart gap (R759). -/
  held : List RxRec := []
  deriving DecidableEq, Repr

/-- Where a discrete command comes from (R409, R501, R533): a tenant's write, a reflex rule, or a DCMD request with the ring it came by
(none on the local path), of whose lines no grant covers `denied`. -/
inductive DbFrom where
  | host (tenant : Nat)
  | rule (rule tenant : Nat)
  | remote (c : Cell) (via : Option Nat) (denied : Nat)
  deriving DecidableEq, Repr

/-- A discrete command synchronized into a bank and not yet applied: 0 SET, 1 CLEAR, 2 PULSE, its lines and pulse width in µs. -/
structure DbCmd where
  op : Nat
  lines : Nat
  width : Nat
  src : DbFrom
  /-- The instant at which it reached the bank, and a firing's turn there: half, then frame assembler (R422). -/
  at_ : Nat
  turn : Nat
  deriving DecidableEq, Repr

/-- A timestamp FIFO entry (R504). -/
structure TsEntry where
  rise : Bool
  line : Nat
  ns : Nat
  frac : Nat
  epoch : Nat
  deriving DecidableEq, Repr

/-- A debounce run of a line: how many consecutive ticks differed, and the time of the first (R500). -/
structure DebRun where
  count : Nat := 0
  ns : Nat := 0
  frac : Nat := 0
  epoch : Nat := 0
  deriving DecidableEq, Repr

/-- A discrete bank beyond its registers. -/
structure DbSt where
  cmds : List DbCmd := []
  /-- Pending pulse ends: line, instant. -/
  ends : List (Nat × Nat) := []
  /-- Lines in the break interval of a function switch, with the instant at which they start (R506). -/
  breaks : List (Nat × Nat) := []
  /-- Lines whose input detector takes its next sample as its reference. -/
  refDue : Nat := 0
  runs : Tbl DebRun := []
  fifo : List TsEntry := []
  /-- Lines driven on at the pins; the outputs follow the commanded state (the unit acts, R610, R611). -/
  drive : Nat := 0
  driveOn : Bool := false
  /-- DB_OC cleared, to act at the next tick (R502); PPS lines that are on, and those that wait for a second boundary (R507). -/
  ocWait : Nat := 0
  pps : Nat := 0
  ppsWait : Nat := 0
  /-- A force ends at the next tick (R678). -/
  lift : Bool := false
  /-- A new image's functions and debounce times wait for the next tick (R12, R763). -/
  imgPend : Bool := false
  /-- The handover record was refused: at the next tick every line follows R506 (R763, R765). -/
  anew : Bool := false
  deriving DecidableEq, Repr
/-! ### The ring and the link ports (chapter 11, R604) -/

/-- A cell in a retry buffer (R546): the ring cell or the pair link cell, its LSEQ, how often it was sent, and when last. -/
structure HeldCell where
  lseq : Nat
  cell : Option Cell
  pair : Option PairItem
  sends : Nat
  at_ : Nat
  deriving DecidableEq, Repr

/-- A link port: 0 RA-E, 1 RA-W, 2 RB-E, 3 RB-W, 4 PL0, 5 PL1. -/
structure LinkPort where
  txNext : Nat := 0
  rxExp : Nat := 0
  cred0 : Nat := 0
  cred1 : Nat := 0
  buf : List HeldCell := []
  /-- A NAK is outstanding since this instant (R546). -/
  nakAt : Option Nat := none
  lastMsg : Nat := 0
  /-- IDENT words received since the state was entered, and the identity held from before a loss (R549, R550). -/
  ident : Tbl (Option Nat) := []
  heldId : List Nat := []
  /-- The end of the retry timer (R548). -/
  retryAt : Option Nat := none
  /-- Transit cells that wait for the lane, per VC. -/
  transit0 : List Cell := []
  transit1 : List Cell := []
  /-- The VC served last, and the slots each VC was given (R544). -/
  lastVc : Nat := 0
  slots0 : Nat := 0
  slots1 : Nat := 0
  deriving DecidableEq, Repr

/-- What this node knows of another (R524): serial, image hash, the instants heard on A and B (plus 1; 0 never), and flags. -/
structure Member where
  serial : Nat := 0
  hash : Nat := 0
  heardA : Nat := 0
  heardB : Nat := 0
  wrapA : Bool := false
  wrapB : Bool := false
  deriving DecidableEq, Repr

/-- What a request context is for (R536, R606). -/
inductive CtxFor where
  | window (tenant : Nat)
  | reflex (tenant rule : Nat)
  | gather (group elem : Nat)
  | probe
  deriving DecidableEq, Repr

/-- An outstanding request (R536). -/
structure Ctx where
  tag : Nat
  what : CtxFor
  dst : Nat
  op : Nat
  gaddr : Nat
  /-- The instant of insertion on the lane (R537). -/
  at_ : Option Nat := none
  deriving DecidableEq, Repr

/-- A sleep round of this node (R560). -/
structure SleepRound where
  round : Nat
  by_ : Nat
  deriving DecidableEq, Repr

/-- The ring unit: link ports, members, contexts, the insertion queues and recent insertions per ring and VC (ring x 2 + VC),
the request sink, and the sleep round. -/
structure RingSt where
  ports : Tbl LinkPort := []
  members : Tbl Member := []
  ctx : List Ctx := []
  nextTag : Nat := 0
  ins : Tbl (List Cell) := []
  insAt : Tbl (List Nat) := []
  sink : List Cell := []
  sleep : Option SleepRound := none
  nextRound : Nat := 0
  /-- The key of the flow hash, drawn at reset (R540). -/
  hashKey : Nat := 0
  deriving DecidableEq, Repr

/-! ### Gathers (chapter 12) -/

/-- A gather group as the image compiles it (R573): its words H0 to H3, E0 to E31. -/
structure GtDef where
  words : List Nat
  deriving DecidableEq, Repr

/-- The values a run leaves for GT_R0 to GT_R4 (R594). -/
structure LastRun where
  cstat : Nat
  trig : Nat
  sat : Bool
  late : Bool
  incl : Nat
  fmask : Nat
  result : Nat
  seq : Nat
  deriving DecidableEq, Repr

/-- The run-time state of a gather group (R576-R594): 0 IDLE, 1 PENDING, 2 RUNNING, 3 DELIVERING. -/
structure GroupSt where
  st : Nat := 0
  seq : Nat := 0
  satStk : Bool := false
  done : Bool := false
  last : Option LastRun := none
  /-- The values that GT_R0 to GT_R4 take when the record is issued or dropped (R594). -/
  await : Option LastRun := none
  deriving DecidableEq, Repr

/-- A start as it reached the gather engine's input (R582, R592): the group, its definition then, the trigger, LATE, and the fabric time. -/
structure GtStart where
  group : Nat
  gdef : GtDef
  trig : Nat
  late : Bool
  ns : Nat
  frac : Nat
  epoch : Nat
  /-- A function reset of the tenant discards the record (R82, R594). -/
  dead : Bool := false
  deriving DecidableEq, Repr

/-- A run in a run slot (R583-R591): each element's status and value once in hand, the elements reduced so far and the accumulator. -/
structure GtRun where
  start : GtStart
  seq : Nat
  elems : List (Option (Nat × Nat))
  done : Nat := 0
  acc : Int := 0
  incl : Nat := 0
  fmask : Nat := 0
  sat : Bool := false
  deriving DecidableEq, Repr

/-- The gather engine. -/
structure GatherSt where
  groups : Tbl GroupSt := []
  runs : List GtRun := []
  queue : List GtStart := []
  /-- The fabric time, in ns, up to which each group's schedule times have been looked at. -/
  schedNs : Tbl Nat := []
  deriving DecidableEq, Repr

/-! ### The pair unit (chapter 13) -/

/-- A mirror record the acting unit keeps until both links acknowledge it (R614): per pair link 0 not sent, 1 sent, 2 acknowledged,
and the LSEQ of the last cell that carried it. -/
structure MirrorHeld where
  rec_ : MirrorRec
  sent0 : Nat := 0
  lseq0 : Nat := 0
  sent1 : Nat := 0
  lseq1 : Nat := 0
  deriving DecidableEq, Repr

/-- A planned role swap in progress at the handing unit (R626): the ports that have stopped presenting, when the
first of them did, and the SWAP cell is sent. -/
structure SwapSt where
  round : Nat
  stopped : List Nat := []
  at_ : Nat
  sent : Bool := false
  deriving DecidableEq, Repr

/-- The pair unit beyond its registers. -/
structure PairSt where
  /-- Instants of the last heartbeat on PL0, PL1 and the ring. -/
  hb0 : Nat := 0
  hb1 : Nat := 0
  hbR : Nat := 0
  /-- What the partner's last HB cell said. -/
  partner : Option Heartbeat := none
  joinBy : Option Nat := none
  /-- The instant D of the present contest, and whether the unit was acting before it (R608). -/
  contestD : Option Nat := none
  wasActing : Bool := false
  /-- Per witness port, the Clove of the present contest: 1 queued, 2 sent, 3 withdrawn, returned or refused. -/
  clove : Tbl Nat := []
  /-- The smallest partner Clove since the last heartbeat (R621), and the instant of the last partner Clove or of isolation (R624). -/
  peerClove : Option Nat := none
  cloveSeen : Nat := 0
  cloveSent : Nat := 0
  /-- Mirror records not yet acknowledged on both links, oldest first. -/
  buf : List MirrorHeld := []
  /-- On a holding unit: records received ahead of a missing one, oldest first (R613). -/
  early : List MirrorRec := []
  /-- At the handing unit: the planned swap in progress, and the number of the next. -/
  swap : Option SwapSt := none
  nextSwap : Nat := 0
  /-- The completions of mirror entries that wait for their CQ (R619). -/
  waitCq : List Comp := []
  deriving DecidableEq, Repr

/-! ### Interrupts (chapter 14) -/

/-- An open coalescing window (R653): its count, and the interval count when it opened. -/
structure WinSt where
  count : Nat
  at_ : Nat
  deriving DecidableEq, Repr

/-- What the interrupt controller holds beyond its registers: the CPRI of each claimed source, the open windows by target,
and the targets whose window closed while another hold kept the message back (R653). -/
structure IcSt where
  cpri : Tbl Nat := []
  win : Tbl (Option WinSt) := []
  kept : List Nat := []
  deriving DecidableEq, Repr

/-! ### Faults (chapter 15) -/

/-- A fault record (R684): the class, the source of its first event and the fields of FC_REC0 to FC_REC6.
`old` says that its source has been cleared since the record was made (R685). -/
structure FaultRec where
  id : Nat
  rail : Bool
  cont : Bool
  severe : Bool
  rank : Nat
  source : Nat
  group : Nat
  merge : Nat
  ns : Nat
  epoch : Nat
  /-- The interval count of the first event, which orders equal ranks (R688). -/
  at_ : Nat
  detail : Nat
  evcnt : Nat
  lastsrc : Nat
  old : Bool
  deriving DecidableEq, Repr

/-- The fault collector beyond its registers: the records in the order made, the times of each source's latest 255 events on the
interval count (R672), in tq, the time of the latest event of each KIND E source, each group's handling record
(id + 1, 0 none) and the instant it became forced. -/
structure FcSt where
  fifo : List FaultRec := []
  nextId : Nat := 0
  times : Tbl (List Nat) := []
  lastEv : Tbl Nat := []
  handling : Tbl Nat := []
  forcedAt : Tbl Nat := []
  /-- The SEVERE sources whose FORCE was 1 when they latched their group (R675). -/
  driving : List Nat := []
  /-- Events on their way to the collector: the ports whose queue found a pointer mismatch (R334). -/
  due : List Nat := []
  deriving DecidableEq, Repr


/-! ### The power manager (chapter 16) -/

/-- An Anise round or sleep of a port beyond PM_PSLP and PM_ARD (R724-R736). -/
structure AniseSt where
  /-- The submission of the query, its SENT outcome, and the members that have answered. -/
  subAt : Nat := 0
  sentAt : Option Nat := none
  answered : Nat := 0
  /-- The round was started by a fabric COMMIT (R735). -/
  fabric : Bool := false
  /-- The commit is SENT, or received on a holding unit: the port sleeps at its first boundary (R726, R727). -/
  sleepDue : Bool := false
  /-- The instant of the wake that awaits an answer (R729), and a wake frame still to be submitted (R732). -/
  wokenAt : Nat := 0
  wakeDue : Bool := false
  deriving DecidableEq, Repr

/-- A domain switch in progress (R710): the domain, on or off, the tenant that commanded it, and when. -/
structure DomSwitch where
  domain : Nat
  on : Bool
  tenant : Nat
  at_ : Nat
  deriving DecidableEq, Repr

/-- A calibration in progress (R718): its tenant, start, the frames committed and the temperature at the start, and a slew seen. -/
structure CalSt where
  tenant : Nat
  at_ : Nat
  commits : Nat
  tj : Nat
  slewed : Bool := false
  /-- PM_TJ has been more than 5 °C away since (R718). -/
  moved : Bool := false
  deriving DecidableEq, Repr

/-- The power manager beyond its registers: switches and calibration in progress, the slew's origin (mV), instants and targets
since it began (R712-R715), and the operating point remembered in fabric sleep (R735). -/
structure PmSt where
  switches : List DomSwitch := []
  cal : Option CalSt := none
  slewFrom : Nat := 0
  /-- The rail voltage in mV at which the slew began, before any retarget (R715). -/
  origin : Nat := 0
  slewAt : Nat := 0
  slewFirst : Nat := 0
  settled : Nat := 0
  targets : List Nat := []
  fsTarget : Option Nat := none
  deriving DecidableEq, Repr
/-- Image: a remote grant (R534). -/
structure Grant where
  snodeLo : Nat
  snodeHi : Nat
  stenant : Nat
  stany : Bool
  origins : Nat
  cls : Nat
  objLo : Nat
  objHi : Nat
  r : Bool
  w : Bool
  deriving DecidableEq, Repr

/-- What an image sets beyond RWI register fields (R93, chapter 17). -/
structure Image where
  /-- The split point of the tenants (R65), the tenant-bearing PFs (R67), Subsystem Vendor ID and Subsystem ID (R64). -/
  split : Nat := 0
  bearing0 : Bool := false
  bearing1 : Bool := false
  ssvid : Nat := 0
  ssid : Nat := 0
  /-- Values of the RWI fields and image resets: (field, instance, index, value). -/
  rwi : List (Fld × Nat × Nat × Nat) := []
  leases : List Lease := []
  pages : List PageOpen := []
  steer : SteerBank := {}
  /-- The function of each assigned target, by target number (R635), and the default target of each source (R636). -/
  targets : List (Nat × Func) := []
  defTargets : Tbl Nat := []
  /-- The gather groups (R575). -/
  groups : List (Nat × GtDef) := []
  /-- The first 64 bits of the digests of the image and of its lease section (R519, R605). -/
  hash : Nat := 0
  leaseDigest : Nat := 0
  /-- The remote grants (R534). -/
  grants : List Grant := []
  /-- The descriptor ring of each serial receive lease, by lease index (R482), the mailboxes with a CLEAR flag, and the anchor and key of
  an ENROLL section (R740, R770). -/
  spRings : Tbl Nat := []
  clear : List Nat := []
  enroll : Option (List Byte × List Byte) := none
  deriving DecidableEq, Repr, Inhabited

/-! ### The configuration unit (chapter 17), start-up (chapter 18) and boundary scan (chapter 20) -/

/-- A slot of the NVM (R746): its state, whether CLOSE has passed since it was opened, the object words programmed, its erases. -/
structure SlotSt where
  st : Nat := 0
  closed : Bool := false
  words : Tbl (Option Nat) := []
  erases : Nat := 0
  deriving DecidableEq, Repr

/-- A pull that runs (R749): its link and tenant, host address, first object word, words within 16 MiB, how many have been read, and the
RESULT that it has met so far. -/
structure Pull where
  link : Nat
  tenant : Nat
  addr : Nat
  off : Nat
  len : Nat
  done : Nat := 0
  met : Nat := 0
  deriving DecidableEq, Repr

/-- A write of an OTP field in progress (R755, R770). -/
inductive OtpWrite where
  | roll (v : Nat)
  | enroll (anchor key : List Byte)
  deriving DecidableEq, Repr

/-- What the OTP holds beyond what manufacture fixes: rollback counter, owner anchor and owner image key. -/
structure Otp where
  roll : Nat := 0
  owner : Option (List Byte × List Byte) := none
  deriving DecidableEq, Repr

/-- An object that has passed its check: its image, and MAJOR, MINOR, SCHEMA, SCHEMA_MIN and SECVER of its header. -/
structure Loaded where
  img : Image
  ver : List Nat
  deriving DecidableEq, Repr

/-- The configuration unit beyond its registers. -/
structure CuSt where
  slot0 : SlotSt := {}
  slot1 : SlotSt := {}
  /-- An erase runs (R748). -/
  erasing : Bool := false
  pull : Option Pull := none
  otp : Otp := {}
  otpWrites : List OtpWrite := []
  /-- The checked image of a warm restart, and the instant at which the gap began (R758). -/
  next : Option Loaded := none
  /-- The handover record written when the gap began (R758, R764). -/
  record : List Byte := []
  gapAt : Nat := 0
  /-- An accepted ACTIVATE_COLD waits for its reset instant (R775). -/
  coldAt : Option Nat := none
  /-- CU_FALLBACK still to be queued: the slot that failed and its CODE (R754). -/
  fallback : Option (Nat × Nat) := none
  deriving DecidableEq, Repr

/-- The device as a whole (R775-R780): `down` from a reset instant until boot has ended, and what CU_RSTC will report (R788). -/
structure SysSt where
  down : Bool := true
  /-- RESET_N caused the reset that holds the device (R838). -/
  pin : Bool := false
  cause : Nat := 0
  fcKept : Bool := false
  resets : Nat := 0
  deriving DecidableEq, Repr

/-- The test access port (R835-R838): the instruction register, and whether a pin-control instruction in it may still act: it acts as BYPASS
from the instant at which the device leaves reset or loads an image. -/
structure TapSt where
  ir : Nat := 1
  live : Bool := true
  deriving DecidableEq, Repr

/-- How the device updates a field that a host may clear: bits set, a count that advances, a largest value seen. -/
inductive UpdKind where
  | bits | count | largest
  deriving DecidableEq, Repr

/-- What the device itself did at one instant to a field that a host may clear (R105): the field's key, and the bits it set, how far it
counted, or the value it saw. -/
structure DevUpd where
  key : Nat
  kind : UpdKind
  n : Nat
  deriving DecidableEq, Repr

/-- What has happened at one instant: the device's own updates of fields that a host may clear (R105), and the triplicated fields a host has
written (R115), twice their key, plus 1 for a staged copy. -/
structure InstantSt where
  at_ : Nat := 0
  upd : List DevUpd := []
  wrote : List Nat := []
  deriving DecidableEq, Repr

/-- The three copies of a triplicated field and the voter's output (R110-R113). -/
structure Triple where
  copies : Copies
  out : Nat
  deriving DecidableEq, Repr

/-- The whole state. -/
structure State where
  /-- The commands that wait, first in, first out. -/
  pending : List Instr := []
  /-- The present instant, in tq. -/
  now : Nat := 0
  /-- How many free values have been drawn (the model's own counter). -/
  fresh : Nat := 0
  /-- What has left the device, oldest first. -/
  out : List Emission := []
  /-- The register fields that differ from their reset value, by key. -/
  regs : Tbl Nat := []
  /-- Staged copies written and not yet applied (R120-R125); every other staged copy equals its active copy. -/
  staged : Tbl Nat := []
  /-- Triplicated fields without a majority (R113), active and staged copies. -/
  noMaj : List Nat := []
  noMajStaged : List Nat := []
  /-- The three copies of the triplicated fields whose copies are not all good and equal to the value the field has otherwise, by key: active
  copies, and staged copies (R110-R113). -/
  copies : Tbl Triple := []
  copiesStaged : Tbl Triple := []
  /-- What has happened at the latest instant at which anything was noted (R105, R115). -/
  inst_ : InstantSt := {}
  time : TimeSt := {}
  host : HostSt := {}
  img : Image := {}
  leaseRt : Tbl LeaseRt := []
  fb : Tbl FbSt := []
  tt : Tbl TtSt := []
  anise : Tbl AniseSt := []
  pm : PmSt := {}
  pq : Tbl PqSt := []
  rx : RxSt := {}
  ru : ReflexSt := {}
  sp : Tbl SpSt := []
  /-- The tenants' staging buffers of serial characters (R488). -/
  stage_ : Tbl (List Byte) := []
  db : Tbl DbSt := []
  gt : GatherSt := {}
  ring_ : RingSt := {}
  pair : PairSt := {}
  ic : IcSt := {}
  fc : FcSt := {}
  cu : CuSt := {}
  sys : SysSt := {}
  tap : TapSt := {}
  deriving DecidableEq, Repr

/-- The machine right after a power-on reset, before boot (chapter 18): every register field at its reset value, no image.
(DESIGN CHOICE, log entry 7.) (DESIGN CHOICE, log entry 91.) -/
def State.reset : State := {}

end Sys2Proof.Machine
end

