-- ==== Sys2Proof/Machine/Ops.lean ====
section
/-! DEFINITION. The operations every family shares: time, register fields, tenants, events, posted writes and completions. -/

namespace Sys2Proof.Machine

/-! ### Time (R426-R429, R450) -/

/-- 2^-32 ns in one tq at the nominal rate (R427): 0x640 x 2^24. -/
def nominalInc : Nat := 0x640 * 2 ^ 24

/-- The adjustment clamped to 24 bits (R427). -/
def clampAdj (z : Int) : Int := max (-8388608) (min 8388607 z)

/-- 2^-32 ns in a nanosecond. -/
def ivlNs : Nat := 2 ^ 32

/-- A field's value (R10): the vote of R111 is the value held here. -/
def State.rdA (s : State) (f : Fld) (i j : Nat) : Nat := tget f.rst s.regs (f.key i j)

/-- The three copies of a field, active or staged, are written alike: the field has a majority (R114, R115). -/
def State.rewritten (s : State) (k : Nat) (staged : Bool) : State :=
  if staged then { s with copiesStaged := tdel s.copiesStaged k, noMajStaged := s.noMajStaged.filter (· != k) }
  else { s with copies := tdel s.copies k, noMaj := s.noMaj.filter (· != k) }

/-- A field's value, instance `i`. -/
def State.rd (s : State) (f : Fld) (i : Nat) : Nat := s.rdA f i 0

/-- Writing a field, cut to its width. -/
def State.wrA (s : State) (f : Fld) (i j v : Nat) : State :=
  { s with regs := tset f.rst s.regs (f.key i j) (v % 2 ^ f.w) }

/-- Writing a field, instance `i`. -/
def State.wr (s : State) (f : Fld) (i v : Nat) : State := s.wrA f i 0 v

/-- A one-bit field as a truth value. -/
def State.flag (s : State) (f : Fld) (i : Nat) : Bool := s.rd f i != 0

/-- Writing a one-bit field. -/
def State.put (s : State) (f : Fld) (i : Nat) (b : Bool) : State := s.wr f i (b2n b)

/-- What has happened at the present instant: commands of one instant act in their order in the queue, but where a rule ranks two effects.
(DESIGN CHOICE, log entry 113.) -/
def State.instant (s : State) : InstantSt := if s.inst_.at_ = s.now then s.inst_ else { at_ := s.now }

/-- Two device updates of one field at one instant as one. -/
def UpdKind.join : UpdKind → Nat → Nat → Nat
  | .bits, a, b => a ||| b
  | .count, a, b => a + b
  | .largest, a, b => max a b

/-- The device's own update of a field at this instant is noted, so that a host's clear of the same instant comes first (R105). -/
def State.note (s : State) (k : Nat) (kind : UpdKind) (n : Nat) : State :=
  let x := s.instant
  let was := ((x.upd.find? fun u => u.key == k).map (·.n)).getD 0
  { s with inst_ := { x with upd := ⟨k, kind, kind.join was n⟩ :: x.upd.filter fun u => u.key != k } }

/-- What a field holds once a host has cleared the bits of `m` in it: a device update of the same instant comes after the clear (R105). -/
def State.cleared (s : State) (f : Fld) (i j m : Nat) : Nat :=
  let old := s.rdA f i j
  match s.instant.upd.find? fun u => u.key == f.key i j with
  | none => clearMask old m
  | some u => match u.kind with
    | .bits => clearMask old m ||| (old &&& u.n)
    | .count => satTo f.w (clearMask (old - u.n) m + u.n)
    | .largest => max (clearMask old m) u.n

/-- A host has written the copies of a triplicated field at this instant (R115). -/
def State.noteWrite (s : State) (k : Nat) (staged : Bool) : State :=
  { s with inst_ := { s.instant with wrote := (2 * k + b2n staged) :: s.instant.wrote } }

/-- A count is cleared by a host: what the device counted at the same instant remains (R105). -/
def State.clearCount (s : State) (f : Fld) (i j : Nat) : State := s.wrA f i j (s.cleared f i j (2 ^ f.w - 1))

/-- Bit `n` under key `k` was set by the device at this very instant. -/
def State.justSet (s : State) (k n : Nat) : Bool := s.instant.upd.any fun u => u.key == k && bitAt u.n n

/-- Adding `n` to a counter: a read-only counter wraps, a W1C counter saturates (R106 and each chapter's counter table).
(DESIGN CHOICE, log entry 88.) -/
def State.addA (s : State) (f : Fld) (i j n : Nat) : State :=
  let v := s.rdA f i j + n
  (s.wrA f i j (if f.acc = .ro then v else satTo f.w v)).note (f.key i j) .count n

/-- A counter advances by one. -/
def State.bump (s : State) (f : Fld) (i : Nat) : State := s.addA f i 0 1

/-- A count that saturates although read-only. -/
def State.bumpSat (s : State) (f : Fld) (i : Nat) : State := s.wr f i (satTo f.w (s.rd f i + 1))

/-- A count that falls, not below 0. -/
def State.drop1 (s : State) (f : Fld) (i : Nat) : State := s.wr f i (s.rd f i - 1)

/-- Bit `n` of element `j` of a register field is set: an event bit (R287 and its like). -/
def State.evtA (s : State) (f : Fld) (i j n : Nat) : State :=
  (s.wrA f i j (setBitAt (s.rdA f i j) n)).note (f.key i j) .bits (2 ^ n)

/-- Bit `n` of a register field is set. -/
def State.evt (s : State) (f : Fld) (i n : Nat) : State := s.evtA f i 0 n

/-- The adjustment FREQ of R427. -/
def State.freq (s : State) : Int := fromTwos 24 (s.rd TU_FREQ_FREQ 0)

/-- The slew term of R427 for the remaining slew `rem`: SLEWMAX ppm, 26,844 units each. -/
def slewTermOf (slewMax : Nat) (rem : Int) : Int :=
  let m : Int := (slewMax : Int) * 26844
  if rem = 0 then 0 else if rem > 0 then m else -m

/-- The slew term in force. -/
def State.slewTerm (s : State) (rem : Int) : Int := slewTermOf (s.rd TU_LIMITS_SLEWMAX 0) rem

/-- Of `n` ticks, those that still slew: the slew ends when nothing remains (R450). -/
def slewTicks (term rem : Int) (n : Nat) : Nat := if term = 0 then 0 else min n ((rem.natAbs + term.natAbs - 1) / term.natAbs)

/-- What both counts gain in `n` ticks (R427-R429). -/
def gainOver (slewMax : Nat) (freq rem : Int) (n : Nat) : Nat :=
  let term := slewTermOf slewMax rem
  let k := slewTicks term rem n
  ((k : Int) * ((nominalInc : Int) + clampAdj (freq + term)) + ((n - k : Nat) : Int) * ((nominalInc : Int) + clampAdj freq)).toNat

/-- The counts after `n` more ticks (R427-R429): both advance by the same INC; the slew ends when nothing remains (R450). -/
def State.advance (s : State) (n : Nat) : TimeSt :=
  let rem := s.time.slewRem
  let term := s.slewTerm rem
  let add := gainOver (s.rd TU_LIMITS_SLEWMAX 0) s.freq rem n
  let gone := term * (slewTicks term rem n : Int)
  { s.time with
    fab := s.time.fab + add
    ivl := s.time.ivl + add
    slewRem := if gone.natAbs ≥ rem.natAbs then (if term = 0 then rem else 0) else rem - gone }

/-- The instant `t` is reached: the clock of the model and the time unit's counts advance. (DESIGN CHOICE, log entry 1.) -/
def State.tick (s : State) (t : Nat) : State :=
  { s with now := max s.now t, time := s.advance (t - s.now) }

/-- Fabric time in ns (R426). -/
def State.ns (s : State) : Nat := s.time.fab / 2 ^ 32 % 2 ^ 64

/-- The 8-bit fraction of fabric time. -/
def State.frac (s : State) : Nat := s.time.fab / 2 ^ 24 % 256

/-- Fabric time has left its straight course: the present counts and rates are kept, so that an instant before this one can still be told
(R428, R452). Marks older than 10 s are dropped. -/
def State.timeMark (s : State) : State :=
  let m : TimeMark := ⟨s.now, s.time.fab, s.time.ivl, s.time.slewRem, s.freq, s.rd TU_LIMITS_SLEWMAX 0, s.rd TU_EPOCH_EPOCH 0⟩
  { s with time := { s.time with marks := m :: s.time.marks.filter fun x => x.at_ != s.now && decide (s.now < x.at_ + 10 * tqPerS) } }

/-- A timestamp (R428, R452): fabric time in units of 2^-32 ns, the interval count and the epoch of one instant. -/
structure Stamp where
  fab : Nat
  ivl : Nat
  epoch : Nat
  deriving DecidableEq, Repr

/-- The timestamp of an instant `d` tq ago (R428, R452): the counts as they ran from the last mark at or before it. (DEDUCED, log entry 89.) -/
def State.stampAgo (s : State) (d : Nat) : Stamp :=
  let u := s.now - d
  match s.time.marks.find? fun m => decide (m.at_ ≤ u) with
  | some m =>
    let g := gainOver m.slewMax m.freq m.rem (u - m.at_)
    ⟨m.fab + g, m.ivl + g, m.epoch⟩
  | none =>
    let g := d * ((nominalInc : Int) + clampAdj s.freq).toNat
    ⟨s.time.fab - g, s.time.ivl - g, s.rd TU_EPOCH_EPOCH 0⟩

/-- The whole nanoseconds, the 8-bit fraction and the low 8 bits of the epoch of a timestamp. -/
def Stamp.ns (x : Stamp) : Nat := x.fab / 2 ^ 32 % 2 ^ 64
def Stamp.frac (x : Stamp) : Nat := x.fab / 2 ^ 24 % 256
def Stamp.epoch8 (x : Stamp) : Nat := x.epoch % 256

/-- Fabric time at an instant `d` tq ago. -/
def State.fabAgo (s : State) (d : Nat) : Nat := (s.stampAgo d).fab

/-- Whole tq of the interval count (R429). -/
def State.ivlTq (s : State) : Nat := s.time.ivl / nominalInc

/-- A free value is drawn: the counter advances. (DESIGN CHOICE, log entry 8.) -/
def State.draw (s : State) : State := { s with fresh := s.fresh + 1 }

/-- Something leaves the device. (DESIGN CHOICE, log entry 9.) -/
def State.emit (s : State) (e : Emission) : State := { s with out := s.out ++ [e] }

/-! ### Instances -/

/-- Host link `k`. -/
def State.link (s : State) (k : Nat) : LinkSt := tget {} s.host.links k

/-- Changing a host link. -/
def State.setLink (s : State) (k : Nat) (f : LinkSt → LinkSt) : State :=
  { s with host := { s.host with links := tupd {} s.host.links k f } }

/-- The key of a function. -/
def fkey (f : Func) : Nat := f.link * 256 + f.fn

/-- A function's state. -/
def State.func (s : State) (f : Func) : FnSt := tget {} s.host.fns (fkey f)

/-- Changing a function. -/
def State.setFunc (s : State) (f : Func) (g : FnSt → FnSt) : State :=
  { s with host := { s.host with fns := tupd {} s.host.fns (fkey f) g } }

/-- Descriptor ring `r`, numbered tenant x 256 + k. -/
def State.ring (s : State) (r : Nat) : Ring := tget {} s.host.rings r

/-- Changing a descriptor ring. -/
def State.setRing (s : State) (r : Nat) (f : Ring → Ring) : State :=
  { s with host := { s.host with rings := tupd {} s.host.rings r f } }

/-- FB port `p`. -/
def State.port (s : State) (p : Nat) : FbSt := tget {} s.fb p

/-- Changing an FB port. -/
def State.setPort (s : State) (p : Nat) (f : FbSt → FbSt) : State := { s with fb := tupd {} s.fb p f }

/-- The priority queue of FB port `p`. -/
def State.queue (s : State) (p : Nat) : PqSt := tget {} s.pq p

/-- Changing a priority queue. -/
def State.setQueue (s : State) (p : Nat) (f : PqSt → PqSt) : State := { s with pq := tupd {} s.pq p f }

/-- The running use of lease `l` of the active image. -/
def State.lrt (s : State) (l : Nat) : LeaseRt := tget {} s.leaseRt l

/-- Changing the running use of a lease; an item whose lease the active image has discarded charges none (R763). -/
def State.setLrt (s : State) (l : Nat) (f : LeaseRt → LeaseRt) : State :=
  if l < s.img.leases.length then { s with leaseRt := tupd {} s.leaseRt l f } else s

/-- A mailbox. -/
def State.mbox (s : State) (m : Nat) : Mailbox := tget {} s.rx.mboxes m

/-- Changing a mailbox. -/
def State.setMbox (s : State) (m : Nat) (f : Mailbox → Mailbox) : State :=
  { s with rx := { s.rx with mboxes := tupd {} s.rx.mboxes m f } }

/-! ### Power domains (R703, R706) -/

/-- Domain `d` is on and power-good. -/
def State.domOn (s : State) (d : Nat) : Bool := bitAt (s.rdA PM_DON_ON 0 (d / 24)) (d % 24)

/-- Domain `d` is on and not being switched off (R706). -/
def State.domReady (s : State) (d : Nat) : Bool := s.domOn d && !s.pm.switches.any fun x => x.domain == d && !x.on

/-! ### Functions and tenants (R65-R70) -/

/-- The PF of a link is tenant-bearing (R67). -/
def State.bearing (s : State) (link : Nat) : Bool := if link = 0 then s.img.bearing0 else s.img.bearing1

/-- The tenant of a function, by number alone (R65, R67). -/
def State.tenantNo (s : State) (f : Func) : Option Nat :=
  if f.link > 1 then none
  else if f.fn = 0 then (if s.bearing f.link then some 0 else none)
  else if f.link = 0 then (if f.fn ≤ s.img.split then some f.fn else none)
  else if s.img.split + f.fn ≤ 255 then some (s.img.split + f.fn) else none

/-- The function of tenant `t` on a link, if it has one there. -/
def State.funcOn (s : State) (t link : Nat) : Option Func :=
  if t = 0 then (if s.bearing link then some ⟨link, 0⟩ else none)
  else if t ≤ s.img.split then (if link = 0 then some ⟨0, t⟩ else none)
  else if link = 1 then some ⟨1, t - s.img.split⟩ else none

/-- The home link of a descriptor ring (R68, R159, R357). -/
def State.homeOf (s : State) (r : Nat) : Nat :=
  let t := r / 256
  if t = 0 then s.rd RC_CTL_HOME r else if t ≤ s.img.split then 0 else 1

/-- The tenant is active on a link (R69). -/
def State.active (s : State) (t link : Nat) : Bool :=
  match s.funcOn t link with
  | none => false
  | some f =>
    let g := s.func f
    (s.link link).up && g.enabled && g.busMaster && !g.d3hot && !g.resetting

/-! ### Descriptor rings (R154-R157) -/

/-- The number of entries. -/
def State.ringN (s : State) (r : Nat) : Nat := 2 ^ s.rd RC_CTL_LOG2N r

/-- The producer's composite index (R155). -/
def State.prod (s : State) (r : Nat) : Nat := s.rd RC_PROD_WRAP r * s.ringN r + s.rd RC_PROD_INDEX r

/-- The consumer's composite index. -/
def State.cons (s : State) (r : Nat) : Nat := s.rd RC_CONS_WRAP r * s.ringN r + s.rd RC_CONS_INDEX r

/-- Setting the producer's composite index. -/
def State.setProd (s : State) (r c : Nat) : State :=
  (s.wr RC_PROD_INDEX r (c % s.ringN r)).wr RC_PROD_WRAP r (c / s.ringN r)

/-- Setting the consumer's composite index. -/
def State.setCons (s : State) (r c : Nat) : State :=
  (s.wr RC_CONS_INDEX r (c % s.ringN r)).wr RC_CONS_WRAP r (c / s.ringN r)

/-- The distance from `b` on to `a`, modulo 2N (R170). -/
def State.dist (s : State) (r a b : Nat) : Nat := (a + 2 * s.ringN r - b) % (2 * s.ringN r)

/-- Entries not yet consumed. -/
def State.fill (s : State) (r : Nat) : Nat := s.dist r (s.prod r) (s.cons r)

/-- Ring states (R163). -/
def rcIdle : Nat := 0
def rcArmed : Nat := 1
def rcDraining : Nat := 2
def rcError : Nat := 3

/-- The ring is ARMED and of the type. -/
def State.armedAs (s : State) (r typ : Nat) : Bool := s.rd RC_STAT_STATE r == rcArmed && s.rd RC_CTL_TYPE r == typ

/-- The credits free in a CQ (R195). -/
def State.credits (s : State) (q : Nat) : Nat :=
  if s.armedAs q 1 then s.ringN q - s.fill q - s.rd RC_OUTST_COUNT q else 0

/-- The generation bit of composite index `c` (R156). -/
def State.genBit (s : State) (r c : Nat) : Nat := if c < s.ringN r then 1 else 0

/-- The entry size of a ring type (R153). -/
def entrySize (typ : Nat) : Nat := if typ = 0 then 32 else if typ = 1 then 16 else if typ = 2 then 96 else 32

/-- The base address (RC_BASE group). -/
def State.baseAddr (s : State) (r : Nat) : Nat :=
  (s.rd RC_BASE0_BASE_35_12 r + s.rd RC_BASE1_BASE_59_36 r * 2 ^ 24 + s.rd RC_BASE2_BASE_63_60 r * 2 ^ 48) * 4096

/-- The host address of composite index `c`. -/
def State.entryAddr (s : State) (r c : Nat) : Nat :=
  s.baseAddr r + (c % s.ringN r) * entrySize (s.rd RC_CTL_TYPE r)

/-- An entry of ring `r` has been issued: its TEN_NOTE bit is set where NOTIFY is armed (R175, R177). -/
def State.noteEntry (s : State) (r : Nat) : State :=
  if s.flag RC_STAT_NOTIFY r then
    let t := r / 256
    let k := r % 256
    (s.put RC_STAT_NOTIFY r false).evtA TEN_NOTE_NOTE t (k / 24) (k % 24)
  else s

/-- One unit of posted-write credit is used. -/
def State.spendCredit (s : State) (link : Nat) : State :=
  s.setLink link fun l => { l with credit := l.credit.map (· - 1) }

/-- The function through which a tenant's requests leave on a link (R70). -/
def State.rid (s : State) (t link : Nat) : Nat := ((s.funcOn t link).map (·.fn)).getD 0

/-- The device writes one entry at the producer's position of `r` (R213): bytes out, index on, notification. -/
def State.writeEntry (s : State) (r : Nat) (bytes : List Byte) : State :=
  let link := s.homeOf r
  let c := s.prod r
  let a := s.entryAddr r c
  let k := 4096 - a % 4096
  let fn := s.rid (r / 256) link
  -- R199: a record split across two 4 KiB pages leaves in two writes, the part without byte 7 first
  let s := if k < bytes.length then
      ((s.emit (.hostWrite link fn (a + k) (bytes.drop k))).emit (.hostWrite link fn a (bytes.take k))).spendCredit link
    else s.emit (.hostWrite link fn a bytes)
  ((s.setProd r ((c + 1) % (2 * s.ringN r))).spendCredit link).noteEntry r

/-! ### Events (R203-R206, R842) -/

/-- An EQ or RQ drops an entry: RC_DROP and LOST (R200, R204). -/
def State.dropIn (s : State) (r : Nat) : State :=
  (s.bump RC_DROP_COUNT r).setRing r fun g => { g with lost := satTo 16 (g.lost + 1) }

/-- An EQ entry is issued, or dropped where its EQ is full, gone, or its tenant inactive (R69, R204). -/
def State.issueEq (s : State) (t code object ns : Nat) (detail : List Byte) : State :=
  let r := t * 256 + s.rd TEN_EQ_RING t
  if !(s.flag TEN_EQ_VALID t && s.armedAs r 3) then s.bump TEN_EQLOST_COUNT t
  else if !s.active t (s.homeOf r) || s.fill r == s.ringN r then s.dropIn r
  else
    let bytes := leBytes 2 code ++ [BitVec.ofNat 8 (s.genBit r (s.prod r)), 0] ++ leBytes 2 (s.ring r).lost
      ++ leBytes 2 object ++ leBytes 8 ns ++ padTo 16 detail
    (s.writeEntry r bytes).setRing r fun g => { g with lost := 0 }

/-- The delivery engine of a link is stopped: no posted-write credit (R374), or a warm-restart gap (R759). (DEDUCED, log entry 84.) -/
def State.stalled (s : State) (link : Nat) : Bool := (s.link link).credit == some 0 || s.rd CU_STAT_PHASE 0 == 2

/-- A posted write may leave on the link at once. -/
def State.canPost (s : State) (link : Nat) : Bool := (s.link link).waiting.isEmpty && !s.stalled link

/-- No tenant: the owner of a port for which the image names none (R23). -/
def noTenant : Nat := 256

/-- An event is queued to a tenant (R204). -/
def State.event (s : State) (t code object : Nat) (detail : List Byte) : State :=
  let r := t * 256 + s.rd TEN_EQ_RING t
  if t ≥ noTenant then s
  else if !(s.flag TEN_EQ_VALID t && s.armedAs r 3) then s.bump TEN_EQLOST_COUNT t
  else if s.canPost (s.homeOf r) then s.issueEq t code object s.ns detail
  else s.setLink (s.homeOf r) fun l => { l with waiting := l.waiting ++ [.eq t code object s.ns detail] }

/-- The last event of this code and object to the tenant was queued less than 1 ms of fabric time ago (R842). -/
def State.eventHeld (s : State) (t code object : Nat) : Bool :=
  s.host.stamps.any fun e =>
    e.tenant == t && e.code == code && e.object == object && decide (s.time.ivl < e.at_ + 1000000 * ivlNs)

/-- An event limited to one per millisecond (R842). -/
def State.eventLim (s : State) (t code object : Nat) (detail : List Byte) : State :=
  if t ≥ noTenant || s.eventHeld t code object then s
  else
    let keep := s.host.stamps.filter fun e => !(e.tenant == t && e.code == code && e.object == object)
    let s := { s with host := { s.host with stamps := keep ++ [(⟨t, code, object, s.time.ivl⟩ : EventStamp)] } }
    s.event t code object detail

/-! ### Completions (R192, R196, R339) -/

/-- A completion waits for its tenant: the tenant is inactive on the link, or earlier completions for the same CQ still wait (R69, R211). -/
def State.holdsBack (s : State) (c : Comp) : Bool :=
  !s.active (c.cq / 256) (s.homeOf c.cq) || s.host.heldComps.any fun x => x.cq == c.cq

/-- A CQ entry is issued, or held in order (R69, R211). -/
def State.issueCq (s : State) (c : Comp) : State :=
  let q := c.cq
  if s.holdsBack c then { s with host := { s.host with heldComps := s.host.heldComps ++ [c] } }
  else if !s.armedAs q 1 then s
  else
    let bytes := leBytes 2 c.pos ++ [BitVec.ofNat 8 c.status, BitVec.ofNat 8 (s.genBit q (s.prod q)),
        BitVec.ofNat 8 (c.ring % 256), BitVec.ofNat 8 c.opcode]
      ++ leBytes 2 (s.rd RC_CONS_INDEX c.ring) ++ leBytes 4 c.tag ++ leBytes 4 c.result
    (s.writeEntry q bytes).drop1 RC_OUTST_COUNT q

/-- The CQ to which an SQ is bound. -/
def State.cqOf (s : State) (r : Nat) : Nat := r / 256 * 256 + s.rd RC_CTL_CQN r

/-- A completion becomes final: RC_OUTST falls, and the entry goes to the delivery engine, or the credit returns where no entry is written
(R196). A draining SQ whose last descriptor has completed is left for RING_DRAIN_END. -/
def State.complete (s : State) (c : Comp) (nocomp : Bool) : State :=
  let s := (s.setRing c.ring fun g => { g with live := g.live.filter (· != c.seq) }).drop1 RC_OUTST_COUNT c.ring
  let c : Comp := { c with cq := s.cqOf c.ring, pos := c.pos % s.ringN c.ring }
  if nocomp && c.status == 0 then s.drop1 RC_OUTST_COUNT c.cq
  else if s.canPost (s.homeOf c.cq) then s.issueCq c
  else s.setLink (s.homeOf c.cq) fun l => { l with waiting := l.waiting ++ [.cq c] }

/-! ### Gather definitions (R573) -/

/-- Word `k` of a gather group. -/
def GtDef.word (d : GtDef) (k : Nat) : Nat := d.words[k]?.getD 0
def GtDef.tenant (d : GtDef) : Nat := bitsOf (d.word 0) 16 8
def GtDef.resring (d : GtDef) : Nat := bitsOf (d.word 0) 8 8
def GtDef.valid (d : GtDef) : Bool := bitAt (d.word 0) 7
def GtDef.signed (d : GtDef) : Bool := bitAt (d.word 0) 6
def GtDef.op (d : GtDef) : Nat := bitsOf (d.word 0) 3 3
def GtDef.srci (d : GtDef) : Nat := bitsOf (d.word 1) 20 4
def GtDef.srcen (d : GtDef) : Bool := bitAt (d.word 1) 19
def GtDef.nel (d : GtDef) : Nat := bitsOf (d.word 1) 14 5
def GtDef.nexten (d : GtDef) : Bool := bitAt (d.word 1) 13
def GtDef.next (d : GtDef) : Nat := bitsOf (d.word 1) 0 10
def GtDef.period (d : GtDef) : Nat := bitsOf (d.word 2) 0 24
def GtDef.phase (d : GtDef) : Nat := bitsOf (d.word 3) 0 24
/-- The grant bit of a trigger: TDB, TSCHED, TRFX; a chain needs none. -/
def GtDef.grant (d : GtDef) (trig : Nat) : Bool :=
  if trig = 0 then bitAt (d.word 0) 2 else if trig = 1 then bitAt (d.word 0) 1 else if trig = 2 then bitAt (d.word 0) 0 else true

/-- The definition of a group of the active image, if it has one with VALID 1. -/
def State.groupDef (s : State) (g : Nat) : Option GtDef :=
  match s.img.groups.find? fun x => x.1 == g with
  | some x => if x.2.valid then some x.2 else none
  | none => none

/-- The run-time state of a group. -/
def State.grp (s : State) (g : Nat) : GroupSt := tget {} s.gt.groups g

/-- Changing a group. -/
def State.setGrp (s : State) (g : Nat) (f : GroupSt → GroupSt) : State :=
  { s with gt := { s.gt with groups := tupd {} s.gt.groups g f } }

/-- The 8 bytes of a latch after a store of its first bytes (R414). -/
def storeOver (v bytes : List Byte) : List Byte := (bytes ++ v.drop bytes.length).take 8

end Sys2Proof.Machine
end

