-- ==== Sys2Proof/Machine/Delivery.lean ====
section
/-! DEFINITION. The delivery engines: frame-store slots, receive records, drops, and posted writes in order (chapter 07, chapter 04). -/

namespace Sys2Proof.Machine

/-! ### The frame store (R366-R370) -/

/-- The bank of a slot under the key drawn at reset (R368). -/
def State.slotBank (s : State) (k : Nat) : Nat := (Config.slotPlace s.rx.fsKey (Fin.ofNat 32768 k)).val / 4096

/-- Changing a frame-store slot. -/
def State.setSlot (s : State) (k : Nat) (f : StoredFrame → StoredFrame) : State :=
  { s with rx := { s.rx with slots := tupd {} s.rx.slots k f } }

/-- A frame-store slot. -/
def State.slot (s : State) (k : Nat) : StoredFrame := tget {} s.rx.slots k

/-- A destination set of a lane; set 0 is empty (R350). -/
def SteerBank.set (b : SteerBank) (lane n : Nat) : DestSet := if n = 0 then {} else tget {} b.sets (lane * 4096 + n)

/-- The lowest number not among the listed keys: the free slot that a frame takes. (DESIGN CHOICE, log entry 106.) -/
def firstFree (n : Nat) : Tbl StoredFrame → Nat
  | [] => n
  | (k, _) :: t => if k = n then firstFree (n + 1) t else n

/-- A free slot is taken: FREE falls and LOW follows it (R391). The slot is listed at once. -/
def State.takeSlot (s : State) (fr : StoredFrame) : State × Option Nat :=
  let k := firstFree 0 s.rx.slots
  if k ≥ 32768 then (s, none)
  else
    let s := (s.setSlot k fun _ => fr)
    let s := s.wr FS_HELD_HELD (s.slotBank k) (s.rd FS_HELD_HELD (s.slotBank k) + 1)
    let s := s.wr FS_FREE_FREE 0 (s.rd FS_FREE_FREE 0 - 1)
    (s.wr FS_LOW_LOW 0 (min (s.rd FS_LOW_LOW 0) (s.rd FS_FREE_FREE 0)), some k)

/-- A slot returns to the free slots. -/
def State.freeSlot (s : State) (k : Nat) : State :=
  let s := (s.setSlot k fun _ => {}).drop1 FS_HELD_HELD (s.slotBank k)
  s.wr FS_FREE_FREE 0 (s.rd FS_FREE_FREE 0 + 1)

/-- One holder of a slot lets go; the last frees it (R366). -/
def State.letGo (s : State) (k : Nat) : State :=
  if (s.slot k).holders ≤ 1 then s.freeSlot k else s.setSlot k fun f => { f with holders := f.holders - 1 }

/-! ### Deliveries (R357-R361) -/

/-- A gather group's record has been issued or dropped: the group is IDLE, DONE is set and GT_R0 to GT_R4 take the run's values (R594). -/
def State.gatherReleased (s : State) (g : Nat) : State :=
  ({ s with gt := { s.gt with groups := tupd {} s.gt.groups g fun x =>
      { x with st := 0, done := true, last := x.await, await := none } } }).note (GT_DONE_DONE.key 0 (g / 24)) .bits (2 ^ (g % 24))

/-- What a delivery held is released: its lease's charge, its frame-store slot, its place in the capture reserve, its serial record slot. -/
def State.releaseDeliv (s : State) (d : Deliv) : State :=
  let s := match d.lease with
    | some l => s.setLrt l fun x => { x with used := x.used - 1 }
    | none => s
  let s := match d.slot with
    | some k => s.letGo k
    | none => s
  let s := if d.rec_.capture && !d.rec_.serial then
      { s with rx := { s.rx with capHeld := tupd 0 s.rx.capHeld d.rec_.port (· - 1) } }
    else s
  let s := match d.gather with
    | some g => s.gatherReleased g
    | none => s
  match d.spSlot with
  | some p => { s with sp := tupd {} s.sp p fun x =>
      if d.rec_.capture then { x with capHeld := x.capHeld - 1 } else { x with recHeld := x.recHeld - 1 } }
  | none => s

/-- A drop is counted on its link (R357, R359). -/
def State.countDrop (s : State) (r reason : Nat) : State :=
  let link := s.homeOf r
  (((s.bump HP_DROP_CNT_COUNT link).wr HP_LASTDROP_REASON link reason).wr HP_LASTDROP_TENANT link (r / 256)).wr
    HP_LASTDROP_RING link (r % 256)

/-- A record dropped under R200: RC_DROP, LOST, and RQ_DROP at the first drop since arming or since the last record. -/
def State.dropRq (s : State) (r port : Nat) : State :=
  let told := (s.ring r).dropTold
  let s := (s.dropIn r).setRing r fun g => { g with dropTold := true }
  if told then s else s.event (r / 256) 0x0006 (r % 256) (leBytes 2 port)

/-- The index of a lease in its tenant's lease view: the tenant's leases before it (R94). -/
def State.leaseView (s : State) (l : Nat) : Nat :=
  match s.img.leases[l]? with
  | some x => ((s.img.leases.take l).filter fun y => y.tenant == x.tenant).length
  | none => 0

/-- A delivery is counted and reported as dropped for `reason` (R359); what it held is not yet released. -/
def State.reportDrop (s : State) (d : Deliv) (reason : Nat) : State :=
  let t := d.ring / 256
  let s := s.countDrop d.ring reason
  let s := if d.gather.isSome then s.bump GE_RECDROP_COUNT 0 else s
  let s := if (reason == 2 || reason == 8) && d.rec_.capture && !d.rec_.serial
    then s.addA CL_RX_CAPDROP_COUNT (d.rec_.port / 16) (d.rec_.port % 16) 1 else s
  match reason with
  | 1 => s.bump TEN_RXINACT_COUNT t
  | 2 =>
    let s := s.bump TEN_RXNORING_COUNT t
    s.eventLim t 0x0301 (d.ring % 256) (BitVec.ofNat 8 d.rec_.port ::
      leBytes 2 (match d.lease with | some l => s.leaseView l | none => 0xFFFF))
  | 5 => s.bump RC_DROP_COUNT d.ring
  | 6 => s.bump RC_DROP_COUNT d.ring
  | 7 => (s.dropIn d.ring).event t 0x0303 d.rec_.port (leBytes 3 d.rec_.seq)
  | _ => s.dropRq d.ring d.rec_.port

/-- A delivery is dropped and released. -/
def State.dropDeliv (s : State) (d : Deliv) (reason : Nat) : State := (s.reportDrop d reason).releaseDeliv d

/-- The bytes of a receive record (R198) with its generation bit and LOST. -/
def recBytes (x : RxRec) (g lost : Nat) : List Byte :=
  padTo 6 x.head ++ [BitVec.ofNat 8 x.port, BitVec.ofNat 8 (g + 2 * b2n x.capture + 4 * b2n x.serial)] ++ leBytes 8 x.ns
    ++ [BitVec.ofNat 8 x.frac, BitVec.ofNat 8 x.epoch] ++ leBytes 2 x.data.length ++ leBytes 4 x.seq ++ leBytes 2 lost
    ++ padTo 6 x.tail ++ padTo 64 x.data

/-- The record is written into its RQ, which is armed and has room. -/
def State.writeRec (s : State) (d : Deliv) : State :=
  let bytes := recBytes d.rec_ (s.genBit d.ring (s.prod d.ring)) (s.ring d.ring).lost
  let s := (s.writeEntry d.ring bytes).setRing d.ring fun g => { g with lost := 0, dropTold := false }
  let link := s.homeOf d.ring
  let s := if d.rec_.serial then s.bump HP_SER_CNT_COUNT link else s.bump HP_REC_CNT_COUNT link
  -- R392: the record of a failed frame, which has an error TYPE in its SEQ
  let s := if d.rec_.capture && !d.rec_.serial && decide (d.rec_.seq ≥ 2 ^ 24)
    then s.addA CL_RX_FAILREC_COUNT (d.rec_.port / 16) (d.rec_.port % 16) 1 else s
  s.releaseDeliv d

/-- A delivery reaches its write: dropped for reasons 1, 2 or 4, set aside under HOLD, or written (R359-R361). -/
def State.issueRq (s : State) (d : Deliv) : State :=
  let r := d.ring
  if !s.active (r / 256) (s.homeOf r) then s.dropDeliv d 1
  else if !s.armedAs r 2 then s.dropDeliv d 2
  else if s.fill r == s.ringN r || !(s.ring r).held.isEmpty then
    if s.flag RC_CTL_POLICY r then
      let s := s.setRing r fun g => { g with held := g.held ++ [.rq d] }
      (s.wr HP_HELD_RECORDS (s.homeOf r) (s.rd HP_HELD_RECORDS (s.homeOf r) + 1)).wr RC_OUTST_COUNT r
        (s.ring r).held.length
    else s.dropDeliv d 4
  else s.writeRec d

/-- An MSI-X message is issued on its link with the address and data of its table entry (R652). -/
def State.issueMsix (s : State) (link fn vec : Nat) : State :=
  let e := tget {} (s.func ⟨link, fn⟩).msix vec
  (s.emit (.msix link fn vec e.addr e.data)).spendCredit link

/-- A posted write is issued, or does what stands in its place. -/
def State.issuePost (s : State) (link : Nat) : Post → State
  | .cq c => s.issueCq c
  | .rq d => s.issueRq d
  | .eq t code object ns detail => s.issueEq t code object ns detail
  | .msix fn vec => s.issueMsix link fn vec

/-- A write joins the delivery engine of its link: issued at once, or waiting for posted-write credit (R374, R791). -/
def State.post (s : State) (link : Nat) (p : Post) : State :=
  if s.canPost link then s.issuePost link p
  else s.setLink link fun l => { l with waiting := l.waiting ++ [p] }

/-- Waiting writes leave in order while the link has credit (at most `n` of them). -/
def State.drainPosts (s : State) (link : Nat) : Nat → State
  | 0 => s
  | n + 1 =>
    match (s.link link).waiting with
    | [] => s
    | p :: rest =>
      if s.stalled link then s
      else ((s.setLink link fun l => { l with waiting := rest }).issuePost link p).drainPosts link n

/-- Records held under HOLD are written in order while their RQ has room, or dropped where their tenant is inactive by then
(R69, R360, R201); at most `n` of them. -/
def State.drainHeld (s : State) (r : Nat) : Nat → State
  | 0 => s
  | n + 1 =>
    match (s.ring r).held with
    | .rq d :: rest =>
      if s.fill r == s.ringN r || s.stalled (s.homeOf r) then s
      else
        let s := s.setRing r fun g => { g with held := rest }
        let s := (s.wr HP_HELD_RECORDS (s.homeOf r) (s.rd HP_HELD_RECORDS (s.homeOf r) - 1)).wr RC_OUTST_COUNT r rest.length
        (if s.active (r / 256) (s.homeOf r) then s.writeRec d else s.dropDeliv d 1).drainHeld r n
    | _ => s

end Sys2Proof.Machine
end

