-- ==== Sys2Proof/Machine/Registers.lean ====
section
/-! DEFINITION. The register window: address map, access filter, refused accesses, the effect of a write by access code, staged
copies, wide groups, votes (chapter 03, R71-R77). -/

namespace Sys2Proof.Machine

/-! ### The address map (R136-R147) -/

/-- A register: block, instance, page and offset in the active half; or its staged copy. -/
structure Loc where
  blk : Blk
  inst : Nat
  page : Nat
  off : Nat
  staged : Bool
  deriving DecidableEq, Repr

/-- What an offset of BAR0 reaches. -/
inductive Place where
  | reg (l : Loc)
  /-- A bit-alias word: the register and the bit. -/
  | alias_ (l : Loc) (bit : Nat)
  | lease (i off : Nat)
  | mbox (m w : Nat)
  | window (off : Nat)
  | absent
  deriving DecidableEq, Repr

/-- The stride of the partial-decode aliases of a block (R142). -/
def aliasStride : Blk → Nat
  | .ten => 0x100 | .tu => 0x100 | .pq => 0x100 | .fs => 0x80
  | .pm => 0x200 | .cu => 0x200 | .pr => 0x200 | .pl => 0x200 | .rg => 0x200 | .rl => 0x200
  | .fb => 0x200 | .sp => 0x200 | .db => 0x200 | .cl => 0x200 | .hp => 0x200
  | _ => 0x800

/-- The page of a block instance holds an RWB field (R120, R130). -/
def hasRwb : Blk → Nat → Bool
  | .fb, 0 => true | .fb, 2 => true | .sp, 0 => true | .db, 0 => true | .rl, _ => true | .pl, _ => true
  | _, _ => false

/-- A register of a page, at offset `o` of the 4 KiB page (R72, R142, R143): partial decode, and PG_CTL and PG_STAT in full. -/
def pageLoc (b : Blk) (inst page o : Nat) : Place :=
  let a := o % 0x800
  if hasRwb b page && decide (a ≥ 0x7F8) then .reg ⟨.pg, b.code * 1024 + inst, 0, a, decide (o ≥ 0x800)⟩
  else .reg ⟨b, inst, page, a % aliasStride b, decide (o ≥ 0x800)⟩

/-- The target number of vector `k` of a function: its targets in ascending number (R635). -/
def State.targetOf (s : State) (f : Func) (k : Nat) : Option Nat :=
  ((s.img.targets.filter fun x => x.2 == f).map (·.1))[k]?

/-- What offset `off` of BAR0 of function `f` reaches (R136-R139, R145-R147, R159). The numbers are those of the map. -/
def State.place (s : State) (f : Func) (off : Nat) : Place :=
  let t := (s.tenantNo f).getD 0
  let o := off % 0x1000
  let pg := fun (base : Nat) => (off - base) / 0x1000
  if off < 0x1000 then pageLoc .ten t 0 o
  else if off < 0x8000 then .absent
  else if off < 0x10000 then
    if o ≥ 0x800 then .reg ⟨.rc, t * 256 + pg 0x8000 * 32, 0, 0x3C, true⟩
    else .reg ⟨.rc, t * 256 + pg 0x8000 * 32 + o / 0x40, 0, o % 0x40, false⟩
  else if off < 0x20000 then
    let p := pg 0x10000
    if p = 3 then
      if o ≥ 0x800 then pageLoc .ic 0 15 o
      else match s.targetOf f (o / 0x20) with
        | some tgt => .reg ⟨.ic, tgt, 3, o % 0x20, false⟩
        | none => .reg ⟨.ic, 0, 15, 0x7FC, false⟩
    else pageLoc .ic (if p = 0 then t else 0) p o
  else if off < 0x30000 then pageLoc .fc 0 (pg 0x20000) o
  else if off < 0x34000 then pageLoc .pm 0 (pg 0x30000) o
  else if off < 0x38000 then .absent
  else if off < 0x3C000 then pageLoc .cu 0 (pg 0x38000) o
  else if off < 0x40000 then .absent
  else if off < 0x80000 then .lease ((off - 0x40000) / 0x40) (off % 0x40)
  else if off < 0x84000 then pageLoc .tu 0 (pg 0x80000) o
  else if off < 0x90000 then .absent
  else if off < 0xA0000 then
    if pg 0x90000 = 1 then pageLoc .gt t 1 o else pageLoc .ge 0 (pg 0x90000) o
  else if off < 0xB0000 then pageLoc .ru 0 (pg 0xA0000) o
  else if off < 0xB4000 then
    let p := pg 0xB0000
    if p = 1 ∨ p = 2 then pageLoc .pl (p - 1) 1 o else pageLoc .pr 0 p o
  else if off < 0xC0000 then .absent
  else if off < 0xC8000 then
    let p := pg 0xC0000
    if p ≥ 4 then pageLoc .rl (p - 4) 4 o else pageLoc .rg (if p = 3 then t else 0) p o
  else if off < 0x100000 then .absent
  else if off < 0x200000 then pageLoc .fb ((off - 0x100000) / 0x4000) (pg 0x100000 % 4) o
  else if off < 0x240000 then
    let n := (off - 0x200000) / 0x2000
    if n ≥ 24 then .absent else pageLoc .sp n (pg 0x200000 % 2) o
  else if off < 0x260000 then
    let n := (off - 0x240000) / 0x2000
    if n ≥ 12 then .absent else pageLoc .db n (pg 0x240000 % 2) o
  else if off < 0x280000 then .absent
  else if off < 0x2C0000 then pageLoc .pq (pg 0x280000) 0 o
  else if off < 0x2C8000 then
    if o % 0x80 ≥ 0xC then pageLoc .fs 0 0 o else pageLoc .fs (pg 0x2C0000) 0 o
  else if off < 0x2D0000 then .absent
  else if off < 0x2E0000 then pageLoc .cl ((off - 0x2D0000) / 0x4000) (pg 0x2D0000 % 4) o
  else if off < 0x2E8000 then pageLoc .hp ((off - 0x2E0000) / 0x4000) (pg 0x2E0000 % 4) o
  else if off < 0x400000 then .absent
  else if off < 0x600000 then
    if o ≥ 0x800 then .reg ⟨.pg, 0, 15, 0, true⟩
    else .mbox ((off - 0x400000) / 0x1000 * 16 + o / 0x80) (o % 0x80 / 4)
  else if off < 0x800000 then
    let sl := (off - 0x600000) / 0x4000
    let w := off % 0x4000 / 4
    if off % 0x4000 ≥ 0x3000 then .absent
    else if sl < 64 then .alias_ ⟨.fb, sl, 0, w / 24 * 4, false⟩ (w % 24)
    else if sl < 88 then .alias_ ⟨.sp, sl - 64, 0, w / 24 * 4, false⟩ (w % 24)
    else if sl < 96 then .absent
    else if sl < 108 then .alias_ ⟨.db, sl - 96, 0, w / 24 * 4, false⟩ (w % 24)
    else if sl = 112 then .alias_ ⟨.ic, t, 0, w / 24 * 4, false⟩ (w % 24)
    else if sl = 113 then .alias_ ⟨.fc, 0, 0, w / 24 * 4, false⟩ (w % 24)
    else .absent
  else if f.fn = 0 ∧ off ≥ 0x1000000 ∧ off < 0x2000000 then .window (off - 0x1000000)
  else .absent

/-- An offset of BAR0 at which nothing lies (R136, R138): where a command names an instance that the device does not have. -/
def absentOff : Nat := 0x260000

/-- The page number that the access filter judges for an offset: a bit-alias word is open as its page is (R148). -/
def filterPage (off : Nat) : Nat :=
  if off ≥ 0x600000 ∧ off < 0x800000 then
    let sl := (off - 0x600000) / 0x4000
    if sl < 64 then 0x100 + sl * 4
    else if sl < 88 then 0x200 + (sl - 64) * 2
    else if sl < 108 then 0x240 + (sl - 96) * 2
    else if sl = 112 then 0x10 else 0x20
  else off / 0x1000

/-- The owner of an FB port and of a serial port; none where the image names none (R23, R24). -/
def State.fbOwner (s : State) (p : Nat) : Nat := if s.flag FB_OWNER_VALID p then s.rd FB_OWNER_TENANT p else noTenant
def State.spOwner (s : State) (n : Nat) : Nat := if s.flag SP_OWNER_VALID n then s.rd SP_OWNER_TENANT n else noTenant

/-- A fixed entry of the access filter lets a tenant write a page (R76, R99, R386): a page that serves a port only its owner, a mailbox page
nobody. (DEDUCED, log entry 100.) -/
def State.mayWrite (s : State) (t page : Nat) : Bool :=
  if 0x100 ≤ page ∧ page < 0x200 then s.fbOwner ((page - 0x100) / 4) == t
  else if 0x200 ≤ page ∧ page < 0x230 then s.spOwner ((page - 0x200) / 2) == t
  else if 0x280 ≤ page ∧ page < 0x2C0 then s.fbOwner (page - 0x280) == t
  else !decide (0x400 ≤ page ∧ page < 0x600)

/-- The page is open to the function for the access (R75, R76 and the fixed entries of the access filter; R140 for the window). -/
def State.pageOpen (s : State) (f : Func) (off : Nat) (write : Bool) : Bool :=
  if off < 0x1000 ∨ (off ≥ 0x40000 ∧ off < 0x80000) then true
  else if off ≥ 0x1000000 then s.tenantNo f == some 0
  else
    (s.img.pages.any fun p => p.link == f.link && p.fn == f.fn && p.page == filterPage off && (p.write || !write))
      && (!write || s.mayWrite ((s.tenantNo f).getD noTenant) (filterPage off))

/-- The phases of CU_STAT (chapter 17). -/
def phRun : Nat := 0
def phCheck : Nat := 1
def phGap : Nat := 2
def phNoImg : Nat := 3

/-- A warm-restart gap runs (R758). -/
def State.inGap (s : State) : Bool := s.rd CU_STAT_PHASE 0 == phGap

/-- No image runs (R785). -/
def State.noImage (s : State) : Bool := s.rd CU_STAT_PHASE 0 == phNoImg

/-- A pin-control instruction in the instruction register acts: RESET_N is low, or no image runs, and the device has neither left reset nor
loaded an image since it was loaded (R838). -/
def State.tapActs (s : State) : Bool :=
  decide (3 ≤ s.tap.ir ∧ s.tap.ir ≤ 7) && s.tap.live && ((s.sys.down && s.sys.pin) || s.noImage)

/-- The device leaves reset or loads an image: a pin-control instruction is BYPASS from that instant (R838). -/
def State.tapEnd (s : State) : State :=
  let s := if s.tapActs then s.emit (.tapPins s.tap.ir false) else s
  { s with tap := { s.tap with live := decide (s.tap.ir < 3 ∨ 7 < s.tap.ir) } }

/-- The offsets that exist while no image runs (R785): tenant page, fault collector page 0, configuration unit pages, lease view,
image transfer window. -/
def recoveryOffset (off : Nat) : Bool :=
  decide (off < 0x1000 ∨ (0x20000 ≤ off ∧ off < 0x21000) ∨ (0x38000 ≤ off ∧ off < 0x3C000) ∨ (0x40000 ≤ off ∧ off < 0x80000)
    ∨ 0x1000000 ≤ off)

/-- Why an access is refused, with the reason code of ACCESS_DENIED (R75-R77, R101, R138, R140, R168, R206); `none` where it is not.
BAR0 is BAR number 0, the doorbell pages are BAR number 2. -/
def State.refusal (s : State) (a : Access) : Option Nat :=
  if a.bar = 0 then
    if s.noImage && !recoveryOffset a.off then some 1 else
    match s.place a.f a.off with
    | .absent => some 1
    | .window _ =>
      if !s.pageOpen a.f a.off a.write then some 0
      else if a.write && !(a.whole && decide (1 ≤ a.dwords ∧ a.dwords ≤ 128)) then some 2 else none
    | pl =>
      if !s.pageOpen a.f a.off a.write then some 0
      else
        let wideOk := match pl with
          | .lease _ _ => true
          | .mbox _ _ => true
          | _ => decide (0x400000 ≤ a.off ∧ a.off < 0x600000)
        if a.whole && a.dwords == 1 then none
        else if !a.write && wideOk && a.whole && decide (2 ≤ a.dwords ∧ a.off % 64 + a.dwords * 4 ≤ 64) then none
        else some 2
  else if a.bar = 2 ∧ a.write then
    if a.whole && a.dwords == 1 && a.off % 4096 == 0 then none else some 2
  else none

/-- A memory request reaches the function: its link is up, it serves a tenant and it is enabled, or in reset (R67, R69, R84). -/
def State.answers (s : State) (f : Func) : Bool :=
  (s.tenantNo f).isSome && ((s.func f).enabled || (s.func f).resetting) && (s.link f.link).up

/-- The request is answered with zeros and without any count: the function is in reset, or the link has not ended boot (R84, R784). -/
def State.quiet (s : State) (f : Func) : Bool := (s.func f).resetting || !(s.link f.link).cfg

/-- The device refuses an access: TEN_VIOL advances, ACCESS_DENIED is queued to the same tenant, a read returns 0 (R75-R77, R101). -/
def State.refuse (s : State) (a : Access) (reason : Nat) : State :=
  let t := (s.tenantNo a.f).getD 0
  let s := if a.write then s else s.emit (.readDone a.f a.off (List.replicate a.dwords 0))
  let s := s.bump TEN_VIOL_COUNT t
  s.event t 0x0001 a.bar (leBytes 8 a.off ++ [BitVec.ofNat 8 (b2n a.write), BitVec.ofNat 8 reason])

/-! ### The fields of a register -/

/-- The index of the register at a page and offset in a field's array, if the field lies there. -/
def Fld.indexAt (f : Fld) (page off : Nat) : Option Nat :=
  if f.cnt = 1 then (if f.page = page ∧ f.off = off then some 0 else none)
  else if page < f.page ∨ (page - f.page) * 0x800 + off < f.off then none
  else
    let d := (page - f.page) * 0x800 + off - f.off
    if d % f.str = 0 ∧ d / f.str < f.cnt then some (d / f.str) else none

/-- The fields of the register at a place, with their array index. -/
def Loc.fields (l : Loc) : List (Fld × Nat) :=
  l.blk.fields.filterMap fun f => (f.indexAt l.page l.off).map fun j => (f, j)

/-- The key of a register as a whole, for snapshots and holding copies. -/
def Loc.key (l : Loc) : Nat := ((l.blk.code * 16 + l.page) * 4096 + l.off) * 1048576 + l.inst

/-! ### Staged copies (R120-R135) -/

/-- The block instance as an index of PG_CTL and PG_STAT. -/
def pgInst : Inst → Nat
  | .fb p => Blk.fb.code * 1024 + p
  | .sp n => Blk.sp.code * 1024 + n
  | .rl n => Blk.rl.code * 1024 + n
  | .pl n => Blk.pl.code * 1024 + n
  | .db b => Blk.db.code * 1024 + b

/-- The block and number of an instance. -/
def instBlk : Inst → Blk × Nat
  | .fb p => (.fb, p)
  | .sp n => (.sp, n)
  | .rl n => (.rl, n)
  | .pl n => (.pl, n)
  | .db b => (.db, b)

/-- The staged copy of an RWB field (R127): it equals the active copy where nothing else is staged. -/
def State.stagedVal (s : State) (f : Fld) (i j : Nat) : Nat := tget (s.rdA f i j) s.staged (f.key i j)

/-- The staged copy takes a value; PEND becomes 1 (R123, R130), and a lost majority of the copy returns (R114, R115). -/
def State.stage (s : State) (f : Fld) (i j v : Nat) : State :=
  let k := f.key i j
  let s := { s with staged := tput s.staged k (v % 2 ^ f.w) }
  ((s.rewritten k true).noteWrite k true).put PG_STAT_PEND (f.blk.code * 1024 + i) true

/-- One RWB field of an instance at its boundary: the staged copy becomes active (R124). -/
def State.applyField (s : State) (f : Fld) (i j : Nat) : State :=
  let k := f.key i j
  let s := { (s.wrA f i j (s.stagedVal f i j)) with staged := tdel s.staged k }
  (s.rewritten k false).noteWrite k false

/-- Every RWB field of a block with every index of its array. -/
def rwbFields (b : Blk) : List (Fld × Nat) :=
  (b.fields.filter fun f => f.acc == .rwb).flatMap fun f => (List.range f.cnt).map fun j => (f, j)

/-- A boundary of an instance (R121-R126): where a write is pending, every staged field becomes active and APPLY_SEQ advances. -/
def State.applyStaged (s : State) (i : Inst) : State :=
  if s.flag PG_STAT_PEND (pgInst i) then
    let (b, n) := instBlk i
    let s := (rwbFields b).foldl (fun (s : State) (fj : Fld × Nat) => s.applyField fj.1 n fj.2) s
    (s.put PG_STAT_PEND (pgInst i) false).wr PG_STAT_APPLY_SEQ (pgInst i) (s.rd PG_STAT_APPLY_SEQ (pgInst i) + 1)
  else s

/-- DISCARD: every staged field of the instance takes its active value, PEND 0 (R130). -/
def State.discardStaged (s : State) (i : Inst) : State :=
  let (b, n) := instBlk i
  let keys := (rwbFields b).map fun fj => fj.1.key n fj.2
  ({ s with
    staged := keys.foldl (fun (t : Tbl Nat) k => tdel t k) s.staged
    copiesStaged := s.copiesStaged.filter fun e => !keys.contains e.1
    noMajStaged := s.noMajStaged.filter fun k => !keys.contains k }).put PG_STAT_PEND (pgInst i) false

/-! ### Writes by access code (R10, R13, R105, R114, R129, R150) -/

/-- A line of a bank may take a function code (R497): not a reserved one, nor one the image does not permit the line. -/
def State.codeOk (s : State) (b line code : Nat) : Bool :=
  code == 0 || code == 1
    || ((code == 2 || code == 5) && bitAt (s.rd DB_PERMOUT_LINES b) line)
    || (code == 3 && bitAt (s.rd DB_PERMCNT_LINES b) line)
    || (code == 4 && bitAt (s.rd DB_PERMTS_LINES b) line)

/-- The lines' function codes that a staged write of DB_FUNC sets: a code that a line may not take leaves the line's staged code as it was
(R497, R506); `m` are the bits the write reaches, and a write none of whose lines takes its code is ignored (R129). -/
def State.funcCodes (s : State) (b first old v m : Nat) : Option Nat :=
  let takes := fun (j : Nat) => bitsOf m (3 * j) 3 != 0 && s.codeOk b (first + j) (bitsOf v (3 * j) 3)
  if (List.range 8).any takes then
    some ((List.range 8).foldl (fun acc j => acc + bitsOf (if takes j then v else old) (3 * j) 3 * 2 ^ (3 * j)) 0)
  else none

/-- What a staged write leaves staged: `none` where the value lies outside the field's range and the write is ignored (R129, R13). -/
def State.stageable (s : State) (f : Fld) (i : Nat) (old v m : Nat) : Option Nat :=
  if f = SP_FRAME_DBITS ∧ v = 0 ∧ s.flag SP_CFG_ADDRM i then none
  else if f = SP_BITLEN_BITLEN then
    (if s.rd SP_BLMIN_BITLEN i ≤ v ∧ v ≤ s.rd SP_BLMAX_BITLEN i ∧ 80 ≤ v ∧ v ≤ 4266667 then some v else none)
  else if f = SP_FRAME_IDLEGAP ∨ f = SP_FRAME_TXGAP then (if v = 0 then none else some v)
  else if f = SP_FRAME_PARITY then (if v = 3 then none else some v)
  else if f = RL_CFG_RETRY then (if 10 ≤ v ∧ v ≤ 10000 then some v else none)
  else if f = DB_FUNC0_FUNC then s.funcCodes i 0 old v m
  else if f = DB_FUNC1_FUNC then s.funcCodes i 8 old v m
  else some v

/-- A run-time field takes a written value unless it is a reserved code or out of range (R13). (DESIGN CHOICE, log entry 42.) -/
def accepts (f : Fld) (v : Nat) : Bool :=
  if f = RU_RDSEL_TABLE ∨ f = IC_RDSEL_TABLE then decide (v ≤ 1)
  else if f = CL_RDSEL_TABLE then decide (v ≤ 2)
  else if f = IC_TTIME_TIME then decide (1 ≤ v ∧ v ≤ 16000)
  else if f = RR_CTL_OP then decide (1 ≤ v ∧ v ≤ 3)
  else if f = RR_DCMD_DOP then decide (v ≤ 2)
  else true

/-- One field of a written register: `x` is its part of the value and `m` the bits of it that the write reaches
(all of them, or one through a bit alias, R150); a field that it does not reach stays as it is (R151). -/
def State.writeField (s : State) (f : Fld) (i j x m : Nat) : State :=
  let old := s.rdA f i j
  let mixed := fun (o : Nat) => (o - (o &&& m)) + (x &&& m)
  if m = 0 then s else match f.acc with
  | .rw => if accepts f (mixed old) then s.wrA f i j (mixed old) else s
  | .w1c => s.wrA f i j (s.cleared f i j (x &&& m))
  | .w1s => s.wrA f i j (old ||| (x &&& m))
  | .rwb =>
    match s.stageable f i (s.stagedVal f i j) (mixed (s.stagedVal f i j)) m with
    | some v => s.stage f i j v
    | none => s
  | _ => s

/-- A register's fields take a written value; `bits` are the bit positions the write reaches. -/
def State.writeWord (s : State) (l : Loc) (v bits : Nat) : State :=
  l.fields.foldl (fun (s : State) (fj : Fld × Nat) => s.writeField fj.1 l.inst fj.2 (bitsOf v fj.1.lo fj.1.w) (bitsOf bits fj.1.lo fj.1.w)) s

/-! ### Wide groups (R107-R109, R152) -/

/-- The wide groups: (block, page, offset of the lowest register, number of registers). -/
def wideGroups : List (Blk × Nat × Nat × Nat) :=
  [(.rc, 0, 0x4, 3), (.tu, 0, 0x0, 3), (.tu, 0, 0x30, 3), (.tu, 0, 0x40, 3), (.tu, 2, 0x1C, 3), (.pr, 0, 0x14, 2),
   (.pr, 0, 0x1C, 2), (.cu, 2, 0x0, 3), (.gt, 1, 0xC, 5), (.pq, 0, 0xC, 2), (.fc, 0, 0x4, 7), (.db, 0, 0xB0, 4)]

/-- The wide group a register belongs to: the offset of its lowest register and their number. -/
def wideGroupOf (l : Loc) : Option (Nat × Nat) :=
  (wideGroups.find? fun g => g.1 == l.blk && g.2.1 == l.page && decide (g.2.2.1 ≤ l.off ∧ l.off < g.2.2.1 + 4 * g.2.2.2)).map
    fun g => (g.2.2.1, g.2.2.2)

/-- The part of a group that a function holds, in a list of parts. -/
def partOf (ps : List FnPart) (f : Func) (key : Nat) : Option Nat :=
  (ps.find? fun p => p.link == f.link && p.fn == f.fn && p.key == key).map (·.val)

/-- A function's part is replaced. -/
def putPart (ps : List FnPart) (f : Func) (key v : Nat) : List FnPart :=
  (ps.filter fun p => !(p.link == f.link && p.fn == f.fn && p.key == key)) ++ [⟨f.link, f.fn, key, v⟩]

/-- A write to a lower register of a writable wide group goes to the function's holding copy (R108). -/
def State.hold (s : State) (f : Func) (l : Loc) (v : Nat) : State :=
  { s with host := { s.host with holds := putPart s.host.holds f l.key v } }

/-- A write to the highest register commits the group: held parts and the last part together; the holding copy empties (R108). -/
def State.commitGroup (s : State) (f : Func) (l : Loc) (first n v : Nat) : State :=
  let lows := (List.range (n - 1)).map fun k => ({ l with off := first + 4 * k } : Loc)
  let s := lows.foldl (fun s x => match partOf s.host.holds f x.key with
    | some w => s.writeWord x w 0xFFFFFF
    | none => s) s
  let s := s.writeWord l v 0xFFFFFF
  { s with host := { s.host with holds := s.host.holds.filter fun p =>
      !(p.link == f.link && p.fn == f.fn && lows.any fun x => x.key == p.key) } }

/-- A function reset discards the function's snapshots and holding copies (R109). -/
def State.dropParts (s : State) (f : Func) : State :=
  let keep := fun (p : FnPart) => !(p.link == f.link && p.fn == f.fn)
  { s with host := { s.host with snaps := s.host.snaps.filter keep, holds := s.host.holds.filter keep } }

/-! ### The write of a register that has no row of its own -/

/-- Writes to descriptor ring control (R159, R161): RC_CTL and RC_BASE only while IDLE; HOME only by tenant 0. -/
def State.writeRing (s : State) (f : Func) (l : Loc) (v bits : Nat) : State :=
  let idle := s.rd RC_STAT_STATE l.inst == rcIdle
  if l.off = 0 then
    if !idle then s
    else s.writeWord l v (if l.inst / 256 = 0 then bits else clearBitAt bits 15)
  else if l.off = 4 ∨ l.off = 8 then (if idle then s.hold f l v else s)
  else if l.off = 0xC then (if idle then s.commitGroup f l 4 3 v else s)
  else s.writeWord l v bits

/-- The groups of a tenant's view (R598): DONE bits and SATSTK are cleared only for the tenant's own groups. -/
def State.writeGather (s : State) (l : Loc) (v bits : Nat) : State :=
  let own := fun (g : Nat) => match (s.img.groups.find? fun x => x.1 == g) with
    | some x => x.2.tenant == l.inst
    | none => false
  if 0x100 ≤ l.off ∧ l.off < 0x100 + 4 * 43 then
    (List.range 24).foldl (fun s j =>
      let g := (l.off - 0x100) / 4 * 24 + j
      if bitAt v j && bitAt bits j && own g && !s.justSet (GT_DONE_DONE.key 0 (g / 24)) (g % 24) then
        { s with gt := { s.gt with groups := tupd {} s.gt.groups g fun x => { x with done := false } } }
      else s) s
  else if l.off = 0x20 then
    let g := s.rd GT_RSEL_GROUP l.inst
    if bitAt v 23 && bitAt bits 23 && own g && !s.justSet (GT_GSTAT_SATSTK.key g 0) 0 then
      { s with gt := { s.gt with groups := tupd {} s.gt.groups g fun x => { x with satStk := false } } }
    else s
  else s.writeWord l v bits

/-- The effect of a write that the access filter passes (R10, R105, R108, R127, R161). -/
def State.writeReg (s : State) (f : Func) (l : Loc) (v : Nat) : State :=
  if l.staged then s
  else match l.blk with
    | .rc => s.writeRing f l v 0xFFFFFF
    | .gt => s.writeGather l v 0xFFFFFF
    | .tu =>
      if l.page = 0 ∧ (l.off = 0x30 ∨ l.off = 0x34 ∨ l.off = 0x40 ∨ l.off = 0x44) then s.hold f l v
      else if l.page = 0 ∧ (l.off = 0x38 ∨ l.off = 0x48) then s
      else s.writeWord l v 0xFFFFFF
    | .cu =>
      if l.page = 2 ∧ (l.off = 0 ∨ l.off = 4) then s.hold f l v
      else if l.page = 2 ∧ l.off = 8 then s.commitGroup f l 0 3 v
      else s.writeWord l v 0xFFFFFF
    -- registers that have rows of their own: IC_SETB, IC_CLRB, IC_SRC, IC_TCFG, DB_OC, FC_GTEST, TEN_SPTX_SEL, RR_CTL with GO
    | .ic => if l.page = 0 ∧ l.off < 0x200 ∨ l.page = 1 ∨ l.page = 2 ∨ (l.page = 3 ∧ l.off = 0) then s else s.writeWord l v 0xFFFFFF
    | .db => if l.page = 0 ∧ l.off = 0x34 then s else s.writeWord l v 0xFFFFFF
    | .fc => if l.page = 1 ∧ l.off % 0x20 = 0x14 then s else s.writeWord l v 0xFFFFFF
    | .ten => if l.off = 0x58 then s else s.writeWord l v 0xFFFFFF
    | .rg => if l.page = 3 ∧ l.off = 8 ∧ bitAt v 23 then s else s.writeWord l v 0xFFFFFF
    | _ => s.writeWord l v 0xFFFFFF

/-- A write of one register by a command of its own: discarded uncounted where the function is quiet, refused where the access filter
refuses it; during a gap `g` is what becomes of it, else `k` is its effect. -/
def State.hostWriteOr (s : State) (f : Func) (off : Nat) (g k : State → State) : State :=
  let a : Access := ⟨f, 0, off, true, 1, true, 0⟩
  if !s.answers f || s.quiet f then s
  else match s.refusal a with
    | some r => s.refuse a r
    | none => if s.inGap then g s else k s

/-- A write of one register that is discarded and counted in CU_GAPWR during a gap (R760). -/
def State.hostWrite (s : State) (f : Func) (off : Nat) (k : State → State) : State :=
  s.hostWriteOr f off (fun s => s.bump CU_GAPWR_COUNT 0) k

/-- What reads normally during a gap: TEN_ID and CU_STAT (R760), and the image transfer window, which holds no register (R139, R140). -/
def gapReads : Place → Bool
  | .reg l => (l.blk == .ten || (l.blk == .cu && l.page == 0)) && l.off == 0 && !l.staged
  | .window _ => true
  | _ => false

/-- A read of DWORDs of the register window: zeros where the function is quiet, refused where the access filter refuses it, all ones
during a gap (R760); else `k` gives the state after the read's effect and the slots returned, lowest address first. -/
def State.hostReads (s : State) (a : Access) (k : State → State × List Nat) : State :=
  if !s.answers a.f then s
  else if s.quiet a.f then s.emit (.readDone a.f a.off (List.replicate a.dwords 0))
  else match s.refusal a with
    | some r => s.refuse a r
    | none =>
      if s.inGap && !gapReads (s.place a.f a.off) then s.emit (.readDone a.f a.off (List.replicate a.dwords 0xFFFFFFFF))
      else
        let (s, vs) := k s
        s.emit (.readDone a.f a.off vs)

/-- A read of one register by a command of its own; `k` gives the state after the read's effect and the value returned. -/
def State.hostRead (s : State) (f : Func) (off : Nat) (k : State → State × Nat) : State :=
  s.hostReads ⟨f, 0, off, false, 1, true, 0⟩ fun s =>
    let (s, v) := k s
    (s, [v])

/-- A write of one word of the MSI-X table (PCI Express Base 4.0; R71, R74): address low and high, data, vector control. -/
def State.writeMsix (s : State) (f : Func) (off v : Nat) : State :=
  if off ≥ 0x2000 then s
  else s.setFunc f fun g => { g with msix := tupd {} g.msix (off / 16) fun e =>
    match off % 16 / 4 with
    | 0 => { e with addr := e.addr / 2 ^ 32 * 2 ^ 32 + v % 2 ^ 32 }
    | 1 => { e with addr := e.addr % 2 ^ 32 + v % 2 ^ 32 * 2 ^ 32 }
    | 2 => { e with data := v % 2 ^ 32 }
    | _ => { e with mask := bitAt v 0 } }


end Sys2Proof.Machine
end

