-- ==== Sys2Proof/Machine/Irq.lean ====
section
/-! DEFINITION. The interrupt controller (chapter 14): sources, targets, claims, messages, coalescing. -/

namespace Sys2Proof.Machine

/-! ### Source inputs and owners (R632-R634) -/

/-- The bits of FB_EVT behind source `i` of an FB port (R290). -/
def fbSourceBits (i : Nat) : Nat := [0b1011, 0b100, 0b110000, 0b1000000, 0b11000000000000, 0b111000000000, 0b110000000, 0b100000000000000][i]?.getD 0

/-- The bits of SP_EVT behind source `i` of an SP port (R510). -/
def spSourceBits (i : Nat) : Nat := [0b111, 0b1000, 0b10010000, 0b1100000][i]?.getD 0

/-- The bits of DB_EVT behind sources 2 to 7 of a bank (R510). -/
def dbSourceBits (i : Nat) : Nat := [0, 0, 0b1100000000, 0b11, 0b100, 0b11000, 0b100000, 0b11000000][i]?.getD 0

/-- The bits of TU_EVT behind source `i` of the time unit (R470). -/
def tuSourceBits (i : Nat) : Nat := [0b111, 0b1000, 0b10000, 0b100000, 0b10001000000, 0b10000000, 0b100000000, 0b101000000000][i]?.getD 0

/-- The bits of PR_EVT behind source `i` of the pair unit (R630). -/
def prSourceBits (i : Nat) : Nat := [0b1, 0b110, 0b1000, 0b10000, 0b100000, 0b11000000, 0b1100000000, 0b110000000000][i]?.getD 0

/-- The level that the driving bits give a source's input (R290, R510, R571, R630, R470, R599, R701, R177). -/
def State.wire (s : State) (k : Nat) : Bool :=
  if k < 512 then (s.rd FB_EVT_EVT (k / 8) &&& s.rd FB_IEN_IEN (k / 8) &&& fbSourceBits (k % 8)) != 0
  else if k < 608 then
    let n := (k - 512) / 4
    (s.rd SP_EVT_EVT n &&& s.rd SP_IEN_IEN n &&& spSourceBits ((k - 512) % 4)) != 0
  else if k < 704 then
    let b := (k - 608) / 8
    let i := (k - 608) % 8
    if i < 2 then
      ((s.rd DB_EDGE_R_EDGE b ||| s.rd DB_EDGE_F_EDGE b) &&& s.rd DB_EIEN_EIEN b) / 2 ^ (8 * i) % 256 != 0
    else (s.rd DB_EVT_EVT b &&& s.rd DB_IEN_IEN b &&& dbSourceBits i) != 0
  else if k < 720 then bitAt (s.rd RG_EVT_EVT 0 &&& s.rd RG_IEN_IEN 0) (k - 704)
  else if k < 728 then (s.rd PR_EVT_EVT 0 &&& s.rd PR_IEN_IEN 0 &&& prSourceBits (k - 720)) != 0
  else if k < 736 then (s.rd TU_EVT_EVT 0 &&& s.rd TU_IEN_IEN 0 &&& tuSourceBits (k - 728)) != 0
  else if k < 752 then
    s.img.groups.any fun g => g.2.valid && g.2.srcen && g.2.srci == k - 736 && (s.grp g.1).done
  else if k < 768 then (s.rdA FC_GEVT_EVT 0 (k - 752) &&& s.rdA FC_GIEN_IEN 0 (k - 752)) != 0
  else (List.range 11).any fun j => s.rdA TEN_NOTE_NOTE (k - 768) j != 0

/-- The owner of a source (R634). -/
def State.srcOwner (s : State) (k : Nat) : Option Nat :=
  if k < 512 then (if s.flag FB_OWNER_VALID (k / 8) then some (s.rd FB_OWNER_TENANT (k / 8)) else none)
  else if k < 608 then
    let n := (k - 512) / 4
    if s.flag SP_OWNER_VALID n then some (s.rd SP_OWNER_TENANT n) else none
  else if k < 704 then
    let b := (k - 608) / 8
    if s.flag DB_CFG_PRESENT b then some (s.rd DB_OWNER_TENANT b) else none
  else if k < 720 then some (s.rd RG_CFG_RGOWNER 0)
  else if k < 728 then some (s.rd PR_CFG_POWNER 0)
  else if k < 736 then some (s.rd TU_CFG_TOWNER 0)
  else if k < 752 then
    (s.img.groups.find? fun g => g.2.valid && g.2.srcen && g.2.srci == k - 736).map fun g => g.2.tenant
  else if k < 768 then some (s.rdA FC_GCFG_GOWNER 0 (k - 752))
  else if k < 1024 then some (k - 768) else none

/-! ### Targets (R635, R643, R644) -/

/-- The function a target belongs to. -/
def State.targetFunc (s : State) (g : Nat) : Option Func := (s.img.targets.find? fun x => x.1 == g).map (·.2)

/-- The MSI-X vector of a target: how many lower targets its function has (R635). -/
def State.vecOf (s : State) (g : Nat) : Nat :=
  match s.targetFunc g with
  | some f => (s.img.targets.filter fun x => x.2 == f && decide (x.1 < g)).length
  | none => 0

/-- The running priority: the largest CPRI in the active set (R643). -/
def State.rpri (s : State) (g : Nat) : Nat := (s.rd IC_TACT_ACT g * 2).log2

/-- The sources that are PENDING at the target above THR and RPRI. -/
def State.candidates (s : State) (g : Nat) : List Nat :=
  let m := max (s.rd IC_TCFG_THR g) (s.rpri g)
  (List.range 1024).filter fun k =>
    s.rdA IC_SRC_STATE 0 k == 1 && s.rdA IC_SRC_TARGET 0 k == g && decide (s.rdA IC_SRC_PRI 0 k > m)

/-- The target is deliverable (R644). -/
def State.deliverable (s : State) (g : Nat) : Bool := !(s.candidates g).isEmpty

/-- A hold of R650 other than the coalescing window, or a warm-restart gap (R659). -/
def State.msgHeld (s : State) (g : Nat) : Bool :=
  match s.targetFunc g with
  | none => true
  | some f =>
    let x := s.func f
    (tget {} x.msix (s.vecOf g)).mask || x.fmask || !x.msixEn || !x.busMaster || x.d3hot || (s.link f.link).l1
      || !(s.link f.link).up || s.inGap

/-- The PBA bit of a target's vector (R650). -/
def State.pbaBit (s : State) (g : Nat) : Bool :=
  match s.targetFunc g with
  | none => false
  | some f =>
    let x := s.func f
    ((tget {} x.msix (s.vecOf g)).mask || x.fmask || !x.msixEn) && s.deliverable g

/-- The message of a target is sent: ARMED clears, and the counters advance (R650, R665). -/
def State.sendMsg (s : State) (g : Nat) : State :=
  match s.targetFunc g with
  | none => s
  | some f =>
    let others := ((s.link f.link).waiting.filter fun p => match p with | .msix _ _ => true | _ => false).length
    let s := ((s.put IC_TSTAT_ARMED g false).bump IC_TMSG_COUNT g).bump IC_MSG_COUNT 0
    let s := (s.wr IC_HELDMAX_COUNT 0 (max (s.rd IC_HELDMAX_COUNT 0) others)).note (IC_HELDMAX_COUNT.key 0 0) .largest others
    let s := { s with ic := { s.ic with kept := s.ic.kept.filter (· != g) } }
    s.post f.link (.msix f.fn (s.vecOf g))

/-- The open window of a target. -/
def State.window (s : State) (g : Nat) : Option WinSt := tget none s.ic.win g

/-- Opening, counting in or closing a window; WIN follows. -/
def State.setWindow (s : State) (g : Nat) (w : Option WinSt) : State :=
  ({ s with ic := { s.ic with win := tset none s.ic.win g w } }).put IC_TSTAT_WIN g w.isSome

/-- A deliverable, ARMED target whose window does not hold it: the message leaves, or stays kept behind another hold (R651, R653). -/
def State.release (s : State) (g : Nat) : State :=
  if !s.msgHeld g then s.sendMsg g
  else if s.flag IC_TCFG_COAL g && !(s.ic.kept.contains g) then { s with ic := { s.ic with kept := s.ic.kept ++ [g] } }
  else s

/-- A target is judged (R650, R651, R653, R654). -/
def State.judge (s : State) (g : Nat) : State :=
  if !s.deliverable g then s.setWindow g none
  else if !s.flag IC_TSTAT_ARMED g then s
  else if !s.flag IC_TCFG_COAL g || s.ic.kept.contains g then
    let s := s.setWindow g none
    if s.msgHeld g then s else s.sendMsg g
  else
    let w := (s.window g).getD ⟨1, s.time.ivl⟩
    if w.count ≥ s.rd IC_TCFG_CNT g then (s.setWindow g none).release g else s.setWindow g (some w)

/-- A coalescing event at a target: an open window counts it (R653). -/
def State.coalesce (s : State) (g : Nat) : State :=
  match s.window g with
  | some w => s.setWindow g (some { w with count := w.count + 1 })
  | none => s

/-! ### Source states (R637-R642) -/

/-- The source is pending (R638). -/
def State.srcPending (s : State) (k : Nat) : Bool :=
  s.rdA IC_SRC_PRI 0 k != 0 && (s.rdA IC_SRC_P 0 k != 0 || (s.rdA IC_SRC_SENSE 0 k == 0 && s.rdA IC_SRC_INPUT 0 k != 0))

/-- A source becomes pending: a coalescing event, and the exit from L1 of its target's link (R640, R655). -/
def State.becamePending (s : State) (k : Nat) : State :=
  let g := s.rdA IC_SRC_TARGET 0 k
  let s := s.coalesce g
  match s.targetFunc g with
  | none => s
  | some f =>
    if (s.link f.link).l1 then
      let s := s.put IC_TSTAT_WAKE g true
      if (s.link f.link).exiting then s
      else (s.setLink f.link fun l => { l with exiting := true }).bump IC_WAKES_COUNT 0
    else s

/-- A source takes the state its pending condition gives (R640). -/
def State.settle (s : State) (k : Nat) : State :=
  let st := s.rdA IC_SRC_STATE 0 k
  if s.srcPending k then
    if st = 0 then (s.wrA IC_SRC_STATE 0 k 1).becamePending k
    else if st = 2 then (s.wrA IC_SRC_STATE 0 k 3).becamePending k
    else s
  else if st = 1 then s.wrA IC_SRC_STATE 0 k 0
  else if st = 3 then s.wrA IC_SRC_STATE 0 k 2
  else s

/-- A source and its target are brought up to date. -/
def State.settleAll (s : State) (k : Nat) : State := (s.settle k).judge (s.rdA IC_SRC_TARGET 0 k)

/-- P of a source is set as by its set address; nothing while PRI is 0 (R641, R411). -/
def State.setPend (s : State) (k : Nat) : State :=
  if k ≥ 1024 || s.rdA IC_SRC_PRI 0 k == 0 then s else (s.wrA IC_SRC_P 0 k 1).settleAll k

/-- P of a source is cleared (R641). -/
def State.clrPend (s : State) (k : Nat) : State :=
  if k ≥ 1024 || s.justSet (IC_SRC_P.key 0 k) 0 then s else (s.wrA IC_SRC_P 0 k 0).settleAll k

/-- A source's input takes its level: an event that SENSE selects sets P while PRI is 1 or more (R637). An edge, and a source that becomes
PENDING by its input, are noted: a clear or a claim of the same instant comes first (R663). -/
def State.inputChange (s : State) (k : Nat) : State :=
  let new := s.wire k
  if k ≥ 1024 || (s.rdA IC_SRC_INPUT 0 k != 0) == new then s
  else
    let sense := s.rdA IC_SRC_SENSE 0 k
    let hit := (sense == 1 && new) || (sense == 2 && !new) || sense == 3
    let idle := s.rdA IC_SRC_STATE 0 k == 0
    let s := s.wrA IC_SRC_INPUT 0 k (b2n new)
    let s := if hit && s.rdA IC_SRC_PRI 0 k != 0 then (s.wrA IC_SRC_P 0 k 1).note (IC_SRC_P.key 0 k) .bits 1 else s
    let s := s.settleAll k
    if idle && s.rdA IC_SRC_STATE 0 k == 1 then s.note (IC_SRC_STATE.key 0 k) .bits 1 else s

/-- The Interrupt domain is back: every input takes its wire's level, without an event (R705). -/
def State.senseAll (s : State) : State :=
  (List.range 1024).foldl (fun (s : State) k => (s.wrA IC_SRC_INPUT 0 k (b2n (s.wire k))).settleAll k) s

/-- ARMED becomes 1 and the target is judged (R651). -/
def State.rearm (s : State) (g : Nat) : State := (s.put IC_TSTAT_ARMED g true).judge g

/-! ### Claim and completion (R645-R648) -/

/-- The source a claim takes: the highest PRI, the lowest number among equals. -/
def State.best (s : State) : List Nat → Option Nat
  | [] => none
  | k :: ks => match s.best ks with
    | none => some k
    | some k' => if s.rdA IC_SRC_PRI 0 k' > s.rdA IC_SRC_PRI 0 k then some k' else some k

/-- The sources on which a claim decides: those pending before this instant (R662, R663). -/
def State.claimable (s : State) (g : Nat) : List Nat := (s.candidates g).filter fun k => !s.justSet (IC_SRC_STATE.key 0 k) 0

/-- A read of IC_CLAIM of target `g`: the state after it and the value returned (R645, R651); an edge of the same instant comes after it (R663). -/
def State.claim (s : State) (g : Nat) : State × Nat :=
  match s.best (s.claimable g) with
  | none => (s.rearm g, 0)
  | some k =>
    let pri := s.rdA IC_SRC_PRI 0 k
    let edge := s.justSet (IC_SRC_P.key 0 k) 0
    let again := edge || (s.rdA IC_SRC_SENSE 0 k == 0 && s.rdA IC_SRC_INPUT 0 k != 0)
    let s := (s.wrA IC_SRC_P 0 k (b2n edge)).wrA IC_SRC_STATE 0 k (if again then 3 else 2)
    let s := { s with ic := { s.ic with cpri := tset 0 s.ic.cpri k pri } }
    let s := s.wr IC_TACT_ACT g (setBitAt (s.rd IC_TACT_ACT g) (pri - 1))
    (s.rearm g, 2 ^ 23 + pri * 2 ^ 16 + k)

/-- A completion of source `k` at target `g` by tenant `t` (R647, R648, R666). -/
def State.finish (s : State) (t g k : Nat) : State :=
  let st := s.rdA IC_SRC_STATE 0 k
  if k < 1024 ∧ st ≥ 2 ∧ s.rdA IC_SRC_TARGET 0 k = g then
    let c := tget 0 s.ic.cpri k
    let s := (s.wrA IC_SRC_STATE 0 k (if st = 3 then 1 else 0)).wr IC_TACT_ACT g (clearBitAt (s.rd IC_TACT_ACT g) (c - 1))
    ({ s with ic := { s.ic with cpri := tset 0 s.ic.cpri k 0 } }).rearm g
  else
    let mine := s.srcOwner k == some t && s.rdA IC_SRC_TARGET 0 k == g
    ((s.bump IC_TBADC_COUNT g).bump IC_BADC_COUNT 0).eventLim t 0x0A01 g (leBytes 2 k ++ [if mine then 2 else 1])

/-! ### Resets (R657, R658) -/

/-- A source takes the values of R657. -/
def State.resetSrc (s : State) (k : Nat) : State :=
  let s := (((s.wrA IC_SRC_P 0 k 0).wrA IC_SRC_PRI 0 k 0).wrA IC_SRC_SENSE 0 k 0).wrA IC_SRC_STATE 0 k 0
  let s := s.wrA IC_SRC_TARGET 0 k (tget 0 s.img.defTargets k)
  { s with ic := { s.ic with cpri := tset 0 s.ic.cpri k 0 } }

/-- A target takes the values of R657. -/
def State.resetTarget (s : State) (g : Nat) : State :=
  let s := (((s.wr IC_TCFG_THR g 0).wr IC_TCFG_COAL g 0).wr IC_TCFG_CNT g 1).wr IC_TTIME_TIME g 1
  let s := ((s.put IC_TSTAT_ARMED g true).wr IC_TACT_ACT g 0).setWindow g none
  { s with ic := { s.ic with kept := s.ic.kept.filter (· != g) } }

/-- A function reset in the controller: every source routed to a target of the function, then its targets (R657). -/
def State.resetIrq (s : State) (f : Func) : State :=
  let mine := (s.img.targets.filter fun x => x.2 == f).map (·.1)
  let s := ((List.range 1024).filter fun k => mine.contains (s.rdA IC_SRC_TARGET 0 k)).foldl State.resetSrc s
  mine.foldl State.resetTarget s

/-- The targets of a link, judged once more. -/
def State.judgeWhere (s : State) (p : Func → Bool) : State :=
  ((s.img.targets.filter fun x => p x.2).map (·.1)).foldl State.judge s

/-! ### Commands -/

/-- Offset of a register of the interrupt controller: its page and offset in the page. -/
def icOff (page o : Nat) : Nat := 0x10000 + page * 0x1000 + o

/-- The tenant of a function, 0 where it has none. -/
def State.tn (s : State) (f : Func) : Nat := (s.tenantNo f).getD 0

/-- SOURCE_INPUT_CHANGE: the input of a source takes the level its driving bits give it (R633, R637); with the Interrupt
domain off no source is sensed (R703). -/
def execSourceInputChange (t src : Nat) (s : State) : Host.Outcome State Fault Refusal :=
  let s := s.tick t
  .next (if s.domOn 138 then s.inputChange src else s)

/-- Each source named by a bit of a bitmap word that the tenant owns (R641, R642). -/
def State.eachBit (s : State) (t i v : Nat) (g : State → Nat → State) : State :=
  (List.range 24).foldl (fun s j =>
    if bitAt v j && decide (24 * i + j < 1024) && s.srcOwner (24 * i + j) == some t then g s (24 * i + j) else s) s

/-- IC_SETB: a 1 written to bit j of IC_SETBi sets P of source 24i + j (R641, R642). -/
def execIcSetb (t : Nat) (f : Func) (i v : Nat) (s : State) : Host.Outcome State Fault Refusal :=
  .next ((s.tick t).hostWrite f (icOff 0 (4 * i)) fun s => s.eachBit (s.tn f) i v State.setPend)

/-- IC_CLRB: a 1 written to bit j of IC_CLRBi clears P of source 24i + j. -/
def execIcClrb (t : Nat) (f : Func) (i v : Nat) (s : State) : Host.Outcome State Fault Refusal :=
  .next ((s.tick t).hostWrite f (icOff 0 (0x100 + 4 * i)) fun s => s.eachBit (s.tn f) i v State.clrPend)

/-- IC_SETN: P of one source by number. -/
def execIcSetn (t : Nat) (f : Func) (v : Nat) (s : State) : Host.Outcome State Fault Refusal :=
  .next ((s.tick t).hostWrite f (icOff 0 0x1E0) fun s =>
    if s.srcOwner (v % 1024) == some (s.tn f) then s.setPend (v % 1024) else s)

/-- IC_CLRN: one source by number. -/
def execIcClrn (t : Nat) (f : Func) (v : Nat) (s : State) : Host.Outcome State Fault Refusal :=
  .next ((s.tick t).hostWrite f (icOff 0 0x1E4) fun s =>
    if s.srcOwner (v % 1024) == some (s.tn f) then s.clrPend (v % 1024) else s)

/-- IC_CLAIM: a read claims; a vector at or above the Table Size reads 0 (R645, R664). (DEDUCED, log entry 27.) -/
def execIcClaim (t : Nat) (f : Func) (vec : Nat) (s : State) : Host.Outcome State Fault Refusal :=
  .next ((s.tick t).hostRead f (icOff 3 (vec * 0x20 + 8)) fun s =>
    match s.targetOf f vec with
    | some g => s.claim g
    | none => (s, 0))

/-- IC_COMPLETE: a write ends a source's service, or counts (R647, R648). -/
def execIcComplete (t : Nat) (f : Func) (vec v : Nat) (s : State) : Host.Outcome State Fault Refusal :=
  .next ((s.tick t).hostWrite f (icOff 3 (vec * 0x20 + 0xC)) fun s =>
    match s.targetOf f vec with
    | some g => s.finish (s.tn f) g (v % 1024)
    | none => s)

/-- The effect of a write of IC_SRC by the source's owner (R638, R649): TARGET only while the source is not in service and only to a
target of a function of the owner, counted in IC_BADTGT otherwise; PRI 0 clears P. -/
def State.writeSrc (s : State) (t k v : Nat) : State :=
  let st := s.rdA IC_SRC_STATE 0 k
  let old := s.rdA IC_SRC_TARGET 0 k
  let want := bitsOf v 8 9
  let own := match s.targetFunc want with
    | some f => s.tenantNo f == some t
    | none => false
  let s := (s.wrA IC_SRC_SENSE 0 k (bitsOf v 4 2)).wrA IC_SRC_PRI 0 k (bitsOf v 0 4)
  let s := if bitsOf v 0 4 = 0 then s.wrA IC_SRC_P 0 k 0 else s
  let s := if st ≥ 2 then s
    else if own then
      let s := s.wrA IC_SRC_TARGET 0 k want
      if want ≠ old ∧ st = 1 ∧ s.srcPending k then s.coalesce want else s
    else s.bump IC_BADTGT_COUNT t
  (s.settleAll k).judge old

/-- IC_SRC: the owner sets priority, sensing and target; another writer changes nothing (R664). -/
def execIcSrc (t : Nat) (f : Func) (src v : Nat) (s : State) : Host.Outcome State Fault Refusal :=
  .next ((s.tick t).hostWrite f (icOff (1 + src / 512) (4 * (src % 512))) fun s =>
    if s.srcOwner src == some (s.tn f) then s.writeSrc (s.tn f) src v else s)

/-- IC_TCFG: threshold and coalescing; CNT 0 is ignored; ARMED is set (R651, R654). -/
def execIcTcfg (t : Nat) (f : Func) (vec v : Nat) (s : State) : Host.Outcome State Fault Refusal :=
  .next ((s.tick t).hostWrite f (icOff 3 (vec * 0x20)) fun s =>
    match s.targetOf f vec with
    | some g =>
      let s := if bitsOf v 8 8 = 0 then s else s.wr IC_TCFG_CNT g (bitsOf v 8 8)
      let s := (s.put IC_TCFG_COAL g (bitAt v 4)).wr IC_TCFG_THR g (bitsOf v 0 4)
      (if bitAt v 4 then s else s.setWindow g none).rearm g
    | none => s)

/-- COALESCE_TIMEOUT: the window closes TIME µs of the interval count after it opened (R653). -/
def execCoalesceTimeout (t tgt : Nat) (s : State) : Host.Outcome State Fault Refusal :=
  let s := s.tick t
  match s.window tgt with
  | some w =>
    if s.time.ivl ≥ w.at_ + s.rd IC_TTIME_TIME tgt * 1000 * ivlNs then
      let s := s.setWindow tgt none
      .next (if s.deliverable tgt && s.flag IC_TSTAT_ARMED tgt then s.release tgt else s)
    else .next s
  | none => .next s

end Sys2Proof.Machine
end

