-- ==== Sys2Proof/Machine/PciConfig.lean ====
section
/-! DEFINITION. Configuration space, BARs, and the MSI-X table and PBA as a host reads and writes them (R61-R67, R71, R74, R224, R656). -/

namespace Sys2Proof.Machine

/-- In an `Access`, the BAR number that stands for the configuration space of a function. (DESIGN CHOICE, log entry 94.) -/
def cfgSpace : Nat := 7

/-! ### Where the capabilities lie: the spec gives no offsets (log entry 94) -/

def capPm : Nat := 0x40
def capMsix : Nat := 0x48
def capExp : Nat := 0x60
def capAer : Nat := 0x100
def capSerial : Nat := 0x148
def capAri : Nat := 0x154
def capSriov : Nat := 0x15C
def capAcs : Nat := 0x19C
def capLtr : Nat := 0x1A4

/-- The size of the BAR pair that BAR number `2 * k` begins: a PF's and a VF's (R71). -/
def barSize (vf : Bool) (k : Nat) : Nat :=
  if k = 0 then (if vf then 8 * 2 ^ 20 else 32 * 2 ^ 20) else if k = 1 then 2 ^ 20 else 16 * 2 ^ 10

/-- A word of a BAR pair: 64-bit and non-prefetchable, the bits below its size read 0 (R71). -/
def barWord (v : Nat) (vf : Bool) (j : Nat) : Nat :=
  if j % 2 = 0 then v / barSize vf (j / 2) * barSize vf (j / 2) % 2 ^ 32 + 4 else v % 2 ^ 32

/-- TotalVFs and InitialVFs of a link (R66): 0 while no image runs (R785). -/
def State.totalVfs (s : State) (link : Nat) : Nat :=
  if s.noImage then 0 else if link = 0 then s.img.split else 255 - s.img.split

/-- The exponent of a size of 128 bytes and up, as Device Control codes it. -/
def sizeCode (n : Nat) : Nat := (n / 128).log2

/-- The header of an extended capability: its ID, version 1 and the next one. -/
def extHeader (id next : Nat) : Nat := id + 2 ^ 16 + next * 2 ^ 20

/-- A word of the header of configuration space of function `f`, below offset 0x40 (R61, R64, R67, R71). -/
def State.headerWord (s : State) (f : Func) (r : Nat) : Nat :=
  let g := s.func f
  let pf := f.fn == 0
  if r = 0 then (if pf then 0x6496 else 0x6497) * 2 ^ 16 + Config.vendorId % 2 ^ 16
  else if r = 4 then 2 ^ 20 + b2n g.busMaster * 4 + b2n g.enabled * 2
  else if r = 8 then 0x0C0900 * 256 + Config.revision % 256
  else if 0x10 ≤ r ∧ r < 0x28 then (if pf && s.bearing f.link then barWord (tget 0 g.bars r) false ((r - 0x10) / 4) else 0)
  else if r = 0x2C then s.img.ssid % 2 ^ 16 * 2 ^ 16 + s.img.ssvid % 2 ^ 16
  else if r = 0x34 then (if pf then capPm else capMsix)
  else 0

/-- A word of the MSI-X capability (R61, R74). -/
def State.msixCapWord (s : State) (f : Func) (o : Nat) : Nat :=
  let g := s.func f
  let n := (s.img.targets.filter fun x => x.2 == f).length
  if o = 0 then 0x11 + capExp * 2 ^ 8 + (n - 1) % 2 ^ 11 * 2 ^ 16 + b2n g.fmask * 2 ^ 30 + b2n g.msixEn * 2 ^ 31
  else if o = 4 then 4
  else 0x2000 + 4

/-- A word of the PCI Express capability (R61, R224, R656): Function Level Reset, Max Payload Size 512, link speeds and widths, ASPM L1 with its
exit latency, Completion Timeout ranges A and B, LTR, 10-bit tags. -/
def State.expCapWord (s : State) (f : Func) (o : Nat) : Nat :=
  let l := s.link f.link
  let pf := f.fn == 0
  if o = 0 then 0x10 + 2 * 2 ^ 16
  else if o = 4 then 2 + 2 ^ 15 + 2 ^ 28
  else if o = 8 then (if pf then sizeCode l.mps * 2 ^ 5 + sizeCode l.mrrs * 2 ^ 12 else 0)
  else if o = 0xC then 4 + 4 * 2 ^ 4 + 2 * 2 ^ 10 + 2 * 2 ^ 15
  else if o = 0x10 then b2n l.aspm * 2
  else if o = 0x24 then 3 + 2 ^ 11 + 2 ^ 17
  else if o = 0x28 then l.ctoVal
  else if o = 0x2C then 0x1E
  else 0

/-- A word of the SR-IOV capability of a PF (R66, R71). -/
def State.sriovWord (s : State) (f : Func) (o : Nat) : Nat :=
  let l := s.link f.link
  let n := s.totalVfs f.link
  if o = 0 then extHeader 0x10 capAcs
  else if o = 8 then b2n (l.numVfs != 0)
  else if o = 0xC then n + n * 2 ^ 16
  else if o = 0x10 then l.numVfs
  else if o = 0x14 then 1 + 2 ^ 16
  else if o = 0x18 then 0x6497 * 2 ^ 16
  else if 0x24 ≤ o ∧ o < 0x3C then barWord (tget 0 (s.func f).bars (capSriov + o)) true ((o - 0x24) / 4)
  else 0

/-- A word of the extended capabilities: AER, Device Serial Number, ARI, SR-IOV, ACS and LTR of a PF; ARI alone of a VF (R61). -/
def State.extWord (s : State) (f : Func) (r : Nat) : Nat :=
  if f.fn ≠ 0 then
    (if r = 0x100 then capAri * 2 ^ 20 else if r = capAri then extHeader 0xE 0 else 0)
  else if r = capAer then extHeader 1 capSerial
  else if r = capSerial then extHeader 3 capAri
  else if r = capSerial + 4 then Config.serial % 2 ^ 32
  else if r = capSerial + 8 then Config.serial / 2 ^ 32 % 2 ^ 32
  else if r = capAri then extHeader 0xE capSriov
  else if capSriov ≤ r ∧ r < capAcs then s.sriovWord f (r - capSriov)
  else if r = capAcs then extHeader 0xD capLtr
  else if r = capAcs + 4 then 2 ^ 2 + 2 ^ 3
  else if r = capLtr then extHeader 0x18 0
  else 0

/-- A word of configuration space of function `f` at offset `r` (R61-R67). A bare PF has the header, the PCI Express, SR-IOV and AER capabilities
and no BAR, so no MSI-X (R67). -/
def State.configWord (s : State) (f : Func) (r : Nat) : Nat :=
  if r < 0x40 then s.headerWord f r
  else if r < capMsix then
    (if f.fn ≠ 0 then 0
     else if r = capPm then 1 + (if s.bearing f.link then capMsix else capExp) * 2 ^ 8 + 3 * 2 ^ 16
     else b2n (s.func f).d3hot * 3)
  else if r < capExp then (if (s.tenantNo f).isSome && decide (r < capMsix + 12) then s.msixCapWord f (r - capMsix) else 0)
  else if r < capAer then s.expCapWord f (r - capExp)
  else s.extWord f r

/-- Configuration requests to the function are answered (R84, R784): its link is up and has ended boot, and the function exists. -/
def State.configAnswers (s : State) (f : Func) : Bool :=
  (s.link f.link).up && (s.link f.link).cfg && decide (f.link < 2) && (f.fn == 0 || (s.tenantNo f).isSome)

/-- A read of configuration space. -/
def State.readConfig (s : State) (a : Access) : State :=
  if s.configAnswers a.f then s.emit (.readDone a.f a.off [s.configWord a.f (a.off / 4 * 4)]) else s

/-- The lower limit of a Completion Timeout Value in tq (R224, PCI Express Base 4.0 ranges A and B); none where the value is not supported. -/
def ctoLimit (v : Nat) : Option Nat :=
  if v = 0 then some (40 * tqPerMs) else if v = 1 then some (50 * tqPerUs) else if v = 2 then some tqPerMs
  else if v = 5 then some (16 * tqPerMs) else if v = 6 then some (65 * tqPerMs) else none

/-- A write of configuration space: BARs, Max Payload Size, Max Read Request Size, ASPM and Completion Timeout of a PF, and NumVFs (R61, R66,
R71, R224, R656). Command, D-state, MSI-X control, VF Enable and function resets have rows of their own. -/
def State.writeConfig (s : State) (a : Access) : State :=
  let r := a.off / 4 * 4
  let f := a.f
  if !s.configAnswers f || f.fn ≠ 0 then s
  else if (0x10 ≤ r ∧ r < 0x28) ∨ (capSriov + 0x24 ≤ r ∧ r < capSriov + 0x3C) then
    s.setFunc f fun g => { g with bars := tset 0 g.bars r (a.val % 2 ^ 32) }
  else if r = capExp + 8 then
    let mps := bitsOf a.val 5 3
    let mrrs := bitsOf a.val 12 3
    s.setLink f.link fun l => { l with
      mps := if mps ≤ 2 then 128 * 2 ^ mps else l.mps
      mrrs := if mrrs ≤ 5 then 128 * 2 ^ mrrs else l.mrrs }
  else if r = capExp + 0x10 then s.setLink f.link fun l => { l with aspm := bitAt a.val 1 }
  else if r = capExp + 0x28 then
    match ctoLimit (a.val % 16) with
    | some n => s.setLink f.link fun l => { l with ctoVal := a.val % 16, ctoMin := n }
    | none => s
  else if r = capSriov + 0x10 then s.setLink f.link fun l => { l with numVfs := min (a.val % 2 ^ 16) (s.totalVfs f.link) }
  else s

/-- What happens while no command waits: a link on which the host allows it and nothing is under way enters ASPM L1 (R655).
(DESIGN CHOICE, log entry 118.) -/
def State.idle (s : State) : State :=
  [0, 1].foldl (fun (s : State) k => s.setLink k fun l =>
    { l with l1 := l.l1 || (l.up && l.aspm && l.waiting.isEmpty && l.reads.isEmpty) }) s

/-! ### The MSI-X table and the Pending Bit Array in BAR4/5 (R71, R74, R650) -/

/-- A word of BAR4/5 of a function: address low and high, data and vector control of an entry below the Table Size; from 0x2000 on the PBA. -/
def State.msixWord (s : State) (f : Func) (o : Nat) : Nat :=
  if o < 0x2000 then
    match s.targetOf f (o / 16) with
    | some _ =>
      let e := tget {} (s.func f).msix (o / 16)
      match o % 16 / 4 with
      | 0 => e.addr % 2 ^ 32
      | 1 => e.addr / 2 ^ 32 % 2 ^ 32
      | 2 => e.data % 2 ^ 32
      | _ => b2n e.mask
    | none => 0
  else
    (List.range 32).foldl (fun acc k => acc + (match s.targetOf f ((o - 0x2000) / 4 * 32 + k) with
      | some g => b2n (s.pbaBit g)
      | none => 0) * 2 ^ k) 0

/-- A read of BAR4/5: zeros where the function is in reset (R84). -/
def State.readMsix (s : State) (a : Access) : State :=
  if !s.answers a.f then s
  else if s.quiet a.f then s.emit (.readDone a.f a.off (List.replicate a.dwords 0))
  else s.emit (.readDone a.f a.off ((List.range a.dwords).map fun d => s.msixWord a.f (a.off + 4 * d)))

end Sys2Proof.Machine
end

