-- ==== Sys2Proof/Machine/Mailbox.lean ====
section
/-! DEFINITION. Mailboxes: arrivals, words, read sequences (R376-R389). -/

namespace Sys2Proof.Machine

/-- An arrival at a mailbox (R377): the shadow takes it, and it becomes current at once unless a sequence is open. -/
def State.mailArrive (s : State) (m : Nat) (a : Arrival) : State :=
  s.setMbox m fun b =>
    let u := (b.upd + 1) % 2 ^ 24
    let nb : MbBuf := ⟨true, u, a.id, a.port, a.dlc, a.flags, a.epoch, a.ns, a.frac, a.data⟩
    if b.open_.isSome then { b with upd := u, shadow := some nb } else { b with upd := u, cur := nb, shadow := none }

/-- The newest buffer (R377). -/
def Mailbox.newest (b : Mailbox) : MbBuf := b.shadow.getD b.cur

/-- Word `w` (1 to 30) of a buffer (R378). `flags` holds ESI, BRS, FDF, RTR, IDE in bits 4 to 0. -/
def bufWord (b : MbBuf) (w : Nat) : Nat :=
  if w = 1 then b.upd
  else if w = 2 then b.id % 2 ^ 24
  else if w = 3 then b.port % 256 * 2 ^ 16 + b.dlc % 16 * 2 ^ 12 + b.flags % 32 * 2 ^ 7 + b.id / 2 ^ 24 % 32
  else if w = 4 then b.epoch % 256 * 2 ^ 16 + b.data.length % 128
  else if w = 5 then b.ns % 2 ^ 24
  else if w = 6 then b.ns / 2 ^ 24 % 2 ^ 24
  else if w = 7 then b.frac % 256 * 2 ^ 16 + b.ns / 2 ^ 48 % 2 ^ 16
  else if 8 ≤ w ∧ w ≤ 29 then leNat ((padTo 64 b.data).drop (3 * (w - 8)) |>.take 3)
  else 0

/-- A word of a mailbox as the gather engine or the ring reads it: the newest buffer, word 0 VALID, word 31 zero (R385). -/
def Mailbox.sideWord (b : Mailbox) (w : Nat) : Nat :=
  if w = 0 then b2n b.newest.valid * 2 ^ 23 else bufWord b.newest w

/-- A word of a mailbox as a host reads it, words 1 to 30: the latched buffer of an open sequence, else the newest (R380). -/
def Mailbox.hostWord (b : Mailbox) (w : Nat) : Nat :=
  match b.open_ with
  | some q => bufWord q.buf w
  | none => bufWord b.newest w

/-- The sequence closes: a waiting arrival becomes current (R381). -/
def Mailbox.close (b : Mailbox) : Mailbox :=
  match b.shadow with
  | some x => { b with open_ := none, cur := x, shadow := none }
  | none => { b with open_ := none }

/-- A read of MB_OPEN (R379): the mailbox after it and the value returned. -/
def Mailbox.openRead (b : Mailbox) (f : Func) (now : Nat) : Mailbox × Nat :=
  let re := b.open_.isSome
  let c := if re then b.close else b
  ({ c with open_ := some ⟨f.link, f.fn, now, c.cur⟩, autoPrev := false },
   b2n c.cur.valid * 2 ^ 23 + b2n re * 2 ^ 22 + b2n b.autoPrev * 2 ^ 21)

/-- A read of MB_CLOSE (R378, R381): INTACT in bit 23, SWAPPED in bit 22. -/
def Mailbox.closeRead (b : Mailbox) : Mailbox × Nat :=
  match b.open_ with
  | some _ => (b.close, 2 ^ 23 + b2n b.shadow.isSome * 2 ^ 22)
  | none => (b, 0)

/-- A function reset closes the sequences the function opened (R382). -/
def State.closeMailboxes (s : State) (f : Func) : State :=
  let mine := s.rx.mboxes.filter fun e => match e.2.open_ with
    | some q => q.link == f.link && q.fn == f.fn
    | none => false
  mine.foldl (fun (s : State) (e : Nat × Mailbox) => s.setMbox e.1 Mailbox.close) s

/-- Offset of a word of a mailbox (R137). -/
def mbOff (m w : Nat) : Nat := if 8192 ≤ m then absentOff else 0x400000 + m / 16 * 0x1000 + m % 16 * 0x80 + w * 4

/-- The quarter of a mailbox has its power: while it has not, every word reads 0 (R703). -/
def State.boxOn (s : State) (m : Nat) : Bool := s.domOn (116 + m / 2048)

/-- A read of word 0 of a mailbox opens a sequence (R379). -/
def State.openBox (s : State) (f : Func) (m : Nat) : State × Nat :=
  if s.boxOn m then
    let r := (s.mbox m).openRead f s.now
    (s.setMbox m fun _ => r.1, r.2)
  else (s, 0)

/-- A read of word 31 of a mailbox closes it (R381). -/
def State.closeBox (s : State) (m : Nat) : State × Nat :=
  if s.boxOn m then
    let r := (s.mbox m).closeRead
    (s.setMbox m fun _ => r.1, r.2)
  else (s, 0)

/-- MB_OPEN. -/
def execMbOpen (t : Nat) (f : Func) (m : Nat) (s : State) : Host.Outcome State Fault Refusal :=
  .next ((s.tick t).hostRead f (mbOff m 0) fun s => s.openBox f m)

/-- MB_CLOSE. -/
def execMbClose (t : Nat) (f : Func) (m : Nat) (s : State) : Host.Outcome State Fault Refusal :=
  .next ((s.tick t).hostRead f (mbOff m 31) fun s => s.closeBox m)

/-- MAILBOX_AUTO_CLOSE: a sequence open for 100 µs of the time base closes itself; the next MB_OPEN shows AUTO_PREV (R383). -/
def execMailboxAutoClose (t m : Nat) (s : State) : Host.Outcome State Fault Refusal :=
  let s := s.tick t
  match (s.mbox m).open_ with
  | some q =>
    .next (if s.now ≥ q.at_ + 100 * tqPerUs then s.setMbox m fun b => { b.close with autoPrev := true } else s)
  | none => .next s

end Sys2Proof.Machine
end

