-- ==== Sys2Proof/Machine/Link.lean ====
section
/-! DEFINITION. The link ports of the ring and of the pair links: sending, retry, credits, request contexts, mirror records
(R515-R522, R536-R551, R604, R613, R614). -/

namespace Sys2Proof.Machine

/-! ### Ports and rings (R513, R514) -/

/-- Link port `n`. -/
def State.lp (s : State) (n : Nat) : LinkPort := tget {} s.ring_.ports n

/-- Changing a link port. -/
def State.setLp (s : State) (n : Nat) (f : LinkPort → LinkPort) : State :=
  { s with ring_ := { s.ring_ with ports := tupd {} s.ring_.ports n f } }

/-- A link port of the ring (0 to 3) or of the pair (4, 5). -/
def isRingPort (n : Nat) : Bool := decide (n < 4)

/-- The state of a link port (R548, R604): 0 OFF, 1 DOWN, 3 IDENT, 4 UP, 5 HELD, 6 REJECTED. -/
def State.lstate (s : State) (n : Nat) : Nat :=
  if isRingPort n then s.rd RL_STAT_STATE n else s.rd PL_STAT_STATE (n - 4)

/-- The block instance of a link port. -/
def linkInst (n : Nat) : Inst := if isRingPort n then .rl n else .pl (n - 4)

/-- The measured delay of a ring link that is down: TU_LDLY 0, and no measurement held (R443). -/
def State.dropDelay (s : State) (n : Nat) : State :=
  if isRingPort n then
    ({ s with time := { s.time with delayT1 := tset none s.time.delayT1 n none, delays := tset [] s.time.delays n [] } }).wrA TU_LDLY_DELAY 0 n 0
  else s

/-- Changing the state of a link port; while it is not UP every instant is a boundary (R122). -/
def State.setLstate (s : State) (n v : Nat) : State :=
  let s := if isRingPort n then s.wr RL_STAT_STATE n v else s.wr PL_STAT_STATE (n - 4) v
  if v = 4 then s else (s.dropDelay n).applyStaged (linkInst n)

/-- A counter that both kinds of port have. -/
def State.bumpPort (s : State) (n : Nat) (ring pair : Fld) : State :=
  if isRingPort n then s.bump ring n else s.bump pair (n - 4)

/-- The port on whose forward lane a ring's cells leave, and on which they arrive (R514): ring A east, ring B west. -/
def fwdOut (ring : Nat) : Nat := if ring = 0 then 0 else 3
def fwdIn (ring : Nat) : Nat := if ring = 0 then 1 else 2

/-- The ring of a ring link port. -/
def ringOf (n : Nat) : Nat := n / 2

/-- The port through which the ring's forward traffic leaves: the return lane of the other port while wrapped at the forward one (R553). -/
def State.exitPort (s : State) (ring : Nat) : Nat :=
  if s.flag RL_STAT_WRAP (fwdOut ring) then fwdIn ring else fwdOut ring

/-- The ring is enabled. -/
def State.ringOn (s : State) (ring : Nat) : Bool := if ring = 0 then s.flag RG_CFG_ENA 0 else s.flag RG_CFG_ENB 0

/-! ### Sending (R543-R546) -/

/-- A field of bytes 16 to 95 of a cell: `n` bytes from byte `off` of the cell. -/
def cellField (c : Cell) (off n : Nat) : Nat := leNat ((c.body.drop (off - 16)).take n)

/-- The correction that a SYNC cell carries (R519). -/
def syncCorr (c : Cell) : Int := fromTwos 64 (cellField c 32 8)

/-- A SYNC cell with `d` more in its correction. -/
def addCorr (c : Cell) (d : Int) : Cell :=
  { c with body := (padTo 80 c.body).take 16 ++ leBytes 8 (toTwos 64 (syncCorr c + d)) ++ (padTo 80 c.body).drop 24 }

/-- The egress timestamp of a SYNC cell (R440, R441): the origin time of this node's own, the residence of one it forwards. The retry buffer
holds the cell as it was sent first. (DEDUCED, log entry 111.) -/
def State.egress (s : State) (c : Cell) : Cell :=
  if c.typ ≠ 3 then c
  else
    let now : Nat := s.time.fab / 2 ^ 24
    match c.inAt with
    | some a => { addCorr c ((now : Int) - (a : Int)) with inAt := none }
    | none =>
      if c.src = s.rd RG_CFG_NODE 0 then
        { c with body := (padTo 80 c.body).take 4 ++ leBytes 8 (now / 256) ++ leBytes 1 (now % 256) ++ (padTo 80 c.body).drop 13 }
      else c

/-- A cell is sent on the lane: the next LSEQ, a place in the retry buffer, one credit of its VC (a DELAY cell takes none, R520). -/
def State.sendNow (s : State) (n : Nat) (c : Cell) : State :=
  let p := s.lp n
  let c : Cell := { s.egress c with lseq := p.txNext, from_ := none }
  let s := s.setLp n fun p =>
    let p := { p with
      txNext := (p.txNext + 1) % 4096
      buf := p.buf ++ [(⟨p.txNext, some c, none, 1, s.now⟩ : HeldCell)] }
    if c.typ = 7 then p else if c.vc = 0 then { p with cred0 := p.cred0 - 1 } else { p with cred1 := p.cred1 - 1 }
  (s.bumpPort n RL_TXCELL_COUNT PL_TXCELL_COUNT).emit (.cell n c)

/-- The insertion queue of a ring and VC. -/
def State.insQ (s : State) (ring vc : Nat) : List Cell := tget [] s.ring_.ins (ring * 2 + vc)

/-- Changing an insertion queue. -/
def State.setInsQ (s : State) (ring vc : Nat) (l : List Cell) : State :=
  { s with ring_ := { s.ring_ with ins := tset [] s.ring_.ins (ring * 2 + vc) l } }

/-- RATE_REQ or RATE_RSP of a ring (R545). -/
def State.rate (s : State) (ring vc : Nat) : Nat :=
  if ring = 0 then (if vc = 0 then s.rd RG_RATE_A_RATE_REQ 0 else s.rd RG_RATE_A_RATE_RSP 0)
  else if vc = 0 then s.rd RG_RATE_B_RATE_REQ 0 else s.rd RG_RATE_B_RATE_RSP 0

/-- The insertions of a ring and VC in the last 10 µs. -/
def State.recentIns (s : State) (ring vc : Nat) : List Nat :=
  (tget [] s.ring_.insAt (ring * 2 + vc)).filter fun x => decide (s.now < x + 1600)

/-- The rate lets one more request or response in (R545); the other cell types use the remaining slots. -/
def State.rateOk (s : State) (ring : Nat) (c : Cell) : Bool :=
  c.typ > 2 || decide ((s.recentIns ring c.vc).length < s.rate ring c.vc)

/-- The insertion of the head of a queue on port `n`: a request starts its RTMO and counts in RG_TX_REQ. -/
def State.insertHead (s : State) (n ring vc : Nat) : State :=
  match s.insQ ring vc with
  | [] => s
  | c :: rest =>
    let s := s.setInsQ ring vc rest
    let s := if c.typ ≤ 2 then
        { s with ring_ := { s.ring_ with insAt := tset [] s.ring_.insAt (ring * 2 + vc) (s.recentIns ring vc ++ [s.now]) } }
      else s
    let s := if c.typ = 1 then
        let s := { s with ring_ := { s.ring_ with ctx := s.ring_.ctx.map fun (x : Ctx) => if x.tag == c.tag then { x with at_ := some s.now } else x } }
        s.bump RG_TX_REQ_COUNT 0
      else s
    s.sendNow n c

/-- The transit queue of a port's lane. -/
def LinkPort.transit (p : LinkPort) (vc : Nat) : List Cell := if vc = 0 then p.transit0 else p.transit1
/-- The credits of a VC. -/
def LinkPort.cred (p : LinkPort) (vc : Nat) : Nat := if vc = 0 then p.cred0 else p.cred1
/-- The slots a VC was given. -/
def LinkPort.slots (p : LinkPort) (vc : Nat) : Nat := if vc = 0 then p.slots0 else p.slots1

/-- What a VC may send next on a port (R543, R544): 1 transit, 2 insertion, 0 nothing; every fourth slot goes to a waiting insertion. -/
def State.vcChoice (s : State) (n vc : Nat) : Nat :=
  let p := s.lp n
  let ring := ringOf n
  let tr := !(p.transit vc).isEmpty && decide (p.cred vc ≥ 1)
  let ins := s.exitPort ring == n && decide (p.cred vc ≥ 2) && (match s.insQ ring vc with
    | [] => false
    | c :: _ => s.rateOk ring c)
  if ins && (p.slots vc % 4 == 3 || !tr) then 2 else if tr then 1 else 0

/-- One slot of a VC is used. -/
def State.useSlot (s : State) (n vc : Nat) : State :=
  s.setLp n fun p => if vc = 0 then { p with lastVc := 0, slots0 := (p.slots0 + 1) % 4 } else { p with lastVc := 1, slots1 := (p.slots1 + 1) % 4 }

/-- A receive slot of port `m` is free again: CREDIT to the sender (R543). -/
def State.freed (s : State) (m vc : Nat) : State := if s.lstate m = 4 then s.emit (.linkMsg m 3 (vc * 65536 + 1)) else s

/-- The lane sends what may go, at most `k` cells: the VCs alternate while both have a cell (R544). -/
def State.pump (s : State) (n : Nat) : Nat → State
  | 0 => s
  | k + 1 =>
    if s.lstate n ≠ 4 ∨ (s.lp n).buf.length ≥ 64 then s
    else
      let first := 1 - (s.lp n).lastVc
      let vc := if s.vcChoice n first ≠ 0 then first else 1 - first
      let ch := s.vcChoice n vc
      if ch = 0 then s
      else if ch = 2 then ((s.useSlot n vc).insertHead n (ringOf n) vc).pump n k
      else match (s.lp n).transit vc with
        | [] => s
        | c :: rest =>
          let s := (s.useSlot n vc).setLp n fun p => if vc = 0 then { p with transit0 := rest } else { p with transit1 := rest }
          let s := s.sendNow n c
          (match c.from_ with | some m => s.freed m c.vc | none => s).pump n k

/-- How many cells one visit of a lane may send: its queues and its retry buffer bound it. -/
def pumpMax : Nat := 64

/-- A cell joins the transit traffic of a lane. -/
def State.transitOn (s : State) (n : Nat) (c : Cell) : State :=
  (s.setLp n fun p => if c.vc = 0 then { p with transit0 := p.transit0 ++ [c] } else { p with transit1 := p.transit1 ++ [c] }).pump n pumpMax

/-- A cell of this node joins the insertion queue of its ring and VC; `false` where the queue of 64 is full (R540). -/
def State.insertCell (s : State) (ring : Nat) (c : Cell) : State × Bool :=
  if (s.insQ ring c.vc).length ≥ 64 then (s, false)
  else ((s.setInsQ ring c.vc (s.insQ ring c.vc ++ [c])).pump (s.exitPort ring) pumpMax, true)

/-! ### Link messages (R521, R546, R549) -/

/-- A link message is sent. -/
def State.say (s : State) (n kind v : Nat) : State := s.emit (.linkMsg n kind v)

/-- The twelve IDENT words this node sends on a port (R549). -/
def State.identWord (s : State) (n i : Nat) : Nat :=
  if i < 4 then Config.serial / 2 ^ (16 * i) % 2 ^ 16
  else if i < 8 then s.img.hash / 2 ^ (16 * (i - 4)) % 2 ^ 16
  else if i = 8 then s.rd RG_CFG_NODE 0 + (if isRingPort n then n else n - 4) * 256
  else if i = 9 then s.rd RG_FABID_FABRIC_ID 0 % 2 ^ 16
  else if i = 10 then s.rd RG_FABID_FABRIC_ID 0 / 2 ^ 16
  else (if (s.lp n).heldId.isEmpty then 0 else 4096) + (s.lp n).rxExp

/-- The cycle of IDENT words is sent (R548). -/
def State.sendIdent (s : State) (n : Nat) : State :=
  (List.range 12).foldl (fun (s : State) i => s.say n 4 (i * 65536 + s.identWord n i)) s

/-- A cell of the retry buffer is sent again. -/
def State.resend (s : State) (n : Nat) (h : HeldCell) : State :=
  match h.cell, h.pair with
  | some c, _ => s.emit (.cell n c)
  | none, some p => s.emit (.pairCell n p)
  | none, none => s

/-- The cells of the retry buffer from the one numbered `v` on are sent again. -/
def State.sendFrom (s : State) (n v : Nat) : State :=
  let from_ := (s.lp n).buf.dropWhile fun h => h.lseq != v
  let s := from_.foldl (fun (s : State) h => s.resend n h) s
  s.setLp n fun p => { p with buf := p.buf.map fun h => if from_.any fun g => g.lseq == h.lseq then { h with sends := h.sends + 1, at_ := s.now } else h }

/-- The lane sends again from the cell numbered `v` (R546); counted in RL_REPLAY. -/
def State.replay (s : State) (n v : Nat) : State := (s.sendFrom n v).bumpPort n RL_REPLAY_COUNT PL_REPLAY_COUNT

/-- The cells up to `v` that a buffer drops at an ACK: none where it does not hold `v`. -/
def ackedPart (buf : List HeldCell) (v : Nat) : List HeldCell :=
  if buf.any fun h => h.lseq == v then (buf.takeWhile fun h => h.lseq != v) ++ buf.filter (fun h => h.lseq == v) else []

/-! ### Mirror records (R613, R614) -/

/-- A cell leaves on a pair link, with the next LSEQ and a place in the retry buffer. -/
def State.pushPair (s : State) (n : Nat) (x : PairItem) : State :=
  let s := s.setLp n fun p => { p with
    txNext := (p.txNext + 1) % 4096
    buf := p.buf ++ [(⟨p.txNext, none, some x, 1, s.now⟩ : HeldCell)] }
  (s.bump PL_TXCELL_COUNT (n - 4)).emit (.pairCell n x)

/-- A cell leaves on a pair link that is UP and has room in its retry buffer. -/
def State.sendPair (s : State) (n : Nat) (x : PairItem) : State × Bool :=
  if s.lstate n ≠ 4 ∨ (s.lp n).buf.length ≥ 64 then (s, false) else (s.pushPair n x, true)

/-- A record longer than 80 bytes takes a second cell (R613). -/
def longRecord : MirrorBody → Bool
  | .entryAdd .. => true
  | .mbox .. => true
  | _ => false

/-- A record is sent on one pair link; its mark and the LSEQ of its last cell follow. -/
def State.sendRecord (s : State) (n : Nat) (r : MirrorHeld) : State × MirrorHeld :=
  let lseq := (s.lp n).txNext
  let (s, ok) := s.sendPair n (.mirror [r.rec_])
  if !ok then (s, r)
  else
    let (s, last) := if longRecord r.rec_.body then ((s.sendPair n (.mirror [])).1, (lseq + 1) % 4096) else (s, lseq)
    if n = 4 then (s, { r with sent0 := 1, lseq0 := last }) else (s, { r with sent1 := 1, lseq1 := last })

/-- PR_MLAG follows the records held. -/
def State.setMirror (s : State) (l : List MirrorHeld) : State :=
  ({ s with pair := { s.pair with buf := l } }).wr PR_MLAG_LAG 0 l.length

/-- Records not yet sent on a link leave while it has room. -/
def State.pumpMirror (s : State) (n : Nat) : List MirrorHeld → List MirrorHeld → State
  | done, [] => s.setMirror done
  | done, r :: rest =>
    if (if n = 4 then r.sent0 else r.sent1) = 0 then
      let (s, r) := s.sendRecord n r
      s.pumpMirror n (done ++ [r]) rest
    else s.pumpMirror n (done ++ [r]) rest

/-- The mirror is stale (R614). -/
def State.mirrorStale (s : State) : State :=
  if s.flag PR_STAT_MIRROR_OK 0 then
    ((s.put PR_STAT_MIRROR_OK 0 false).evt PR_EVT_EVT 0 7).eventLim (s.rd PR_CFG_POWNER 0) 0x0904 0
      (2 :: leBytes 3 (s.rd PR_MSEQ_MSEQ 0))
  else s

/-- The acting unit of a pair numbers a record and sends it on every UP pair link (R613); 4,096 records are kept (R614).
(DESIGN CHOICE, log entry 30.) -/
def State.mirror (s : State) (b : MirrorBody) : State :=
  if !(s.flag PR_CFG_PAIRED 0 && s.flag PR_STAT_ACTING 0) then s
  else
    let m := s.rd PR_MSEQ_MSEQ 0
    let s := s.wr PR_MSEQ_MSEQ 0 (m + 1)
    let r : MirrorHeld := { rec_ := ⟨m, b⟩ }
    let (s, r) := s.sendRecord 4 r
    let (s, r) := s.sendRecord 5 r
    if s.pair.buf.length ≥ 4096 then (s.setMirror (s.pair.buf.drop 1 ++ [r])).mirrorStale else s.setMirror (s.pair.buf ++ [r])

/-- Records acknowledged on a pair link (R614). -/
def State.ackMirror (s : State) (n : Nat) (cells : List HeldCell) : State :=
  let hit := fun (v : Nat) => cells.any fun h => h.lseq == v
  let l := s.pair.buf.map fun r =>
    if n = 4 then (if r.sent0 = 1 && hit r.lseq0 then { r with sent0 := 2 } else r)
    else if r.sent1 = 1 && hit r.lseq1 then { r with sent1 := 2 } else r
  let up0 := s.lstate 4 == 4
  let up1 := s.lstate 5 == 4
  s.setMirror (l.filter fun r => !((r.sent0 == 2 || !up0) && (r.sent1 == 2 || !up1)))

/-! ### Request contexts (R536-R538) -/

/-- The pool of a context: 256 windows, 128 reflex, 128 gather; a probe takes none of them. -/
def State.poolFull (s : State) : CtxFor → Bool
  | .window _ => false
  | .reflex _ _ => decide ((s.ring_.ctx.filter fun c => match c.what with | .reflex _ _ => true | _ => false).length ≥ 128)
  | .gather _ _ => decide ((s.ring_.ctx.filter fun c => match c.what with | .gather _ _ => true | _ => false).length ≥ 128)
  | .probe => false

/-- The reason of RFX_RMBX for a status other than OK (R412, under R539). -/
def rmbxReason (st : Nat) : Nat := if st = 9 then 1 else if st = 6 ∨ st = 7 ∨ st = 8 then 2 else 3

/-- Element `e` of the run of group `g` has its status in hand (R585). -/
def State.elemDone (s : State) (g e st v : Nat) : State :=
  { s with gt := { s.gt with runs := s.gt.runs.map fun r =>
      if r.start.group == g then { r with elems := r.elems.set e (some (st, v)) } else r } }

/-- The value of a gather element out of a word (R574): the field, as a 24-bit pattern, sign-extended with SIGNED. -/
def gtValue (d : GtDef) (e word : Nat) : Nat :=
  let w1 := d.word (5 + 2 * e)
  let width := bitsOf w1 3 5 + 1
  let v := bitsOf word (bitsOf w1 8 5) width
  if d.signed then toTwos 24 (fromTwos width v) else v

/-- A request completes with a status (R537): its window, rule or gather element takes it. -/
def State.finishReq (s : State) (what : CtxFor) (gaddr st reason dropped : Nat) (words : List Nat) : State :=
  let s := if st = 6 then s.bump RG_ABORTED_COUNT 0
    else if st = 8 then s.bump RG_TIMEOUT_COUNT 0
    else if st = 9 then (s.bump RG_NOROOM_COUNT 0).evt RG_EVT_EVT 0 11 else s
  match what with
  | .window t =>
    let s := (words.zipIdx).foldl (fun (s : State) (x : Nat × Nat) => s.wrA RR_DATA_DATA t x.2 x.1) s
    let seq := (s.rd RR_RES_SEQ t + 1) % 64
    let s := ((((s.wr RR_RES_STATUS t st).wr RR_RES_REASON t reason).wr RR_RES_SEQ t seq).put RR_RES_BUSY t false).wr
      RR_RES1_DROPPED t dropped
    if s.flag RR_CTL_NOTE t then s.eventLim t 0x0706 0 [BitVec.ofNat 8 st, BitVec.ofNat 8 reason, BitVec.ofNat 8 seq] else s
  | .reflex t rule =>
    if st = 0 then s
    else
      let half := rule / 2048
      (s.addA RU_RMBX_DROP_COUNT 0 half 1).eventLim t 0x0403 rule
        ([BitVec.ofNat 8 (rmbxReason st), BitVec.ofNat 8 (gaddr / 2 ^ 24)] ++ leBytes 2 (gaddr / 32 % 8192))
  | .gather g e =>
    match s.gt.runs.find? fun r => r.start.group == g with
    | some r => s.elemDone g e st (if st = 0 then gtValue r.start.gdef e (words.headD 0) else 0)
    | none => s
  | .probe => s

/-- The context with a tag completes and is freed. -/
def State.completeCtx (s : State) (tag st reason dropped : Nat) (words : List Nat) : State :=
  match s.ring_.ctx.find? fun c => c.tag == tag with
  | none => s
  | some c =>
    ({ s with ring_ := { s.ring_ with ctx := s.ring_.ctx.filter fun x => x.tag != tag } }).finishReq c.what c.gaddr st reason dropped words

/-- The response that answers a request (R519). -/
def response (c : Cell) (node st reason dropped count : Nat) (payload : List Byte) : Cell :=
  { typ := 2, vc := 1, origin := c.origin, dst := c.src, src := node, tenant := c.tenant, tag := c.tag, op := st, gaddr := c.gaddr
    body := padTo 16 (leBytes 2 dropped ++ [BitVec.ofNat 8 reason, BitVec.ofNat 8 count]) ++ padTo 64 payload }

/-- Cells of a retry buffer are aborted (R548, R551): a request completes ABORTED at its source, here or by a response cell; a
response is discarded. `why` gives the reason. -/
def State.abortCells (s : State) (n : Nat) (why : Cell → Nat) : State :=
  let cells := (s.lp n).buf.filterMap (·.cell)
  let node := s.rd RG_CFG_NODE 0
  let s := s.setLp n fun p => { p with buf := [] }
  let reqs := cells.filter fun c => c.typ == 1
  let s := reqs.foldl (fun (s : State) c =>
    if c.src = node then s.completeCtx c.tag 6 (why c) 0 []
    else (s.insertCell (ringOf n) (response c node 6 (why c) 0 0 [])).1) s
  match reqs with
  | [] => s
  | c :: _ => s.eventLim (s.rd RG_CFG_RGOWNER 0) 0x0707 n (BitVec.ofNat 8 (why c) :: leBytes 2 reqs.length)

/-! ### Loss and return of a link (R547-R556) -/

/-- The state of a ring (R553): 0 DISABLED, 1 CLOSED, 2 WRAPPED, 3 SPLIT. A node reports a wrap by WRAPPING and the ring's state.
(DEDUCED, log entry 29.) -/
def State.ringState (s : State) (ring : Nat) : Nat :=
  if !s.ringOn ring then 0
  else
    let own := b2n (s.flag RL_STAT_WRAP (fwdOut ring) || s.flag RL_STAT_WRAP (fwdIn ring))
    let others := (s.ring_.members.filter fun m => if ring = 0 then m.2.wrapA else m.2.wrapB).length
    if own + others = 0 then 1 else if own + others = 1 then 2 else 3

/-- RG_STAT shows both rings' states. -/
def State.refreshRings (s : State) : State :=
  (s.wr RG_STAT_RSTATE_A 0 (s.ringState 0)).wr RG_STAT_RSTATE_B 0 (s.ringState 1)

/-- The ring owner hears of a link port (R572). -/
def State.linkEvent (s : State) (n old why : Nat) : State :=
  if isRingPort n then
    s.eventLim (s.rd RG_CFG_RGOWNER 0) 0x0701 n [BitVec.ofNat 8 old, BitVec.ofNat 8 (s.lstate n), BitVec.ofNat 8 why]
  else s

/-- A ring wraps or unwraps at port `n` (R553, R556): WRAPNOTE on every lane of the ring that is UP, the event, the states. -/
def State.setWrap (s : State) (n : Nat) (on : Bool) : State :=
  let ring := ringOf n
  let s := (s.put RL_STAT_WRAP n on).evt RG_EVT_EVT 0 (if on then 2 else 3)
  let s := [fwdOut ring, fwdIn ring].foldl (fun (s : State) p => if s.lstate p = 4 then s.say p 6 (b2n on) else s) s
  (s.refreshRings).eventLim (s.rd RG_CFG_RGOWNER 0) 0x0702 ring [BitVec.ofNat 8 (b2n on), BitVec.ofNat 8 n]

/-- Cells that wait for a lane that is lost leave on the other port of the ring, past a wrap point (R553). -/
def State.reroute (s : State) (n : Nat) : State :=
  let p := s.lp n
  let cells := (p.transit0 ++ p.transit1).map fun c => { c with wrap := true }
  let s := s.setLp n fun p => { p with transit0 := [], transit1 := [] }
  let other := if n = fwdOut (ringOf n) then fwdIn (ringOf n) else fwdOut (ringOf n)
  (cells.foldl (fun (s : State) c => s.transitOn other c) s).pump other pumpMax

/-- Remote Fault is sent while the port receives no valid signal (R547), Local Fault before the first image (R529). -/
def State.sendFault (s : State) (n : Nat) (remote : Bool) : State := s.emit (.laneFault n remote)

/-- What a port's receiver reports beside a loss: no block lock or hi_ber (reason 1), a fault sequence received (reason 3). -/
def State.receiverLost (s : State) (n reason : Nat) (hiber : Bool) : State :=
  let set := fun (ring pair : Fld) (v : Bool) => if isRingPort n then s.put ring n v else s.put pair (n - 4) v
  if reason = 1 then (if hiber then set RL_STAT_HIBER PL_STAT_HIBER true else set RL_STAT_LOCK PL_STAT_LOCK false).sendFault n true
  else if reason = 3 then set RL_STAT_RFAULT PL_STAT_RFAULT true else s

/-- A port declares a link loss with a reason (R547, R548, R604). -/
def State.loseLink (s : State) (n reason : Nat) : State :=
  if s.lstate n ≠ 4 then s
  else if isRingPort n then
    let s := (s.wr RL_LASTLOSS_REASON n reason).bump RL_LOSSES_COUNT n
    let id_ := (List.range 12).map fun i => s.rdA RL_NB_IDENT n i
    let s := s.setLp n fun p => { p with
      heldId := id_, ident := [], cred0 := 0, cred1 := 0, nakAt := none
      retryAt := some (s.now + s.rd RL_CFG_RETRY n * tqPerMs) }
    let s := ((s.setLstate n 5).evt RG_EVT_EVT 0 1).linkEvent n 4 reason
    ((s.setWrap n true).reroute n).sendIdent n
  else
    let s := (s.wr PL_LASTLOSS_REASON (n - 4) reason).bump PL_LOSSES_COUNT (n - 4)
    let s := s.setLp n fun p => { p with buf := [], ident := [], heldId := [], nakAt := none }
    let s := s.setLstate n 1
    if s.lstate 4 ≠ 4 ∧ s.lstate 5 ≠ 4 then s.mirrorStale else s

/-- The cells in this node that hold a receive slot of port `n` for a VC. -/
def State.heldFrom (s : State) (n vc : Nat) : Nat :=
  ((List.range 4).map fun q => (((s.lp q).transit vc).filter fun c => c.from_ == some n).length).sum

/-- After a resume the neighbour's credits are given afresh: CREDIT for every free receive slot (R550). -/
def State.grantCredits (s : State) (n : Nat) : State :=
  [0, 1].foldl (fun (s : State) vc =>
    let free := 16 - s.heldFrom n vc
    if free = 0 then s else s.say n 3 (vc * 65536 + free)) s

/-- A link that trains afresh starts with 16 credits, so that no cell in this node holds a slot of it any more (R548). -/
def State.dropSlots (s : State) (n : Nat) : State :=
  let clear := fun (c : Cell) => if c.from_ == some n then { c with from_ := none } else c
  (List.range 4).foldl (fun (s : State) q => s.setLp q fun p => { p with transit0 := p.transit0.map clear, transit1 := p.transit1.map clear }) s

/-- A port comes UP afresh: LSEQ from 0, 16 credits per VC (R548). -/
def State.freshUp (s : State) (n : Nat) : State :=
  let old := s.lstate n
  let s := s.setLp n fun p => { p with
    txNext := 0, rxExp := 0, cred0 := 16, cred1 := 16, buf := [], nakAt := none, retryAt := none, heldId := [], lastMsg := s.now }
  let s := s.setLstate n 4
  if isRingPort n then
    let s := ((s.dropSlots n).evt RG_EVT_EVT 0 0).linkEvent n old 0
    let s := if s.flag RL_STAT_WRAP n then s.setWrap n false else s
    s.pump n pumpMax
  else s.pumpMirror n [] s.pair.buf

/-- The neighbour's identity word `i` as last received. -/
def State.nb (s : State) (n i : Nat) : Nat := if isRingPort n then s.rdA RL_NB_IDENT n i else s.rdA PL_NB_IDENT (n - 4) i

/-- A 64-bit identity out of four words, the first lowest. -/
def quad (f : Nat → Nat) (i : Nat) : Nat := f i + f (i + 1) * 2 ^ 16 + f (i + 2) * 2 ^ 32 + f (i + 3) * 2 ^ 48

/-- PARTNER_SERIAL (R602). -/
def State.partnerSerial (s : State) : Nat :=
  s.rd PR_PSER0_SERIAL 0 + s.rd PR_PSER1_SERIAL 0 * 2 ^ 24 + s.rd PR_PSER2_SERIAL 0 * 2 ^ 48

/-- All 12 IDENT words have been received in IDENT or HELD (R548-R551, R604). -/
def State.identified (s : State) (n : Nat) : State :=
  let st := s.lstate n
  let fab := s.nb n 9 + s.nb n 10 % 256 * 2 ^ 16
  let their := s.nb n 8 / 256 % 4
  if isRingPort n then
    if st = 3 then
      if fab ≠ s.rd RG_FABID_FABRIC_ID 0 ∨ their ≠ n / 2 * 2 + (1 - n % 2) then
        let s := ((s.setLstate n 6).evt RG_EVT_EVT 0 6).setLp n fun p => { p with retryAt := some (s.now + s.rd RL_CFG_RETRY n * tqPerMs) }
        s.linkEvent n 3 (if fab ≠ s.rd RG_FABID_FABRIC_ID 0 then 1 else 2)
      else s.freshUp n
    else if st = 5 then
      let held := (s.lp n).heldId
      let h := fun i => held[i]?.getD 0
      let same := quad (s.nb n) 0 == quad h 0 && quad (s.nb n) 4 == quad h 4 && s.nb n 8 % 256 == h 8 % 256
      let resume := bitAt (s.nb n 11) 12
      if same && resume then
        -- R550: both sides send again from the LSEQ the other expects; credits come afresh from CREDIT messages
        let v := s.nb n 11 % 4096
        let s := s.setLp n fun p => { p with
          buf := p.buf.dropWhile fun x => x.lseq != v && p.buf.any fun y => y.lseq == v
          cred0 := 0, cred1 := 0, retryAt := none, heldId := [], lastMsg := s.now, nakAt := none }
        let s := if (s.lp n).buf.any fun x => x.lseq == v then s.sendFrom n v else s.setLp n fun p => { p with buf := [] }
        let s := (((s.setLstate n 4).grantCredits n).evt RG_EVT_EVT 0 0).linkEvent n 5 0
        (if s.flag RL_STAT_WRAP n then s.setWrap n false else s).pump n pumpMax
      else
        let serialSame := quad (s.nb n) 0 == quad h 0
        let old := h 8 % 256
        let s := (s.evt RG_EVT_EVT 0 5).abortCells n fun c =>
          if c.dst = old ∧ !serialSame then 1 else if serialSame ∧ !resume then 6 else 2
        s.freshUp n
    else s
  else if st = 3 then
    if quad (s.nb n) 0 = s.partnerSerial ∧ fab = s.rd RG_FABID_FABRIC_ID 0 ∧ their = n - 4 then s.freshUp n
    else (s.setLstate n 6).setLp n fun p => { p with retryAt := some (s.now + s.rd RL_CFG_RETRY 0 * tqPerMs) }
  else s

/-! ### Commands on link messages -/

/-- A link message is taken on a port: it proves the lane alive (R547). -/
def State.heard (s : State) (n : Nat) : State := s.setLp n fun p => { p with lastMsg := s.now }

/-- ACK: cells up to the number given leave the retry buffer; mirror records they carried are acknowledged (R546, R614). -/
def execAck (t port v : Nat) (s : State) : Host.Outcome State Fault Refusal :=
  let s := (s.tick t).heard port
  if s.lstate port ≠ 4 then .next s
  else
    let gone := ackedPart (s.lp port).buf (v % 4096)
    let s := s.setLp port fun p => { p with buf := p.buf.drop gone.length }
    if isRingPort port then .next (s.pump port pumpMax)
    else
      let s := s.ackMirror port gone
      .next (s.pumpMirror port [] s.pair.buf)

/-- A port whose oldest cells were sent 8 times without an ACK loses its link (R547). -/
def State.checkSends (s : State) (n : Nat) : State :=
  if (s.lp n).buf.any fun h => h.sends ≥ 8 then s.loseLink n 4 else s

/-- NAK: the sender sends again from the expected cell (R546). -/
def execNak (t port v : Nat) (s : State) : Host.Outcome State Fault Refusal :=
  let s := (s.tick t).heard port
  .next (if s.lstate port ≠ 4 then s else (s.replay port (v % 4096)).checkSends port)

/-- CREDIT: receive slots return to the sender, 1 to 16 of a VC (R521, R543). -/
def execCredit (t port vc n : Nat) (s : State) : Host.Outcome State Fault Refusal :=
  let s := (s.tick t).heard port
  if s.lstate port ≠ 4 ∨ n = 0 ∨ n > 16 then .next s
  else
    .next ((s.setLp port fun p => if vc = 0 then { p with cred0 := min 16 (p.cred0 + n) } else { p with cred1 := min 16 (p.cred1 + n) }).pump
      port pumpMax)

/-- The retry timer ends, or FORGET acts as if it had (R548): HELD aborts its cells with reason 3 and goes DOWN; REJECTED goes DOWN. -/
def State.retryEnd (s : State) (n : Nat) : State :=
  let st := s.lstate n
  if st = 5 then
    let s := ((s.setLp n fun p => { p with retryAt := none }).setLstate n 1).evt RG_EVT_EVT 0 4
    let s := ((s.abortCells n fun _ => 3).setLp n fun p => { p with heldId := [] }).linkEvent n 5 0
    if s.domOn (100 + n) then s else s.setLstate n 0
  else if st = 6 then (s.setLp n fun p => { p with retryAt := none }).setLstate n 1
  else s

/-- A retry timer that ends at this instant acts before anything else does (R567). -/
def State.retryDue (s : State) (n : Nat) : State :=
  match (s.lp n).retryAt with
  | some a => if s.now ≥ a then s.retryEnd n else s
  | none => s

/-- IDENT: one word of the neighbour's identity; the twelfth decides (R548, R549). A changed word in UP is a link loss (R547).
(DESIGN CHOICE, log entry 28.) -/
def execIdent (t port i v : Nat) (s : State) : Host.Outcome State Fault Refusal :=
  let s := ((s.tick t).retryDue port).heard port
  if i ≥ 12 then .next s
  else
    let changed := s.nb port i != v % 65536
    let s := if isRingPort port then s.wrA RL_NB_IDENT port i v else s.wrA PL_NB_IDENT (port - 4) i v
    if s.lstate port = 4 then .next (if changed then s.loseLink port 6 else s)
    else if s.lstate port = 3 ∨ s.lstate port = 5 then
      let s := s.setLp port fun p => { p with ident := tset none p.ident i (some (v % 65536)) }
      .next (if (s.lp port).ident.length = 12 then (s.setLp port fun p => { p with ident := [] }).identified port else s)
    else .next s

/-- KEEP: the lane is alive (R521). -/
def execKeep (t port : Nat) (s : State) : Host.Outcome State Fault Refusal :=
  .next (((s.tick t).heard port).pump port (if isRingPort port then pumpMax else 0))

/-- WRAPNOTE: the neighbour has wrapped or unwrapped; the ring's state follows its MEMBER cells (R521, R553). (DEDUCED, log entry 32.) -/
def execWrapnote (t port v : Nat) (s : State) : Host.Outcome State Fault Refusal :=
  let s := (s.tick t).heard port
  if !isRingPort port then .next s
  else
    let node := s.nb port 8 % 256
    let ring := ringOf port
    if s.lstate port ≠ 4 ∨ node = 0 then .next s
    else
      .next ({ s with ring_ := { s.ring_ with members := tupd {} s.ring_.members node fun m =>
        if ring = 0 then { m with wrapA := bitAt v 0 } else { m with wrapB := bitAt v 0 } } }).refreshRings

/-- ACK_TIMEOUT: no ACK for the oldest cell within 2 µs; the sender sends again from it (R546). -/
def execAckTimeout (t port : Nat) (s : State) : Host.Outcome State Fault Refusal :=
  let s := s.tick t
  match (s.lp port).buf with
  | [] => .next s
  | h :: _ =>
    .next (if s.lstate port = 4 ∧ s.now ≥ h.at_ + 2 * tqPerUs then (s.replay port h.lseq).checkSends port else s)

/-- NAK_REPEAT: 2 µs after a NAK without the expected cell the receiver sends the NAK again (R546). -/
def execNakRepeat (t port : Nat) (s : State) : Host.Outcome State Fault Refusal :=
  let s := s.tick t
  match (s.lp port).nakAt with
  | some a =>
    .next (if s.lstate port = 4 ∧ s.now ≥ a + 2 * tqPerUs then
      (s.say port 2 (s.lp port).rxExp).setLp port fun p => { p with nakAt := some s.now } else s)
  | none => .next s

/-- LINK_LOSS: what the port's receiver finds (R547): 1 no block lock or hi_ber, 2 no link message for 16 µs, 3 Local Fault or Remote
Fault. The other reasons arise in the node itself. -/
def execLinkLoss (t port : Nat) (c : LossCause) (s : State) : Host.Outcome State Fault Refusal :=
  let s := s.tick t
  let reason := c.reason
  let real := reason = 1 ∨ (reason = 2 ∧ s.now ≥ (s.lp port).lastMsg + 16 * tqPerUs) ∨ reason = 3
  .next (if real then (s.receiverLost port reason c.hiber).loseLink port reason else s)

/-- BLOCK_LOCK_HELD: block lock held for 1 ms moves a DOWN port to IDENT (R548). -/
def execBlockLockHeld (t port : Nat) (s : State) : Host.Outcome State Fault Refusal :=
  let s := s.tick t
  if s.lstate port ≠ 1 ∨ s.sys.down ∨ s.noImage then .next s
  else
    let s := if isRingPort port then ((s.put RL_STAT_LOCK port true).put RL_STAT_RFAULT port false).put RL_STAT_HIBER port false
      else ((s.put PL_STAT_LOCK (port - 4) true).put PL_STAT_RFAULT (port - 4) false).put PL_STAT_HIBER (port - 4) false
    .next (((s.setLp port fun p => { p with ident := [], heldId := [], rxExp := 0 }).setLstate port 3).sendIdent port)

/-- RETRY_TIMER_EXPIRY. -/
def execRetryTimerExpiry (t port : Nat) (s : State) : Host.Outcome State Fault Refusal :=
  .next ((s.tick t).retryDue port)

/-- Offset of RL_CMD or PL_CMD of a link port. -/
def linkCmdOff (n : Nat) : Nat :=
  if isRingPort n then 0xC4000 + n * 0x1000 + 8 else if n < 6 then 0xB1000 + (n - 4) * 0x1000 + 8 else absentOff

/-- FORGET: in HELD, as retry timer expiry (R548). -/
def execForget (t : Nat) (f : Func) (port : Nat) (s : State) : Host.Outcome State Fault Refusal :=
  .next ((s.tick t).hostWrite f (linkCmdOff port) fun s => if isRingPort port && s.lstate port == 5 then s.retryEnd port else s)

/-- RETRAIN: a link loss with reason 5 (R547). -/
def execRetrain (t : Nat) (f : Func) (port : Nat) (s : State) : Host.Outcome State Fault Refusal :=
  .next ((s.tick t).hostWrite f (linkCmdOff port) fun s => s.loseLink port 5)

end Sys2Proof.Machine
end

