-- ==== Sys2Proof/Machine/Queue.lean ====
section
/-! DEFINITION. Priority queues: keys, costs, tokens, eligibility, the presented head, insertion, outcomes and returns (chapter 06),
and what the device's own frames do at their outcomes (R462, R621, R725, R726). -/

namespace Sys2Proof.Machine

/-! ### Frames (R181, R300, R304) -/

/-- The data length L of a frame (R181). -/
def dataLen (fdf rtr : Bool) (dlc : Nat) : Nat :=
  if rtr then 0
  else if dlc ≤ 8 then dlc
  else if !fdf then 8
  else [12, 16, 20, 24, 32, 48, 64][dlc - 9]?.getD 64

/-- The kind of a frame, coded as the bits of KINDS (R86): 0 classic data, 1 remote, 2 FD, 3 FD with bit-rate switch. -/
def frameKind (rtr fdf brs : Bool) : Nat := if fdf then (if brs then 3 else 2) else if rtr then 1 else 0

/-- A remote frame's RTR bit, which an FD frame sends as 0 (R300). -/
def rtrBit (f : Frame) : Nat := if f.fdf then 0 else b2n f.rtr

/-- The arbitration key of a frame (R300). -/
def frameKey (f : Frame) : Nat :=
  if f.ide then f.id / 2 ^ 18 % 2 ^ 11 * 2 ^ 21 + 2 ^ 20 + 2 ^ 19 + f.id % 2 ^ 18 * 2 + rtrBit f
  else f.id % 2 ^ 11 * 2 ^ 21 + rtrBit f * 2 ^ 20

/-- The nominal bit time of a port in tq (R241). -/
def State.nbt (s : State) (p : Nat) : Nat := 1 + s.rd FB_NBTA_NSEG1 p + s.rd FB_NBTB_NSEG2 p

/-- The data bit time of a port in tq. -/
def State.dbt (s : State) (p : Nat) : Nat := 1 + s.rd FB_DBT_DSEG1 p + s.rd FB_DBT_DSEG2 p

/-- NB and DB of a frame (R304). -/
def frameBits (f : Frame) : Nat × Nat :=
  let l := dataLen f.fdf f.rtr f.dlc
  if f.fdf then (if f.ide then 57 else 34, 5 + 8 * l + (5 + 8 * l + 3) / 4 + (if l ≤ 16 then 27 else 32))
  else if f.ide then (67 + 8 * l + (53 + 8 * l) / 4, 0) else (47 + 8 * l + (33 + 8 * l) / 4, 0)

/-- The cost of a frame in tq (R304). -/
def State.frameCost (s : State) (p : Nat) (f : Frame) : Nat :=
  let (nb, db) := frameBits f
  if f.fdf && f.brs then nb * s.nbt p + db * s.dbt p else (nb + db) * s.nbt p

/-! ### Leases and tokens (R86-R89, R308) -/

/-- The tenant number of the device's own leases (R86). -/
def devTenant : Nat := 256

/-- A frame falls within a lease (R87). -/
def Lease.covers (l : Lease) (port fmt kind id : Nat) : Bool :=
  l.port == port && l.fmt == fmt && bitAt l.kinds kind && decide (l.lo ≤ id ∧ id ≤ l.hi)

/-- The transmit lease of a tenant that a frame falls within (R296). -/
def State.txLease (s : State) (tenant port : Nat) (f : Frame) : Option Nat :=
  s.img.leases.findIdx? fun l => l.tx && l.tenant == tenant && l.covers port (b2n f.ide) (frameKind f.rtr f.fdf f.brs) f.id

/-- The lease that entry `i` of a tenant's lease view shows (R94). -/
def State.leaseAt (s : State) (tenant i : Nat) : Option Nat :=
  let mine := (s.img.leases.zipIdx).filter fun x => x.1.tenant == tenant
  (mine[i]?).map (·.2)

/-- The tokens in a lease's bucket now, in 1/4,096 tq (R89). -/
def State.tokens (s : State) (l : Nat) : Nat :=
  match s.img.leases[l]? with
  | some x => min (x.burst * 160 * 4096) ((s.lrt l).tokens + x.share * (s.ivlTq - (s.lrt l).tokAt))
  | none => 0

/-- The bucket takes a value now. -/
def State.setTokens (s : State) (l v : Nat) : State := s.setLrt l fun r => { r with tokens := v, tokAt := s.ivlTq }

/-- A cost is charged to a bucket. -/
def State.charge (s : State) (l cost : Nat) : State := s.setTokens l (s.tokens l - cost * 4096)

/-- A cost is refunded: the bucket stays capped (R308). -/
def State.refund (s : State) (l cost : Nat) : State :=
  match s.img.leases[l]? with
  | some x => s.setTokens l (min (x.burst * 160 * 4096) (s.tokens l + cost * 4096))
  | none => s

/-- A LEASE mirror record (R613). -/
def State.noteLease (s : State) (l : Nat) : State := s.mirror (.lease l (s.lrt l).used (s.tokens l / 4096) s.ns)

/-- A lease kept by a new image: the same TENANT, PORT, DIR, FMT, LO and HI. -/
def sameLease (a b : Lease) : Bool :=
  a.tenant == b.tenant && a.port == b.port && a.tx == b.tx && a.fmt == b.fmt && a.lo == b.lo && a.hi == b.hi

/-- The index under a new image of lease `i` of an old one. -/
def leaseMap (old new : List Lease) (i : Nat) : Option Nat := (old[i]?).bind fun a => new.findIdx? (sameLease a)

/-! ### Acceptance and eligibility (R297, R307, R312, R612) -/

/-- FB port states (R265). -/
def fbAbsent : Nat := 0
def fbDisabled : Nat := 1
def fbDraining : Nat := 2
def fbIntegrating : Nat := 3
def fbActive : Nat := 4
def fbPassive : Nat := 5
def fbBusOff : Nat := 6
def fbRecovering : Nat := 7
def fbAsleep : Nat := 8

/-- The state of an FB port. -/
def State.fstate (s : State) (p : Nat) : Nat := s.rd FB_STAT_STATE p

/-- The port takes part in bus traffic: ACTIVE or PASSIVE. -/
def State.onBus (s : State) (p : Nat) : Bool := s.fstate p == fbActive || s.fstate p == fbPassive

/-- Restricted operation is in effect on the port (R266). -/
def State.restricted (s : State) (p : Nat) : Bool := s.flag FB_STAT_R_OWN p || s.flag FB_STAT_R_MACE p

/-- The status with which a port refuses a frame; `none` where it accepts (R297). -/
def State.refuses (s : State) (p : Nat) : Option Nat :=
  let st := s.fstate p
  if st = fbIntegrating ∨ st = fbActive ∨ st = fbPassive then (if s.restricted p then some 0x45 else none)
  else if st = fbBusOff ∨ st = fbRecovering then some 0x43
  else if st = fbAsleep then some 0x44
  else some 0x42

/-- The unit is holding (R608). -/
def State.holding (s : State) : Bool := s.flag PR_CFG_PAIRED 0 && !s.flag PR_STAT_ACTING 0

/-- The lease of an entry; a reply has none. -/
def EntrySrc.lease : EntrySrc → Option Nat
  | .tenant l => some l
  | .device l _ => some l
  | .reflex _ => none

/-- The same entry: a mirror entry and an own one may hold equal sequence values on a holding unit (R303, R613). -/
def sameEntry (x e : QEntry) : Bool := x.seq == e.seq && x.mirror == e.mirror

/-- An entry is the first of its lease (R307). -/
def firstOfLease (es : List QEntry) (e : QEntry) : Bool :=
  match es.find? fun x => !x.inflight && x.src.lease == e.src.lease with
  | some x => sameEntry x e
  | none => false

/-- The bucket of an entry's lease holds at least its cost. -/
def State.affords (s : State) (e : QEntry) : Bool :=
  match e.src.lease with
  | some l => decide (s.tokens l ≥ e.cost * 4096)
  | none => true

/-- An entry is eligible (R307, R612, R610, R626). -/
def State.eligible (s : State) (p : Nat) (es : List QEntry) (e : QEntry) : Bool :=
  !e.inflight && match e.src with
  | .reflex _ => true
  | .tenant _ => firstOfLease es e && s.affords e && s.active (e.ring / 256) (s.homeOf e.ring) && !s.holding && !(s.port p).txHold
  | .device _ what => firstOfLease es e && s.affords e && (what == .clove || !s.holding)

/-- The presented head of a port's queue (R312). -/
def State.presented (s : State) (p : Nat) : Option QEntry :=
  let es := (s.queue p).entries
  if s.flag PQ_STAT_RESETTING p || s.inGap || (s.refuses p).isSome then none else es.find? (s.eligible p es)

/-- The head register keeps the last key presented (R336). -/
def State.refreshHead (s : State) (p : Nat) : State :=
  match s.presented p with
  | some e => s.setQueue p fun q => { q with lastKey := e.key }
  | none => s

/-- The head registers of every queue follow a change outside the queues. -/
def State.refreshHeads (s : State) : State := (s.pq.map (·.1)).foldl (fun (s : State) p => s.refreshHead p) s

/-! ### The list of entries (R302, R303, R311) -/

/-- The turn of an entry's source at the insertion point (R313): the reflex unit, H0, H1, the device. -/
def QEntry.turn (e : QEntry) : Nat :=
  match e.src with
  | .reflex _ => 0
  | .tenant _ => 1 + e.link
  | .device _ _ => 3

/-- A new entry stands after every entry with a smaller or equal key; a mirror entry before the unit's own equal ones (R302, R619); among equal
keys inserted at one instant the turn order decides (R44, R313). -/
def insertEntry (es : List QEntry) (e : QEntry) : List QEntry :=
  let before := fun (x : QEntry) => decide (x.key < e.key)
    || (x.key == e.key && ((x.mirror && !e.mirror) || (x.mirror == e.mirror && (x.born != e.born || decide (x.turn ≤ e.turn)))))
  es.takeWhile before ++ e :: es.dropWhile before

/-- Head pointer, tail pointer and the free-list pointer: the sequence values of the first and last entry, and the number of entries.
(DEDUCED, log entry 44.) -/
def ptrsOf (es : List QEntry) : List Nat := [(es.head?.map (·.seq)).getD 0, (es.getLast?.map (·.seq)).getD 0, es.length]

/-- The queue's list becomes `es`; both copies of every pointer follow. -/
def State.setEntries (s : State) (p : Nat) (es : List QEntry) : State :=
  s.setQueue p fun q => { q with entries := es, ptrA := ptrsOf es, ptrB := ptrsOf es }

/-- The next sequence value that no queued entry holds (R303). -/
def PqSt.freeSeq (q : PqSt) : Nat :=
  let cand := (List.range 513).map fun k => (q.nextSeq + k) % 2 ^ 32
  (cand.find? fun v => !q.entries.any fun e => e.seq == v).getD q.nextSeq

/-- An entry joins the queue with a fresh sequence value: its insertion is counted, and its lease holds it (R298, R303, R341). -/
def State.addEntry (s : State) (p : Nat) (e : QEntry) : State :=
  let v := (s.queue p).freeSeq
  let s := s.setEntries p (insertEntry (s.queue p).entries { e with seq := v, born := s.now })
  ((s.setQueue p fun q => { q with nextSeq := (v + 1) % 2 ^ 32 }).bump PQ_INSERT_COUNT p).refreshHead p

/-- An entry changes in place. -/
def State.setEntry (s : State) (p : Nat) (x : QEntry) (f : QEntry → QEntry) : State :=
  (s.setEntries p ((s.queue p).entries.map fun e => if sameEntry e x then f e else e)).refreshHead p

/-- The outcome code of an ENTRY_DONE record: 1 SENT, 0 any other removal. -/
def doneCode (sent : Bool) : Nat := b2n sent

/-- An entry leaves the queue: its lease's entry is freed, and the mirror follows (R318, R613). -/
def State.freeEntry (s : State) (p : Nat) (e : QEntry) (sent : Bool) (sof : Nat) : State :=
  let s := s.setEntries p ((s.queue p).entries.filter fun x => !sameEntry x e)
  let s := match e.src.lease with
    | some l => s.setLrt l fun r => { r with used := r.used - 1 }
    | none => s
  let s := match e.src with
    | .tenant l => (s.mirror (.entryDone p e.seq (doneCode sent) sof)).noteLease l
    | _ => s
  let s := if sent then s else s.bump PQ_RETURNED_COUNT p
  s.refreshHead p

/-! ### Completions of entries (R318, R322, R619) -/

/-- Completions of mirror entries leave while their CQ has room, in order (R619); at most `n`. -/
def State.drainWaitCq (s : State) : Nat → State
  | 0 => s
  | n + 1 =>
    match s.pair.waitCq with
    | [] => s
    | c :: rest =>
      let q := c.cq
      if s.armedAs q 1 && decide (s.fill q + s.rd RC_OUTST_COUNT q ≥ s.ringN q) then s
      else
        let s := { s with pair := { s.pair with waitCq := rest } }
        ((s.bump RC_OUTST_COUNT q).post (s.homeOf q) (.cq c)).drainWaitCq n

/-- The completion of a mirror entry, as its outcome became final (R619): into the CQ bound to its SQ on this unit once it has room,
none where that SQ is not armed. -/
def State.mirrorDone (s : State) (c : Comp) : State :=
  if !s.armedAs c.ring 0 then s.bump PR_NOCQ_COUNT 0
  else
    let c : Comp := { c with cq := s.cqOf c.ring, pos := c.pos % s.ringN c.ring }
    let s := { s with pair := { s.pair with waitCq := s.pair.waitCq ++ [c] } }
    s.drainWaitCq s.pair.waitCq.length

/-- A mirror entry completes on a promoted unit; on a holding unit no completion is written (R613). -/
def State.mirrorComplete (s : State) (c : Comp) : State := if s.holding then s else s.mirrorDone c

/-- The completion of an entry of a tenant; none after a function reset took it (R82). -/
def State.endTenant (s : State) (e : QEntry) (status result : Nat) : State :=
  let c : Comp := ⟨e.ring, e.wseq, e.pos, 1, e.tag, status, result, 0⟩
  if e.orphan then s else if e.mirror then s.mirrorComplete c else s.complete c e.nocomp

/-! ### The device's own frames at their outcomes -/

/-- A time port's state. -/
def State.ttSt (s : State) (p : Nat) : TtSt := tget {} s.tt p
/-- Changing it. -/
def State.setTt (s : State) (p : Nat) (f : TtSt → TtSt) : State := { s with tt := tupd {} s.tt p f }
/-- A port's Anise state. -/
def State.an (s : State) (p : Nat) : AniseSt := tget {} s.anise p
/-- Changing it. -/
def State.setAn (s : State) (p : Nat) (f : AniseSt → AniseSt) : State := { s with anise := tupd {} s.anise p f }

/-- A count of TT_RD11 or TT_RD12 advances, saturating at 255, and TT_ERR is set (R462, R464, R470). -/
def State.ttCount (s : State) (f : Fld) (p : Nat) : State := ((s.wrA f 0 p (satTo 8 (s.rdA f 0 p + 1))).note (f.key 0 p) .count 1).evt TU_EVT_EVT 0 9

/-- TT_MASTER (R471). -/
def State.ttMaster (s : State) (p why : Nat) : State :=
  s.eventLim (s.fbOwner p) 0x0506 p [BitVec.ofNat 8 why, BitVec.ofNat 8 (s.rdA TT_RD0_CC 0 p)]

/-- The reference mark and CC of a port are set (R462, R463); TT_CYCLE follows (R470). -/
def State.setMark (s : State) (p ns frac epoch ivl cc : Nat) : State :=
  let s := (((s.wrA TT_RD6_MARK_FRAC 0 p frac).wrA TT_RD6_MARK_NS_15_0 0 p ns).wrA TT_RD7_MARK_NS_39_16 0 p (ns / 2 ^ 16)).wrA
    TT_RD8_MARK_NS_63_40 0 p (ns / 2 ^ 40)
  let s := ((s.wrA TT_RD9_MARK_EPOCH 0 p epoch).wrA TT_RD0_CC 0 p cc).wrA TT_RD10_RM_COUNT 0 p (s.rdA TT_RD10_RM_COUNT 0 p + 1)
  (s.setTt p fun x => { x with markAt := ivl }).evt TU_EVT_EVT 0 7

/-- A reference message is dropped: SKIP (R462). -/
def State.ttSkip (s : State) (p : Nat) : State := (s.ttCount TT_RD11_SKIP p).ttMaster p 3

/-- Members of MEMB that have not consented (R739). -/
def State.memb (s : State) (p : Nat) : Nat := s.rdA PM_ARD2_MEMB_L 0 p + s.rdA PM_ARD3_MEMB_H 0 p * 2 ^ 24
/-- Members that consented in the last round. -/
def State.got (s : State) (p : Nat) : Nat := s.rdA PM_ARD4_GOT_L 0 p + s.rdA PM_ARD5_GOT_H 0 p * 2 ^ 24

/-- A round of a port ends with a code (R725, R726): ASTATE follows, a failure is counted, ANISE_ROUND is queued every time. -/
def State.endRound (s : State) (p code : Nat) : State :=
  let s := (s.wrA PM_PSLP_LASTRES 0 p code).wrA PM_PSLP_ASTATE 0 p (if code = 1 then 4 else 1)
  let s := if code = 1 then s else s.bump PM_ROUND_FAIL_COUNT 0
  let s := s.setAn p fun a => { a with sentAt := none, sleepDue := false }
  s.event (s.fbOwner p) 0x0C04 p ([BitVec.ofNat 8 code, BitVec.ofNat 8 (s.rdA PM_PSLP_ROUND 0 p),
    BitVec.ofNat 8 (s.rdA PM_ARD5_REFUSER 0 p)] ++ leBytes 4 (clearMask (s.memb p) (s.got p)))

/-- A round of the port runs (R724). -/
def State.roundRuns (s : State) (p : Nat) : Bool := s.rdA PM_PSLP_ASTATE 0 p == 2 || s.rdA PM_PSLP_ASTATE 0 p == 3

/-- A round that runs fails (R725). -/
def State.failRound (s : State) (p code : Nat) : State := if s.roundRuns p then s.endRound p code else s

/-- ACTING takes a value; a change sets TT_SYNC (R462, R470). -/
def State.setActing (s : State) (p : Nat) (on : Bool) : State :=
  if (s.rdA TT_RD0_ACTING 0 p != 0) == on then s else (s.wrA TT_RD0_ACTING 0 p (b2n on)).evt TU_EVT_EVT 0 8

/-- The device's frame is SENT (R462, R621, R725, R726). -/
def State.devSent (s : State) (p : Nat) (what : DevFrame) (f : Frame) (ns frac epoch ivl : Nat) : State :=
  match what with
  | .reference =>
    let cc := (f.data.headD 0).toNat % 64
    let s := (s.setMark p ns frac epoch ivl cc).setActing p true
    s.setTt p fun x => { x with last := some cc }
  | .clove => { s with pair := { s.pair with clove := tset 0 s.pair.clove p 2 } }
  | .aniseQuery => if s.rdA PM_PSLP_ASTATE 0 p = 2 then s.setAn p fun a => { a with sentAt := some s.now } else s
  | .aniseCommit => if s.rdA PM_PSLP_ASTATE 0 p = 3 then s.setAn p fun a => { a with sleepDue := true } else s
  | .aniseWake => s

/-- The device's frame is refused or returned by the queue. -/
def State.devReturned (s : State) (p : Nat) (what : DevFrame) : State :=
  match what with
  | .reference => s.ttSkip p
  | .clove => { s with pair := { s.pair with clove := tset 0 s.pair.clove p 3 } }
  | .aniseQuery => s.failRound p 6
  | .aniseCommit => s.failRound p 6
  | .aniseWake => s

/-! ### Returns, withdrawals and outcomes (R317-R322) -/

/-- An entry is returned with a status (R322). -/
def State.returnEntry (s : State) (p : Nat) (e : QEntry) (status : Nat) : State :=
  let s := s.freeEntry p e false 0
  match e.src with
  | .tenant _ => s.endTenant e status 0
  | .device _ what => s.devReturned p what
  | .reflex _ => s

/-- A pointer mismatch of a queue: every entry returns with QUEUE_RESET, the frame in flight is marked, RESETTING is set until the
rebuild is complete, PQ_RESET is queued, and source 64 + p has an event. (DESIGN CHOICE, log entry 46.) -/
def State.queueReset (s : State) (p : Nat) : State :=
  let s := s.put PQ_STAT_RESETTING p true
  let gone := (s.queue p).entries.filter fun e => !e.inflight
  let own := fun (e : QEntry) => match e.src with | .tenant _ => some (e.ring / 256) | _ => none
  let s := gone.foldl (fun (s : State) (e : QEntry) => s.returnEntry p e 0x4D) s
  let s := s.setEntries p ((s.queue p).entries.map fun e => { e with mark := some 0x4D })
  let s := (s.bump PQ_RESETS_COUNT p).setQueue p fun q => { q with lastKey := 0 }
  let who := ((gone.filterMap own) ++ [s.fbOwner p]).eraseDups
  let n := s.rd PQ_RESETS_COUNT p
  let s := who.foldl (fun (s : State) t =>
    s.event t 0x0201 p (leBytes 2 (gone.filter fun e => own e == some t).length ++ leBytes 3 n)) s
  { s with fc := { s.fc with due := s.fc.due ++ [p] } }

/-- A queue operation reads both copies of each pointer; a mismatch starts a queue reset in its place (R334). -/
def State.checkPtrs (s : State) (p : Nat) : State :=
  if (s.queue p).ptrA == (s.queue p).ptrB then s else s.queueReset p

/-- The queue and its head-of-queue reservation are full (R59, R93): possible only where a new image lowered a quota. A further frame is
refused. (DESIGN CHOICE, log entry 101.) -/
def State.queueFull (s : State) (p : Nat) : Bool :=
  let held := (s.queue p).entries.filter fun e => match e.src with | .reflex _ => false | _ => !e.mirror
  decide (held.length + s.rd PQ_CFG_RSV p ≥ 512)

/-- Every queued entry of a port is returned in list order (R321, R323); with `all`, the frame in flight first. -/
def State.returnAll (s : State) (p status : Nat) (all : Bool) : State :=
  let s := s.checkPtrs p
  let es := (s.queue p).entries
  let fl := if all then es.filter (·.inflight) else []
  (fl ++ es.filter fun e => !e.inflight).foldl (fun (s : State) (e : QEntry) =>
    s.returnEntry p e (if e.mark == some 0x4D then 0x4D else status)) s

/-- A device frame still queued is withdrawn by the unit that submitted it (R317, R330). -/
def State.withdrawDev (s : State) (p : Nat) (what : DevFrame) : State :=
  let s := s.checkPtrs p
  let mine := (s.queue p).entries.filter fun e => !e.inflight && (match e.src with | .device _ w => w == what | _ => false)
  let s := mine.foldl (fun (s : State) (e : QEntry) => s.freeEntry p e false 0) s
  let es := (s.queue p).entries.map fun e =>
    if e.inflight && (match e.src with | .device _ w => w == what | _ => false) then { e with expired := true } else e
  s.setEntries p es

/-- An entry whose outcome was LOST or ERROR is freed when it is marked (R318, R328, R332, R82). -/
def State.marked (s : State) (p : Nat) (e : QEntry) : Option State :=
  if e.orphan then some (s.freeEntry p e false 0)
  else match e.mark with
  | some st =>
    let s := s.freeEntry p e false 0
    some (match e.src with
      | .tenant _ => s.endTenant e st 0
      | .device _ what => s.devReturned p what
      | .reflex _ => s)
  | none =>
    if e.expired then
      let s := s.freeEntry p e false 0
      some (match e.src with | .reflex _ => s.bump PQ_RSV_EXPIRED_COUNT p | _ => s)
    else none

/-- CANCELLED completions count on the link whose checker admitted the frame. -/
def State.countCancel (s : State) (e : QEntry) : State := s.bump HP_CANCEL_CNT_COUNT e.link

/-- The entry whose frame the bit engine took and has not reported (R255, R348). -/
def State.takenEntry (s : State) (p : Nat) : Option QEntry :=
  (s.queue p).entries.find? fun e => e.inflight && (s.port p).taken == some (e.seq, e.mirror)

/-- The outcome of the frame in flight acts on its entry (R318, R320, R276); after a queue reset it decides that frame alone (R334). In DRAINING
an ACK error that reaches ACKLIM returns NO_ACK. (DESIGN CHOICE, log entry 102.) -/
def State.outcome (s : State) (p : Nat) (o : TxOutcome) : State :=
  let s := s.checkPtrs p
  let was := s.takenEntry p
  let s := s.setPort p fun x => { x with taken := none }
  match was with
  | none => s
  | some e =>
    let requeue := fun (s : State) (acks : Nat) =>
      match s.marked p e with
      | some s' => if e.mark == some 0x48 && !e.orphan then s'.countCancel e else s'
      | none =>
        if s.fstate p = fbDraining then s.returnEntry p e 0x49
        else s.setEntry p e fun e => { e with inflight := false, acks := acks }
    match o with
    | .sent ns frac epoch ivl =>
      let s := (s.freeEntry p e true ns).bump PQ_SENT_COUNT p
      match e.src with
      | .tenant _ => s.endTenant e 0 (ns % 2 ^ 32)
      | .device _ what => s.devSent p what e.frame ns frac epoch ivl
      | .reflex _ => s
    | .lost =>
      let s := s.bump PQ_LOST_COUNT p
      let s := match e.src with
        | .tenant l => (s.refund l e.cost).noteLease l
        | .device l _ => s.refund l e.cost
        | .reflex _ => s
      requeue s 0
    | .error ackOnly =>
      let s := s.bump PQ_ERR_COUNT p
      let n := if ackOnly then e.acks + 1 else 0
      let lim := s.rd FB_CFG_ACKLIM p
      if ackOnly && lim != 0 && decide (n ≥ lim) && e.mark.isNone && !e.orphan && !e.expired then s.returnEntry p e 0x4F
      else requeue s n
    | .busOff => s.returnEntry p e (if e.mark == some 0x4D then 0x4D else 0x4A)
    | .abandoned => s.returnEntry p e (if e.mark == some 0x4D then 0x4D else 0x4C)

end Sys2Proof.Machine
end

