-- ==== Sys2Proof/Machine/FieldBus.lean ====
section
/-! DEFINITION. Field bus port states: transceiver, restricted operation, error confinement, bus-off, draining, boundaries (chapter 05). -/

namespace Sys2Proof.Machine

/-! ### Events (R287-R289) -/

/-- An event bit of a port. -/
def State.fbEvt (s : State) (p n : Nat) : State := s.evt FB_EVT_EVT p n

/-- FB_ERRSTATE. -/
def State.errStateEvt (s : State) (p old new : Nat) (warn : Bool) : State :=
  s.event (s.fbOwner p) 0x0101 p ([BitVec.ofNat 8 old, BitVec.ofNat 8 new] ++ leBytes 2 (s.rd FB_ERRC_TEC p)
    ++ [BitVec.ofNat 8 (s.rd FB_ERRC_REC p), BitVec.ofNat 8 (b2n warn)])

/-- FB_XCVR and FB_PROTO, at most one of each code per millisecond (R288). -/
def State.xcvrEvt (s : State) (p why : Nat) : State := s.eventLim (s.fbOwner p) 0x0106 p [BitVec.ofNat 8 why]
def State.protoEvt (s : State) (p why tdc : Nat) : State :=
  s.eventLim (s.fbOwner p) 0x0107 p [BitVec.ofNat 8 why, BitVec.ofNat 8 tdc]

/-- FB_LASTERR as one value. -/
def State.lastErr (s : State) (p : Nat) : Nat :=
  s.rd FB_LASTERR_TYPE p * 2 ^ 21 + s.rd FB_LASTERR_DIR p * 2 ^ 20 + s.rd FB_LASTERR_PHASE p * 2 ^ 19 + s.rd FB_LASTERR_BITPOS p

/-! ### The transceiver and restricted operation (R256-R258, R266) -/

/-- Restricted operation can apply in the state (R266). -/
def restrictable (st : Nat) : Bool := st == fbDraining || st == fbIntegrating || st == fbActive || st == fbPassive

/-- The mode that port state and restricted operation fix (R257): 0 OFF, 1 STANDBY, 2 SILENT, 3 NORMAL. -/
def State.modeOf (s : State) (p : Nat) : Nat :=
  let st := s.fstate p
  if st = fbAbsent ∨ !s.domOn p then 0
  else if st = fbDisabled ∨ st = fbAsleep then 1
  else if st = fbBusOff ∨ st = fbRecovering ∨ s.restricted p then 2
  else 3

/-- XCVR takes a mode; with the receiver off BUSDOM is 0 (R256, R260). -/
def State.setXcvr (s : State) (p m : Nat) : State :=
  let s := s.wr FB_STAT_XCVR p m
  if m < 2 then s.put FB_STAT_BUSDOM p false else s

/-- The transceiver is commanded to its mode: a change to or from STANDBY takes its time, also where it reverses one under way (R258), any other
acts at once. -/
def State.refreshXcvr (s : State) (p : Nat) : State :=
  let m := s.modeOf p
  let x := s.port p
  let from_ := if x.xcvrBy.isSome then x.xcvrTo else s.rd FB_STAT_XCVR p
  if m = from_ then s
  else
    let s := (s.emit (.transceiver p m)).setPort p fun x => { x with xcvrTo := m }
    if m = 1 ∧ from_ ≠ 0 then s.setPort p fun x => { x with xcvrBy := some (s.now + 10 * tqPerUs) }
    else if m > 1 ∧ from_ ≤ 1 then s.setPort p fun x => { x with xcvrBy := some (s.now + 50 * tqPerUs) }
    else if m > 1 ∧ x.xcvrBy.isSome then s
    else (s.setPort p fun x => { x with xcvrBy := none }).setXcvr p m

/-- FB_CAP as it stands: EN, and twice OWN, and four times FAILED (R390). -/
def State.capWord (s : State) (p : Nat) : Nat := s.rd FB_CAP_EN p + 2 * s.rd FB_CAP_OWN p + 4 * s.rd FB_CAP_FAILED p

/-- A frame-store slot that a frame in progress holds returns (R346). -/
def State.dropTransit (s : State) (p : Nat) : State :=
  match (s.port p).cur with
  | some c =>
    let s := match c.slot with
      | some k => s.freeSlot k
      | none => s
    if c.hdr.isSome then s.bump CL_ABANDON_CNT_COUNT (p / 16) else s
  | none => s

/-- The frame in progress is over for the assembler; it may stay in progress on the bus. -/
def State.endCur (s : State) (p : Nat) (tail : Bool) : State :=
  let s := s.setPort p fun x => { x with cur := none, tail := tail }
  ((s.put FB_STAT_TXING p false).put FB_STAT_RXING p tail).put FB_STAT_IDLE p false

/-- The queue returns every entry because the port no longer accepts (R321); a stopped queue does so at the end of the gap, with the status of the
first such event (R759). -/
def State.portReturns (s : State) (p status : Nat) : State :=
  if s.inGap then s.setPort p fun x => { x with gapReturn := x.gapReturn.or (some status) } else s.returnAll p status true

/-- An outcome is reported, or held during a gap (R255, R759). -/
def State.reportOutcome (s : State) (p : Nat) (o : TxOutcome) : State :=
  if s.inGap then s.setPort p fun x => { x with heldOut := some o } else s.outcome p o

/-- The port transmits a frame: its entry is in flight. -/
def State.sending (s : State) (p : Nat) : Bool := match (s.port p).cur with
  | some c => c.own.isSome
  | none => false

/-- What restricted operation is in effect, as the owner's request and Mace give it; a change of the effective setting raises RESTRICT (R266,
R287). On a port that integrates or runs, its beginning returns the queue, and a Mace force cuts the frame in transmission: ABANDONED. In
DRAINING too it returns the entries at once with 0x4B, as the table of R321 has it. (DESIGN CHOICE, log entry 98.) -/
def State.refreshRestrict (s : State) (p : Nat) : State :=
  let own := s.flag FB_MODE_RESTRICT p
  let mace := (s.port p).maceForce
  if own == s.flag FB_STAT_R_OWN p && mace == s.flag FB_STAT_R_MACE p then s
  else
    let was := s.restricted p
    let s := (s.put FB_STAT_R_OWN p own).put FB_STAT_R_MACE p mace
    let s := if (own || mace) == was then s
      else (s.fbEvt p 14).event (s.fbOwner p) 0x0108 p [BitVec.ofNat 8 (b2n own + 2 * b2n mace)]
    if (own || mace) && !was && restrictable (s.fstate p) then
      let s := s.failRound p 5
      let s := if mace && s.sending p then
          let s := (s.dropTransit p).endCur p true
          (s.setPort p fun x => { x with reint := true, role := false }).reportOutcome p .abandoned
        else s
      s.portReturns p 0x4B
    else s

/-- STATE takes a value; restricted operation and the transceiver follow. -/
def State.setFstate (s : State) (p st : Nat) : State :=
  let s := s.wr FB_STAT_STATE p st
  let s := if st = fbActive ∨ st = fbPassive then s else s.failRound p 5
  let s := if st = fbDisabled then s.wr FB_TDC_VALID p 0 else s
  (s.refreshRestrict p).refreshXcvr p

/-! ### Boundaries (R122, R266, R292) -/

/-- Every instant is a boundary of the port (R122). -/
def State.fbImmediate (s : State) (p : Nat) : Bool :=
  let st := s.fstate p
  st == fbAbsent || st == fbDisabled || st == fbBusOff || st == fbRecovering || st == fbAsleep

/-- What an image sets an RWI field to; its reset value where the image does not list it. VALID of an owner equals PRESENT (R23). -/
def Image.val (m : Image) (f : Fld) (i j : Nat) : Nat :=
  let f := if f = FB_OWNER_VALID then FB_CFG_PRESENT else if f = SP_OWNER_VALID then SP_CFG_PRESENT else f
  match m.rwi.find? fun x => x.1 == f && x.2.1 == i && x.2.2.1 == j with
  | some x => x.2.2.2 % 2 ^ f.w
  | none => f.rst

/-- The RWI fields of a block that `sel` picks take the active image's values for an instance. -/
def State.loadRwi (s : State) (sel : Fld → Bool) (b : Blk) (i : Nat) : State :=
  (b.fields.filter fun f => f.acc == .rwi && sel f).foldl (fun (s : State) f =>
    (List.range f.cnt).foldl (fun (s : State) j =>
      (s.wrA f i j (s.img.val f i j)).rewritten (f.key i j) false) s) s

/-- Image resets of RWB fields take the active image's values for an instance (R12). -/
def State.loadResets (s : State) (fs : List Fld) (i : Nat) : State :=
  fs.foldl (fun (s : State) f => (List.range f.cnt).foldl (fun (s : State) j => (s.wrA f i j (s.img.val f i j)).rewritten (f.key i j) false) s) s

/-- PRESENT and START act at the activation itself (R292). -/
def notPresentStart (f : Fld) : Bool := f != FB_CFG_PRESENT && f != FB_CFG_START

/-- The values of a new image and its steering bank reach the port; the termination switch follows TERM, and the port's group decides whether
Mace forces it (R264, R292, R353, R678, R768). -/
def State.takeImage (s : State) (p : Nat) : State :=
  if (s.port p).rwiPend then
    let s := s.loadRwi notPresentStart .fb p
    let forced := s.rdA FC_GSTAT_FORCED 0 (s.rd FB_ROLE_GROUP p) != 0
    s.setPort p fun x => { x with
      rwiPend := false, bank := s.rx.newBank, term := s.flag FB_CFG_TERM p, maceForce := forced, maceRelease := false }
  else s

/-- Mace releases the port (R266). -/
def State.maceLift (s : State) (p : Nat) : State :=
  if (s.port p).maceRelease then s.setPort p fun x => { x with maceRelease := false, maceForce := false } else s

/-- A boundary of an FB port (R122, R124, R253, R266, R610, R626). -/
def State.fbBoundary (s : State) (p : Nat) : State :=
  if (s.port p).cur.isSome then s
  else
    let s := s.setPort p fun x => { x with
      tail := false, reint := false, role := false
      suspend := false, suspEnd := if x.suspend then s.now + 8 * s.nbt p else x.suspEnd }
    let s := (s.put FB_STAT_RXING p false).put FB_STAT_IDLE p (restrictable (s.fstate p) && s.fstate p != fbIntegrating)
    let s := ((s.takeImage p).applyStaged (.fb p)).maceLift p
    let s := match s.pair.swap with
      | some w =>
        if w.stopped.contains p then s
        else ({ s with pair := { s.pair with swap := some { w with
          stopped := w.stopped ++ [p], at_ := if w.stopped.isEmpty then s.now else w.at_ } } }).setPort p fun x => { x with txHold := true }
      | none => s.setPort p fun x => { x with txHold := false }
    ((s.refreshRestrict p).refreshXcvr p).refreshHead p

/-- A port in a state in which every instant is a boundary takes a change at once. -/
def State.settlePort (s : State) (p : Nat) : State := if s.fbImmediate p then s.fbBoundary p else s

/-! ### Error confinement (R249-R252) -/

/-- Both counters become 0. -/
def State.zeroErrors (s : State) (p : Nat) : State := ((s.wr FB_ERRC_TEC p 0).wr FB_ERRC_REC p 0).put FB_STAT_WARN p false

/-- Entry into BUS_OFF (R273, R277, R321): a boundary of the port (R122). -/
def State.enterBusOff (s : State) (p : Nat) : State :=
  let s := ((s.dropTransit p).endCur p false).put FB_STAT_RXING p false
  let s := (((s.put FB_STAT_BOMEM p true).wr FB_BOSUP_OCC p 0).put FB_BOSUP_HELD p false).setPort p fun x => { x with occBefore := 0 }
  let s := (s.setFstate p fbBusOff).bump FB_BUSOFF_CNT_COUNT p
  let s := (s.fbEvt p 2).event (s.fbOwner p) 0x0102 p (leBytes 3 (s.lastErr p) ++ leBytes 2 (s.rd FB_ERRC_TEC p))
  ((s.setPort p fun x => { x with suspend := false, role := false, reint := false }).portReturns p 0x4A).settlePort p

/-- The ENABLE of a DISABLED port, checked as a command (R272, R273): the state after it and the code. -/
def State.enableDisabled (s : State) (p : Nat) : State × Nat :=
  if !s.domReady p then (s, 6)
  else
    let s := s.zeroErrors p
    if s.flag FB_STAT_BOMEM p then
      let s := s.setPort p fun x => { x with clearCause := 2 }
      ((s.wr FB_BOSUP_OCC p 0).setFstate p fbRecovering, 0)
    else (s.setFstate p fbIntegrating, 0)

/-- FB_DRAINED (R289). -/
def State.drained (s : State) (p res : Nat) : State :=
  (s.fbEvt p 6).event (s.fbOwner p) 0x0105 p [BitVec.ofNat 8 (s.fstate p), BitVec.ofNat 8 res]

/-- Anise on a port that is disabled: the answer timer stops (R732). -/
def State.awake (s : State) (p : Nat) : State :=
  let s := if s.rdA PM_PSLP_ASTATE 0 p ≥ 4 then (s.wrA PM_PSLP_ASTATE 0 p 1).wrA PM_PSLP_FSL 0 p 0 else s
  s.setAn p fun a => { a with wakeDue := false, sleepDue := false }

/-- Arrival in DISABLED: the queue returned (R273, R275); it is a boundary of the port (R122). FB_BOSUP keeps its count (R295). -/
def State.toDisabled (s : State) (p : Nat) : State :=
  let s := ((s.dropTransit p).endCur p false).put FB_STAT_RXING p false
  -- the occurrences counted in BUS_OFF are those that a later clear reports (R289)
  let s := if s.fstate p = fbBusOff then s.setPort p fun x => { x with occBefore := s.rd FB_BOSUP_OCC p } else s
  let s := (s.put FB_BOSUP_HELD p false).setFstate p fbDisabled
  let s := (s.portReturns p 0x49).awake p
  (s.setPort p fun x => { x with suspend := false, role := false, reint := false }).settlePort p

/-- An ABSENT port that the image makes present (R273): its counts start afresh, and it is DISABLED, or with START integrates. -/
def State.arriveFb (s : State) (p : Nat) : State :=
  let s := s.setPort p fun x => { x with autoClears := [], occBefore := 0, clearCause := 0 }
  let s := (((s.settlePort p).zeroErrors p).put FB_STAT_BOMEM p false).wr FB_BOSUP_OCC p 0
  s.setFstate p (if s.flag FB_CFG_START p then fbIntegrating else fbDisabled)

/-- ABSENT is reached where PRESENT has become 0, or where the image did not take the port over (R765), which then arrives anew. -/
def State.leave (s : State) (p : Nat) : State :=
  if (s.port p).leaving && s.fstate p == fbDisabled then
    let s := (s.setFstate p fbAbsent).setPort p fun x => { x with leaving := false }
    if s.flag FB_CFG_PRESENT p then (s.setPort p fun x => { x with rxSeq := 0 }).arriveFb p else s
  else s

/-- The end of DRAINING (R273, R276): the queue returned, a pending ENABLE applied. -/
def State.endDrain (s : State) (p : Nat) : State :=
  let pend := s.flag FB_STAT_PEND_EN p
  let s := (s.toDisabled p).put FB_STAT_PEND_EN p false
  let (s, res) := if pend then
      let (s, c) := s.enableDisabled p
      (s.wr FB_CMDRES_RESULT p c, c)
    else (s, 0xFF)
  (s.drained p res).leave p

/-- The port is disabled by its owner or by an image (R273): from a state with a frame in progress it drains. -/
def State.disablePort (s : State) (p : Nat) : State :=
  let st := s.fstate p
  if (st = fbIntegrating ∨ s.onBus p) ∧ ((s.port p).cur.isSome ∨ (s.port p).tail) then
    let s := s.setPort p fun x => { x with drainFrom := st, drainAt := s.now + 1200 * s.nbt p }
    s.setFstate p fbDraining
  else if st = fbIntegrating ∨ s.onBus p ∨ st = fbBusOff ∨ st = fbRecovering ∨ st = fbAsleep then
    ((s.toDisabled p).drained p 0xFF).leave p
  else if st = fbDraining then s.put FB_STAT_PEND_EN p false
  else s.leave p

/-- WARN, and the state, follow the counters (R252, R273). A DRAINING port whose TEC passes 255 counts in FB_BUSOFF_CNT like one that enters BUS_OFF.
(DESIGN CHOICE, log entry 99.) -/
def State.errState (s : State) (p : Nat) : State :=
  let tec := s.rd FB_ERRC_TEC p
  let rec_ := s.rd FB_ERRC_REC p
  let st := s.fstate p
  let warn := decide (tec ≥ 96 ∨ rec_ ≥ 96)
  let s := if warn && !s.flag FB_STAT_WARN p then (s.fbEvt p 0).errStateEvt p st st true else s
  let s := s.put FB_STAT_WARN p warn
  if tec > 255 ∧ (st = fbActive ∨ st = fbPassive) then s.enterBusOff p
  else if tec > 255 ∧ st = fbDraining then
    let s := (((s.put FB_STAT_BOMEM p true).setPort p fun x => { x with occBefore := 0 }).bump FB_BUSOFF_CNT_COUNT p).fbEvt p 2
    (s.event (s.fbOwner p) 0x0102 p (leBytes 3 (s.lastErr p) ++ leBytes 2 tec)).endDrain p
  else if (tec > 127 ∨ rec_ > 127) ∧ st = fbActive then
    ((s.setFstate p fbPassive).fbEvt p 1).errStateEvt p fbActive fbPassive false
  else if tec ≤ 127 ∧ rec_ ≤ 127 ∧ st = fbPassive then
    ((s.setFstate p fbActive).fbEvt p 3).errStateEvt p fbPassive fbActive false
  else s

/-- TEC rises; it holds the value at which the port enters BUS_OFF (R251). -/
def State.tecUp (s : State) (p n : Nat) : State :=
  let v := s.rd FB_ERRC_TEC p
  if v > 255 then s else s.wr FB_ERRC_TEC p (v + n)

/-- REC rises and saturates at 255 (R251). -/
def State.recUp (s : State) (p n : Nat) : State := s.wr FB_ERRC_REC p (min 255 (s.rd FB_ERRC_REC p + n))

/-- Cases 7 to 9 of R249: a frame ended without error. (DEDUCED, log entry 36.) -/
def State.frameGood (s : State) (p : Nat) (own : Bool) : State :=
  if s.restricted p then s
  else
    let s := if own then s.wr FB_ERRC_TEC p (s.rd FB_ERRC_TEC p - 1)
      else
        let v := s.rd FB_ERRC_REC p
        if v = 0 then s else if v ≤ 127 then s.wr FB_ERRC_REC p (v - 1) else s.wr FB_ERRC_REC p 120
    s.errState p

/-- The state that a port acts as: while it drains, the one it drains from (R276). -/
def State.actsAs (s : State) (p : Nat) : Nat := if s.fstate p = fbDraining then (s.port p).drainFrom else s.fstate p

/-- The counters change by the case of R249 that an error event meets. -/
def State.countError (s : State) (p : Nat) (c : ErrCase) : State :=
  match c with
  | .receiver => s.recUp p 1
  | .receiverDominant => s.recUp p 8
  | .transmitter => s.tecUp p 8
  | .ackPassive => s
  | .stuffArb => s
  | .flagBit => if (s.port p).role then s.tecUp p 8 else s.recUp p 8
  | .dominantRun => if (s.port p).role then s.tecUp p 8 else s.recUp p 8

/-- The TYPE code of an error (FB_LASTERR). -/
def errCode : ErrType → Nat
  | .bit => 1 | .stuff => 2 | .form => 3 | .crc => 4 | .ack => 5 | .stuffCount => 6

/-- The counter of an error type (R294). -/
def errCounter : ErrType → Fld
  | .bit => FB_BITERR_COUNT | .stuff => FB_STUFFERR_COUNT | .form => FB_FORMERR_COUNT
  | .crc => FB_CRCERR_COUNT | .ack => FB_ACKERR_COUNT | .stuffCount => FB_CRCERR_COUNT

/-- An error detected is recorded: FB_LASTERR, its counter, RXERR or TXERR. -/
def State.recordError (s : State) (p : Nat) (e : BusError) : State :=
  let tx := (s.port p).role
  let s := (((s.wr FB_LASTERR_TYPE p (errCode e.typ)).put FB_LASTERR_DIR p tx).put FB_LASTERR_PHASE p e.dataPhase).wr
    FB_LASTERR_BITPOS p (min 65535 e.bitPos)
  (s.bump (errCounter e.typ) p).fbEvt p (if tx then 13 else 12)

/-! ### Mace (R266, R678) -/

/-- The port's safe-state group is forced (R266, R678), or the force ends (release at the next boundary). -/
def State.maceForcePort (s : State) (p : Nat) : State :=
  let s := s.setPort p fun x => { x with maceForce := true, maceRelease := false }
  (s.refreshRestrict p).refreshXcvr p
def State.maceReleasePort (s : State) (p : Nat) : State :=
  if (s.port p).maceForce then (s.setPort p fun x => { x with maceRelease := true }).settlePort p else s

/-! ### Bus-off recovery (R279-R285) -/

/-- A clear (R280): RECOVERING, the occurrence count restarts. -/
def State.clearBusOff (s : State) (p cause : Nat) : State :=
  let occ := s.rd FB_BOSUP_OCC p
  let s := s.setPort p fun x => { x with occBefore := occ, clearCause := cause }
  ((s.wr FB_BOSUP_OCC p 0).put FB_BOSUP_HELD p false).setFstate p fbRecovering

/-- The automatic clears of the last 3,600 s on the time base (R281, R283). -/
def State.recentClears (s : State) (p : Nat) : List Nat :=
  (s.port p).autoClears.filter fun t => decide (s.now < t + 3600 * tqPerS)

/-- The hand-back of a sleeping port (R273, R729, R732): it integrates. -/
def State.handBack (s : State) (p : Nat) : State :=
  let s := s.wrA PM_PSLP_ASTATE 0 p 1
  if s.fstate p = fbAsleep then s.setFstate p fbIntegrating else s

end Sys2Proof.Machine
end

