-- ==== Sys2Proof/Machine/Discrete.lean ====
section
/-! DEFINITION. Discrete banks: commands, drives, inputs, the timestamp FIFO, the safe state, field supply (chapter 10). -/

namespace Sys2Proof.Machine

/-- Bank `b`. -/
def State.bank (s : State) (b : Nat) : DbSt := tget {} s.db b
/-- Changing a bank. -/
def State.setBank (s : State) (b : Nat) (f : DbSt → DbSt) : State := { s with db := tupd {} s.db b f }

/-- The function code of a line (R497). -/
def State.lineFn (s : State) (b line : Nat) : Nat :=
  if line < 8 then bitsOf (s.rd DB_FUNC0_FUNC b) (3 * line) 3 else bitsOf (s.rd DB_FUNC1_FUNC b) (3 * (line - 8)) 3

/-- The lines of a bank with a property, as a mask. -/
def maskOf (p : Nat → Bool) : Nat := (List.range 16).foldl (fun acc j => acc + b2n (p j) * 2 ^ j) 0

/-- The lines of a mask. -/
def linesOf (m : Nat) : List Nat := (List.range 16).filter fun j => bitAt m j

/-- A line is in the break interval of a function switch (R506). -/
def DbSt.breaking (d : DbSt) (line : Nat) : Bool := d.breaks.any fun x => x.1 == line

/-- A line is OUT and not in its break interval. -/
def State.isOut (s : State) (b line : Nat) : Bool := s.lineFn b line == 2 && !(s.bank b).breaking line
/-- A line is PPS and not in its break interval. -/
def State.isPps (s : State) (b line : Nat) : Bool := s.lineFn b line == 5 && !(s.bank b).breaking line

/-- The bank has its field supply and its domain is on (R508, R703). -/
def State.bankUp (s : State) (b : Nat) : Bool := s.flag DB_STAT_VF_OK b && s.domOn (88 + b)

/-- The bank is forced through Mace. -/
def State.bankForced (s : State) (b : Nat) : Bool := s.flag DB_STAT_MACE b

/-- Whether a line's driver is on (R501, R502, R506-R508, R611). -/
def State.lineDrive (s : State) (b line : Nat) : Bool :=
  let d := s.bank b
  if !s.bankUp b || !d.driveOn || bitAt (s.rd DB_OC_OC b ||| d.ocWait) line then false
  else if s.bankForced b then (s.isOut b line || s.isPps b line) && bitAt (s.rd DB_SAFE_SAFE b) line
  else if s.isOut b line then bitAt (s.rd DB_OUT_CMD b) line
  else s.isPps b line && bitAt d.pps line && !bitAt d.ppsWait line

/-- The drivers follow; a change leaves the device. -/
def State.refreshDrive (s : State) (b : Nat) : State :=
  let m := maskOf (s.lineDrive b)
  if m = (s.bank b).drive then s else (s.setBank b fun d => { d with drive := m }).emit (.lines b m)

/-! ### Commands (R409, R410, R501, R533) -/

/-- A response answers a request: on its ring, onward, or at the local path (R519, R540). -/
def State.respond (s : State) (via : Option Nat) (c : Cell) (st reason dropped count : Nat) (payload : List Byte) : State :=
  let s := if st = 0 then s else s.bump RG_REFUSED_IN_COUNT 0
  match via with
  | none => s.completeCtx c.tag st reason dropped ((List.range count).map fun j => leNat ((payload.drop (3 * j)).take 3))
  | some ring => (s.insertCell ring (response c (s.rd RG_CFG_NODE 0) st reason dropped count payload)).1

/-- Why a line of a command is dropped: 1 not OUT, 2 not granted, 3 safe state, 4 no VFIELD or domain; 0 not dropped. -/
def State.dropWhy (s : State) (b : Nat) (c : DbCmd) (line : Nat) : Nat :=
  let granted := match c.src with
    | .host t => bitAt (s.rd DB_GRANTV_VALID b) line && bitsOf (s.rdA DB_GRANT_TENANT b (line / 3)) (8 * (line % 3)) 8 == t
    | .rule _ _ => true
    | .remote _ _ denied => !bitAt denied line
  let host := match c.src with | .host _ => true | _ => false
  if !s.isOut b line then 1
  else if !granted then 2
  else if s.bankForced b || (host && s.holding) then 3
  else if !s.bankUp b then 4
  else 0

/-- The reflex rules' drop codes (R425, R533): 1 not an output, 2 safe state, 3 unpowered; 4 not granted of a remote command. -/
def reflexWhy (w : Nat) : Nat := [0, 1, 4, 2, 3][w]?.getD 0

/-- The drops of a command are counted and reported, and a remote command is answered. -/
def State.reportDrops (s : State) (b : Nat) (c : DbCmd) (dropped why : Nat) : State :=
  match c.src with
  | .host t =>
    if dropped = 0 then s
    else ((s.addA DB_CMDDROP_COUNT b 0 (popCount 16 dropped)).evt DB_EVT_EVT b 7).eventLim
      t 0x0613 b (BitVec.ofNat 8 why :: leBytes 2 dropped)
  | .rule r k =>
    if dropped = 0 then s
    else (s.addA RU_DOUT_DROP_COUNT 0 (r / 2048) 1).eventLim k 0x0402 r
      ([BitVec.ofNat 8 (reflexWhy why), BitVec.ofNat 8 b] ++ leBytes 2 dropped)
  | .remote q via _ => s.respond via q 0 (if dropped = 0 then 0 else reflexWhy why) dropped 0 []

/-- One command applies to the lines that take it (R409, R501). (DESIGN CHOICE, log entry 45.) -/
def State.applyCmd (s : State) (b : Nat) (c : DbCmd) : State :=
  let named := linesOf c.lines
  let good := named.filter fun j => s.dropWhy b c j == 0
  let bad := named.filter fun j => s.dropWhy b c j != 0
  let why := match bad with | [] => 0 | j :: _ => s.dropWhy b c j
  let gm := maskOf good.contains
  let s := if c.op = 1 then s.wr DB_OUT_CMD b (clearMask (s.rd DB_OUT_CMD b) gm) else s.wr DB_OUT_CMD b (s.rd DB_OUT_CMD b ||| gm)
  let s := s.setBank b fun d =>
    let keep := d.ends.filter fun x => !good.contains x.1
    { d with ends := if c.op = 2 ∧ c.width ≠ 0 then keep ++ good.map fun j => (j, s.now + c.width * tqPerUs) else keep }
  s.reportDrops b c (maskOf bad.contains) why

/-- Every waiting command of a bank applies, in order. -/
def State.applyCmds (s : State) (b : Nat) : State :=
  let cs := (s.bank b).cmds
  cs.foldl (fun (s : State) (c : DbCmd) => s.applyCmd b c) (s.setBank b fun d => { d with cmds := [] })

/-- A host's command. -/
def DbCmd.ofHost (c : DbCmd) : Bool := match c.src with | .host _ => true | _ => false

/-- A command joins those that wait, after all that reached the bank before it. Of one instant a host's stands first (R501); among firings half 0
stands before half 1, and within a half the frame assemblers in order (R44, R422). -/
def joinCmds (l : List DbCmd) (c : DbCmd) : List DbCmd :=
  let stays := fun (x : DbCmd) =>
    x.at_ != c.at_ || x.ofHost || (!c.ofHost && (x.turn == 0 || c.turn == 0 || decide (x.turn ≤ c.turn)))
  let tail := (l.reverse.takeWhile fun x => !stays x).reverse
  l.take (l.length - tail.length) ++ c :: tail

/-- A command reaches a bank (R410, R501): it waits for the tick, or is dropped at once where the bank is forced or has no supply. -/
def State.bankCmd (s : State) (b : Nat) (c : DbCmd) : State :=
  if s.bankUp b && !s.bankForced b then s.setBank b fun d => { d with cmds := joinCmds d.cmds { c with at_ := s.now } } else s.applyCmd b c

/-- The state that a DOUT mirror record carries; a change of it is mirrored (R613). -/
def State.noteOut (s : State) (b : Nat) (was : Nat × List (Nat × Nat)) : State :=
  let d := s.bank b
  if was = (s.rd DB_OUT_CMD b, d.ends) then s
  else s.mirror (.dout b (s.rd DB_OUT_CMD b) (d.ends.map fun x => (x.1, x.2 - s.now)))

/-- What a mirror record of a bank compares. -/
def State.outKey (s : State) (b : Nat) : Nat × List (Nat × Nat) := (s.rd DB_OUT_CMD b, (s.bank b).ends)

/-! ### Safe state and field supply (R507, R508, R679) -/

/-- The OUT lines of a bank. -/
def State.outMask (s : State) (b : Nat) : Nat := maskOf (s.isOut b)

/-- Mace forces a bank: what reached it before applies and is overridden (R422, R507, R679). -/
def State.maceForceBank (s : State) (b : Nat) : State :=
  if s.bankForced b then s.setBank b fun d => { d with lift := false }
  else
    let s := s.applyCmds b
    let was := s.outKey b
    let om := s.outMask b
    let s := s.wr DB_OUT_CMD b (clearMask (s.rd DB_OUT_CMD b) om ||| (om &&& s.rd DB_SAFE_SAFE b))
    let s := s.setBank b fun d => { d with ends := [], lift := false, ppsWait := maskOf (s.isPps b) }
    (((s.put DB_STAT_MACE b true).evt DB_EVT_EVT b 3).refreshDrive b).noteOut b was

/-- Mace releases a bank: at its next sample tick (R678). -/
def State.maceReleaseBank (s : State) (b : Nat) : State := if s.bankForced b then s.setBank b fun d => { d with lift := true } else s

/-- The lines lose their supply (R508, R703): inputs 0, outputs off, commands dropped. -/
def State.bankDown (s : State) (b : Nat) : State :=
  let was := s.outKey b
  let s := (s.wr DB_IN_LEVEL b 0).wr DB_OUT_CMD b (clearMask (s.rd DB_OUT_CMD b) (s.outMask b))
  let s := (s.setBank b fun d => { d with ends := [], runs := [] }).applyCmds b
  (s.refreshDrive b).noteOut b was

/-! ### Inputs (R500, R503, R504) -/

/-- An edge enters the timestamp FIFO in the order of edge times, of one tq in ascending line order; a full FIFO drops it (R504). -/
def State.tsEnter (s : State) (b : Nat) (e : TsEntry) : State :=
  let q := (s.bank b).fifo
  if q.length ≥ 32 then (s.bump DB_TSLOST_COUNT b).evt DB_EVT_EVT b 8
  else
    let before := fun (x : TsEntry) => x.epoch != e.epoch || decide (x.ns * 256 + x.frac < e.ns * 256 + e.frac)
      || (x.ns * 256 + x.frac == e.ns * 256 + e.frac && decide (x.line ≤ e.line))
    let s := s.setBank b fun d => { d with fifo := q.takeWhile before ++ e :: q.dropWhile before }
    let s := s.wr DB_TSCNT_COUNT b (q.length + 1)
    if q.isEmpty then s.evt DB_EVT_EVT b 9 else s

/-- An edge is reported where REN or FEN of the line says so: its bit, and the FIFO. -/
def State.reportEdge (s : State) (b : Nat) (e : TsEntry) : State :=
  if e.rise then
    (if bitAt (s.rd DB_REN_EN b) e.line then (s.evt DB_EDGE_R_EDGE b e.line).tsEnter b e else s)
  else if bitAt (s.rd DB_FEN_EN b) e.line then (s.evt DB_EDGE_F_EDGE b e.line).tsEnter b e
  else s

/-- DEB of a line. -/
def State.deb (s : State) (b line : Nat) : Nat := bitsOf (s.rdA DB_DEB_DEB b (line / 3)) (8 * (line % 3)) 8

/-- The level a line's detector holds takes a value. -/
def State.setLevel (s : State) (b line : Nat) (v : Bool) : State := s.wr DB_IN_LEVEL b (putBitAt (s.rd DB_IN_LEVEL b) line v)

/-- One line of a bank at a sample tick (R500, R506). -/
def State.sampleLine (s : State) (b levels line : Nat) : State :=
  let v := bitAt levels line
  let fn := s.lineFn b line
  let d := s.bank b
  if fn = 0 ∨ d.breaking line then s
  else if bitAt d.refDue line then
    (s.setLevel b line v).setBank b fun d => { d with refDue := clearBitAt d.refDue line, runs := tdel d.runs line }
  else if fn ≠ 1 then s
  else
    let run := tget {} d.runs line
    if v == bitAt (s.rd DB_IN_LEVEL b) line then s.setBank b fun d => { d with runs := tset {} d.runs line {} }
    else
      let run : DebRun := if run.count = 0 then ⟨1, s.ns, s.frac, s.rd TU_EPOCH_EPOCH 0 % 256⟩ else { run with count := run.count + 1 }
      if run.count > s.deb b line then
        let s := (s.setLevel b line v).setBank b fun d => { d with runs := tset {} d.runs line {} }
        s.reportEdge b ⟨v, line, run.ns, run.frac, run.epoch⟩
      else s.setBank b fun d => { d with runs := tset {} d.runs line run }

/-! ### Function switches (R506) -/

/-- A switched line starts its new function: OUT off, or at its safe value while forced; CNT at 0; the detector takes a reference. -/
def State.startFn (s : State) (b line : Nat) : State :=
  let s := s.setBank b fun d => { d with breaks := d.breaks.filter fun x => x.1 != line, refDue := setBitAt d.refDue line }
  let fn := s.lineFn b line
  if fn = 2 then
    s.wr DB_OUT_CMD b (putBitAt (s.rd DB_OUT_CMD b) line (s.bankForced b && bitAt (s.rd DB_SAFE_SAFE b) line))
  else if fn = 3 then s.wrA DB_CNT_COUNT b line 0
  else if fn = 5 then { s with time := { s.time with ppsSec := tset 0 s.time.ppsSec (b * 16 + line) (s.ns / 1000000000) } }
  else s

/-- A new image's functions and debounce times, then staged ones, become active at tick T: the changed lines break until T + 2
(R12, R506, R763). -/
def State.applyBank (s : State) (b : Nat) : State :=
  let old := (List.range 16).map fun j => if (s.bank b).anew then 0 else s.lineFn b j
  let s := if (s.bank b).imgPend then
      (s.loadResets [DB_FUNC0_FUNC, DB_FUNC1_FUNC, DB_DEB_DEB] b).setBank b fun d => { d with imgPend := false, anew := false }
    else s
  let s := s.applyStaged (.db b)
  let changed := (List.range 16).filter fun j => s.lineFn b j != old[j]?.getD 0
  if changed.isEmpty then s
  else
    let s := s.setBank b fun d => { d with
      breaks := (d.breaks.filter fun x => !changed.contains x.1) ++ changed.map fun j => (j, s.now + 2 * tqPerUs)
      ends := d.ends.filter fun x => !changed.contains x.1
      runs := d.runs.filter fun x => !changed.contains x.1
      pps := clearMask d.pps (maskOf changed.contains) }
    (s.wr DB_OUT_CMD b (clearMask (s.rd DB_OUT_CMD b) (maskOf changed.contains))).evt DB_EVT_EVT b 6

/-! ### The sample tick and the commands (R498) -/

/-- Lines whose new function starts now. -/
def State.startDue (s : State) (b : Nat) : State :=
  let due := ((s.bank b).breaks.filter fun x => decide (x.2 ≤ s.now)).map (·.1)
  due.foldl (fun (s : State) j => s.startFn b j) s

/-- A pending pulse end that falls due turns its line off (R409). -/
def State.endPulse (s : State) (b line : Nat) : State :=
  if (s.bank b).ends.any fun x => x.1 == line && decide (x.2 ≤ s.now) then
    (s.wr DB_OUT_CMD b (clearBitAt (s.rd DB_OUT_CMD b) line)).setBank b fun d => { d with ends := d.ends.filter fun x => x.1 != line }
  else s

/-- The force of a bank ends at its tick (R507, R678). -/
def State.liftBank (s : State) (b : Nat) : State :=
  if (s.bank b).lift then
    ((s.setBank b fun d => { d with lift := false }).put DB_STAT_MACE b false).evt DB_EVT_EVT b 4
  else s

/-- A bank sample tick (R498): a held boundary applies staged writes; lines start; inputs are sampled; commands apply; pulses end. -/
def State.bankTick (s : State) (b levels : Nat) : State :=
  let was := s.outKey b
  let s := ((s.liftBank b).startDue b).applyBank b
  let s := s.setBank b fun d => { d with driveOn := !s.holding, ocWait := 0 }
  let s := (List.range 16).foldl (fun (s : State) j => s.sampleLine b levels j) s
  let s := s.applyCmds b
  let s := (List.range 16).foldl (fun (s : State) j => s.endPulse b j) s
  (s.refreshDrive b).noteOut b was

/-- BANK_SAMPLE_TICK: every 160 tq; a bank without supply only takes its staged writes (R122, R498, R508). -/
def execBankSampleTick (t b levels : Nat) (s : State) : Host.Outcome State Fault Refusal :=
  let s := s.tick t
  .next (if s.bankUp b then s.bankTick b levels else (s.liftBank b).applyBank b)

/-- FUNCTION_SWITCH_START: at T + 2 the line starts its new function (R506). -/
def execFunctionSwitchStart (t b line : Nat) (s : State) : Host.Outcome State Fault Refusal :=
  let s := s.tick t
  .next (if (s.bank b).breaks.any fun x => x.1 == line && decide (x.2 ≤ s.now) then (s.startFn b line).refreshDrive b else s)

/-- PULSE_END: a pending pulse end turns the line off (R409, R498). -/
def execPulseEnd (t b line : Nat) (s : State) : Host.Outcome State Fault Refusal :=
  let s := s.tick t
  let was := s.outKey b
  .next (if s.bankUp b then ((s.endPulse b line).refreshDrive b).noteOut b was else s)

/-- Offset of a register of a bank's page 0. -/
def dbOff (b o : Nat) : Nat := if b < 12 then 0x240000 + b * 0x2000 + o else absentOff

/-- DB_OSET: lines on (R501). -/
def execDbOset (t : Nat) (f : Func) (b lines : Nat) (s : State) : Host.Outcome State Fault Refusal :=
  .next ((s.tick t).hostWrite f (dbOff b 0xC) fun s => s.bankCmd b ⟨0, lines % 65536, 0, .host (s.tn f), 0, 0⟩)

/-- DB_OCLR: lines off. -/
def execDbOclr (t : Nat) (f : Func) (b lines : Nat) (s : State) : Host.Outcome State Fault Refusal :=
  .next ((s.tick t).hostWrite f (dbOff b 0x10) fun s => s.bankCmd b ⟨1, lines % 65536, 0, .host (s.tn f), 0, 0⟩)

/-- DB_OPULSE: lines on, with their end DB_PWIDTH µs after the applying tick; width 0 acts as DB_OSET. -/
def execDbOpulse (t : Nat) (f : Func) (b lines : Nat) (s : State) : Host.Outcome State Fault Refusal :=
  .next ((s.tick t).hostWrite f (dbOff b 0x14) fun s =>
    s.bankCmd b ⟨2, lines % 65536, s.rd DB_PWIDTH_WIDTH b, .host (s.tn f), 0, 0⟩)

/-- DB_CNTCLR: the named counters become 0 (R503). -/
def execDbCntclr (t : Nat) (f : Func) (b lines : Nat) (s : State) : Host.Outcome State Fault Refusal :=
  .next ((s.tick t).hostWrite f (dbOff b 0xA0) fun s =>
    (linesOf (lines % 65536)).foldl (fun (s : State) j => s.clearCount DB_CNT_COUNT b j) s)

/-- The words DB_TSF0 to DB_TSF3 of an entry (R504). -/
def tsWord (e : TsEntry) (i : Nat) : Nat :=
  if i = 0 then 2 ^ 23 + b2n e.rise * 2 ^ 22 + e.line % 16 * 2 ^ 18 + e.epoch % 256 * 2 ^ 8 + e.frac % 256
  else if i < 3 then e.ns / 2 ^ (24 * (i - 1)) % 2 ^ 24 else e.ns / 2 ^ 48 % 2 ^ 16

/-- A read of DB_TSF0: the oldest entry is popped, and DB_TSF1 to DB_TSF3 are latched for the function (R107, R504). -/
def State.popStamp (s : State) (f : Func) (b : Nat) : State × Nat :=
  let latch := fun (s : State) (w : Nat → Nat) =>
    { s with host := { s.host with snaps := (List.range 3).foldl (fun ps i =>
        putPart ps f (⟨.db, b, 0, 0xB4 + 4 * i, false⟩ : Loc).key (w (i + 1))) s.host.snaps } }
  match (s.bank b).fifo with
  | [] => (latch s fun _ => 0, 0)
  | e :: rest =>
    let s := (s.setBank b fun d => { d with fifo := rest }).wr DB_TSCNT_COUNT b rest.length
    (latch s (tsWord e), tsWord e 0)

/-- DB_TSF0: a read pops the oldest entry and latches DB_TSF1 to DB_TSF3 for the function (R107, R504). -/
def execDbTsf0 (t : Nat) (f : Func) (b : Nat) (s : State) : Host.Outcome State Fault Refusal :=
  .next ((s.tick t).hostRead f (dbOff b 0xB0) fun s => s.popStamp f b)

/-- Overcurrent bits clear; their lines take their commanded state at the next tick (R502). -/
def State.clearOc (s : State) (b lines : Nat) : State :=
  let left := s.cleared DB_OC_OC b 0 lines
  let hit := clearMask (s.rd DB_OC_OC b) left
  (s.wr DB_OC_OC b left).setBank b fun d => { d with ocWait := d.ocWait ||| hit }

/-- DB_OC: a W1C lets the line take its commanded state at the next tick (R502). -/
def execDbOc (t : Nat) (f : Func) (b lines : Nat) (s : State) : Host.Outcome State Fault Refusal :=
  .next ((s.tick t).hostWrite f (dbOff b 0x34) fun s => s.clearOc b lines)

/-- OVERCURRENT: the output switches off and latches DB_OC; the bank owner and the grantee hear of it (R502, R511). -/
def execOvercurrent (t b line : Nat) (s : State) : Host.Outcome State Fault Refusal :=
  let s := s.tick t
  if !(s.isOut b line || s.isPps b line) || bitAt (s.rd DB_OC_OC b) line then .next s
  else
    let s := (((s.evt DB_OC_OC b line).evt DB_EVT_EVT b 2).refreshDrive b)
    let owner := s.rd DB_OWNER_TENANT b
    let g := bitsOf (s.rdA DB_GRANT_TENANT b (line / 3)) (8 * (line % 3)) 8
    let s := s.eventLim owner 0x0612 b (leBytes 2 (2 ^ line))
    .next (if bitAt (s.rd DB_GRANTV_VALID b) line && g != owner then s.eventLim g 0x0612 b (leBytes 2 (2 ^ line)) else s)

/-- VF_LOST: the bank's VFIELD is absent (R508). -/
def execVfLost (t b : Nat) (s : State) : Host.Outcome State Fault Refusal :=
  let s := s.tick t
  if !s.flag DB_STAT_VF_OK b then .next s
  else
    let s := (((s.put DB_STAT_VF_OK b false).bankDown b).applyBank b).evt DB_EVT_EVT b 0
    .next (s.eventLim (s.rd DB_OWNER_TENANT b) 0x0611 b [0])

/-- VF_RET: VFIELD in range for 10 ms; every detector takes its reference level (R508). -/
def execVfRet (t b : Nat) (s : State) : Host.Outcome State Fault Refusal :=
  let s := s.tick t
  if s.flag DB_STAT_VF_OK b then .next s
  else
    let s := ((s.put DB_STAT_VF_OK b true).setBank b fun d => { d with refDue := 65535, runs := [] }).evt DB_EVT_EVT b 1
    .next ((s.refreshDrive b).eventLim (s.rd DB_OWNER_TENANT b) 0x0611 b [1])

end Sys2Proof.Machine
end

