-- ==== Sys2Proof/Machine/Fault.lean ====
section
/-! DEFINITION. The fault collector: sources, classes, groups and the Mace net, records, clearing; queue resets and insertions
(chapter 15, R324-R335). -/

namespace Sys2Proof.Machine

/-! ### Sources (R670, R697) -/

/-- The source never asserts (R670). -/
def faultReserved (k : Nat) : Bool := decide (k ≥ 256 ∨ (197 ≤ k ∧ k ≤ 239))

/-- KIND L (R670). -/
def kindL (k : Nat) : Bool := decide (k < 64 ∨ (136 ≤ k ∧ k ≤ 171) ∨ (187 ≤ k ∧ k ≤ 193) ∨ k = 195 ∨ k = 196 ∨ 240 ≤ k)

/-- The port or bank of a source has its power (R697). -/
def State.srcPowered (s : State) (k : Nat) : Bool :=
  if k < 64 then s.domOn k
  else if k < 128 then s.domOn (k - 64)
  else if 136 ≤ k ∧ k < 148 then s.domOn (88 + (k - 136))
  else if 148 ≤ k ∧ k < 172 then s.domOn (64 + (k - 148))
  else true

/-- SEVERE in either class. -/
def State.srcSevere (s : State) (k : Nat) : Bool := s.rdA FC_SRC_STATE 0 k == 2 || s.rdA FC_SRC_RSTATE 0 k == 2

/-- The group by which a source is judged: LGROUP when SEVERE, else GROUP (R685). -/
def State.srcGroup (s : State) (k : Nat) : Nat :=
  if s.srcSevere k then s.rdA FC_SRC_LGROUP 0 k else s.rdA FC_SCFG_GROUP 0 k

/-- The times of a source's latest events, oldest first. -/
def State.srcTimes (s : State) (k : Nat) : List Nat := tget [] s.fc.times k

/-- Events of a source in its window (R672, R687). -/
def State.srcCount (s : State) (k : Nat) : Nat :=
  let win := s.rdA FC_SWIN_WIN 0 k
  if win = 0 then (s.srcTimes k).length
  else ((s.srcTimes k).filter fun t => decide (s.ivlTq ≤ t + win * tqPerMs)).length

/-- An event bit of a group. -/
def State.gevt (s : State) (g n : Nat) : State := s.evtA FC_GEVT_EVT 0 g n

/-- The owner of a group. -/
def State.gOwner (s : State) (g : Nat) : Nat := s.rdA FC_GCFG_GOWNER 0 g

/-! ### Groups and their members (R676-R678) -/

/-- Group g is forced by a SEVERE source or by its Mace net. -/
def State.baseForced (s : State) (g : Nat) : Bool :=
  s.rdA FC_GSTAT_NETFAIL 0 g != 0 || s.fc.driving.any fun k => s.rdA FC_SRC_LGROUP 0 k == g

/-- Group g is forced by a cascade. -/
def State.cascForced (s : State) (g : Nat) : Bool :=
  (List.range 16).any fun h => h != g && s.baseForced h && bitAt (s.rdA FC_GCFG_CASCADE 0 h) g

/-- Group g is forced. -/
def State.groupForced (s : State) (g : Nat) : Bool := s.rdA FC_GSTAT_FORCED 0 g != 0

/-- The ring stop begins (R557): queued requests complete STOPPED. -/
def State.stopRing (s : State) : State :=
  if s.flag RG_STAT_STOP 0 then s
  else
    let s := (s.put RG_STAT_STOP 0 true).evt RG_EVT_EVT 0 15
    [0, 1].foldl (fun (s : State) ring =>
      let q := s.insQ ring 0
      let mine := q.filter fun c => c.typ == 1
      let s := s.setInsQ ring 0 (q.filter fun c => c.typ != 1)
      mine.foldl (fun (s : State) (c : Cell) => s.completeCtx c.tag 4 0 0 []) s) s

/-- The ring stop ends. -/
def State.unstopRing (s : State) : State :=
  if s.flag RG_STAT_STOP 0 then (s.put RG_STAT_STOP 0 false).evt RG_EVT_EVT 0 15 else s

/-- Every member of a group reacts to a force (R678). (DEDUCED, log entry 85.) -/
def State.forceMembers (s : State) (g : Nat) : State :=
  let s := (List.range 64).foldl (fun (s : State) p =>
    if s.flag FB_CFG_PRESENT p && s.rd FB_ROLE_GROUP p == g then s.maceForcePort p else s) s
  let s := (List.range 12).foldl (fun (s : State) b =>
    if s.flag DB_CFG_PRESENT b && s.rd DB_CFG_GROUP b == g then s.maceForceBank b else s) s
  if s.rd RG_CFG_GROUP 0 = g then s.stopRing else s

/-- Every member of a group is released (R678). -/
def State.releaseMembers (s : State) (g : Nat) : State :=
  let s := (List.range 64).foldl (fun (s : State) p => if s.rd FB_ROLE_GROUP p == g then s.maceReleasePort p else s) s
  let s := (List.range 12).foldl (fun (s : State) b => if s.rd DB_CFG_GROUP b == g then s.maceReleaseBank b else s) s
  if s.rd RG_CFG_GROUP 0 = g then s.unstopRing else s

/-- FC_FORCED follows FORCED of a group. -/
def State.setForced (s : State) (g : Nat) (on : Bool) : State :=
  (s.wrA FC_GSTAT_FORCED 0 g (b2n on)).wr FC_FORCED_GROUPS 0 (putBitAt (s.rd FC_FORCED_GROUPS 0) g on)

/-- A group becomes forced. -/
def State.forceGroup (s : State) (g : Nat) : State :=
  let s := (s.setForced g true).gevt g 2
  ({ s with fc := { s.fc with forcedAt := tset 0 s.fc.forcedAt g s.ivlTq } }).forceMembers g

/-- A group is released: FAULT_RELEASED, FC_GMERGE from 0 (R683, R702). -/
def State.releaseGroup (s : State) (g : Nat) : State :=
  let us := satTo 32 ((s.ivlTq - tget 0 s.fc.forcedAt g) / tqPerUs)
  let s := (s.setForced g false).gevt g 3
  let s := s.eventLim (s.gOwner g) 0x0B02 g (leBytes 4 us ++ leBytes 3 (s.rdA FC_GMERGE_COUNT 0 g))
  let s := s.wrA FC_GMERGE_COUNT 0 g 0
  ({ s with fc := { s.fc with handling := tset 0 s.fc.handling g 0, forcedAt := tset 0 s.fc.forcedAt g 0 } }).releaseMembers g

/-- Every group is forced or released as R676 gives. -/
def State.refreshForces (s : State) : State :=
  (List.range 16).foldl (fun (s : State) g =>
    let casc := s.cascForced g
    let on := s.baseForced g || casc
    let was := s.groupForced g
    let s := s.wrA FC_GSTAT_CASC 0 g (b2n casc)
    if on && !was then s.forceGroup g else if was && !on then s.releaseGroup g else s) s

/-! ### Records (R684-R691) -/

/-- The FIFO takes a value; FC_FSTAT follows. -/
def State.setFifo (s : State) (q : List FaultRec) : State :=
  let s := { s with fc := { s.fc with fifo := q } }
  ((s.wr FC_FSTAT_COUNT 0 q.length).put FC_FSTAT_EMPTY 0 q.isEmpty).put FC_FSTAT_FULL 0 (decide (q.length ≥ 64))

/-- `a` comes before `b` in severity order: higher RANK, then earlier FIRST (R688). -/
def recBefore (a b : FaultRec) : Bool := decide (a.rank > b.rank) || (a.rank == b.rank && decide (a.at_ < b.at_ ∨ (a.at_ = b.at_ ∧ a.id < b.id)))

/-- The first record in severity order. -/
def topRec : List FaultRec → Option FaultRec
  | [] => none
  | r :: rs => match topRec rs with
    | none => some r
    | some x => if recBefore x r then some x else some r

/-- The last record in severity order: the lowest RANK, the latest among equals (R690). -/
def lastRec : List FaultRec → Option FaultRec
  | [] => none
  | r :: rs => match lastRec rs with
    | none => some r
    | some x => if recBefore r x then some x else some r

/-- A record is lost (R690). -/
def State.lostRec (s : State) (r : FaultRec) : State :=
  (s.bump FC_RECLOST_COUNT 0).eventLim (s.rd FC_CFG_FOWNER 0) 0x0B04 0 [BitVec.ofNat 8 r.rank, BitVec.ofNat 8 r.source]

/-- A new record enters the FIFO, displaces the lowest one of a full FIFO, or is dropped (R690). -/
def State.enterRec (s : State) (r : FaultRec) : State :=
  let q := s.fc.fifo
  let s := { s with fc := { s.fc with nextId := s.fc.nextId + 1 } }
  if q.length < 64 then (s.setFifo (q ++ [r])).gevt r.group 6
  else match lastRec q with
    | some v =>
      if r.rank > v.rank then ((s.setFifo (q.filter (fun x => x.id != v.id) ++ [r])).lostRec v).gevt r.group 6
      else s.lostRec r
    | none => s

/-- Merging an event of source `k` into the record with id `i` (R687). -/
def State.mergeRec (s : State) (i k : Nat) (severe : Bool) (rank : Nat) : State :=
  match s.fc.fifo.find? fun r => r.id == i with
  | none => s
  | some r =>
    let r' : FaultRec := { r with
      merge := satTo 16 (r.merge + 1), lastsrc := k, evcnt := min 255 (s.srcCount r.source)
      severe := r.severe || severe, rank := if severe then max r.rank rank else r.rank
      group := if s.srcSevere r.source then s.rdA FC_SRC_LGROUP 0 r.source else r.group }
    let s := s.setFifo (s.fc.fifo.map fun x => if x.id == i then r' else x)
    s.wrA FC_GMERGE_COUNT 0 r'.group (s.rdA FC_GMERGE_COUNT 0 r'.group + 1)

/-- Whether the handling record of a group is in the FIFO; its record. -/
def State.handlingRec (s : State) (g : Nat) : Option FaultRec :=
  let h := tget 0 s.fc.handling g
  if h = 0 then none else s.fc.fifo.find? fun r => r.id + 1 == h

/-- The handling record of a group. -/
def State.setHandling (s : State) (g i : Nat) : State := { s with fc := { s.fc with handling := tset 0 s.fc.handling g (i + 1) } }

/-- The record of an event of source `k` (R685, R686): `severe` says that it made the source SEVERE; `wasOk`, `forced` and `g0` are the
class, the group and its force before the event; `newly` says that the event forced the group. -/
def State.record (s : State) (k : Nat) (rail severe wasOk forced newly : Bool) (g0 detail : Nat) : State :=
  let own := s.fc.fifo.find? fun r => r.rail == rail && r.source == k && (rail || !r.old)
  let into := match own with
    | some r => some r
    | none =>
      if !rail && forced then
        match s.handlingRec g0 with
        | some r => if r.rail then none else some r
        | none => none
      else none
  let rank := if rail then 31 else b2n severe * 8 + s.rdA FC_SCFG_SEV 0 k
  match into with
  | some r =>
    let s := s.mergeRec r.id k severe rank
    if newly then s.setHandling (s.srcGroup k) r.id else s
  | none =>
    let id_ := s.fc.nextId
    let sev := severe || (if rail then s.rdA FC_SRC_RSTATE 0 k == 2 else s.rdA FC_SRC_STATE 0 k == 2)
    let r : FaultRec := {
      id := id_, rail := rail, cont := !wasOk || forced, severe := sev
      rank := if rail then 31 else b2n sev * 8 + s.rdA FC_SCFG_SEV 0 k
      source := k, group := s.srcGroup k, merge := 0, ns := s.ns, epoch := s.rd TU_EPOCH_EPOCH 0 % 256
      at_ := s.time.ivl, detail := if rail then 0 else detail % 2 ^ 24
      evcnt := min 255 (s.srcCount k), lastsrc := k, old := false }
    let s := s.enterRec r
    let g := r.group
    if newly || (!rail && s.groupForced g && (s.handlingRec g).isNone) then s.setHandling g id_ else s

/-! ### Events (R671-R675, R702) -/

/-- A source becomes SEVERE: it latches its group, with FORCE it drives it (R675). -/
def State.latchGroup (s : State) (k : Nat) (was : Bool) : State :=
  if was then s
  else
    let s := s.wrA FC_SRC_LGROUP 0 k (s.rdA FC_SCFG_GROUP 0 k)
    if s.rdA FC_SCFG_FORCE 0 k != 0 then { s with fc := { s.fc with driving := s.fc.driving ++ [k] } } else s

/-- A source became SEVERE: its group follows, FAULT_SEVERE is queued; whether the group became forced. -/
def State.becameSevere (s : State) (k : Nat) (rail : Bool) (detail : Nat) : State × Bool :=
  let g := s.rdA FC_SRC_LGROUP 0 k
  let was := s.groupForced g
  let s := (s.gevt g 1).refreshForces
  let newly := !was && s.groupForced g
  (s.event (s.gOwner g) 0x0B01 g ([BitVec.ofNat 8 k, BitVec.ofNat 8 (b2n rail)] ++ leBytes 3 (if rail then 0 else detail)
    ++ [BitVec.ofNat 8 (b2n newly)]), newly)

/-- An event of the cause class (R671, R672). -/
def State.causeEvent (s : State) (k detail : Nat) : State :=
  let s := s.bump FC_EVENTS_COUNT 0
  if s.rdA FC_SCFG_EN 0 k = 0 then s
  else
    let st := s.rdA FC_SRC_STATE 0 k
    let g0 := s.srcGroup k
    let forced := s.groupForced g0
    let was := s.srcSevere k
    let ts := s.srcTimes k ++ [s.ivlTq]
    let s := { s with fc := { s.fc with times := tset [] s.fc.times k (ts.drop (ts.length - 255)) } }
    let s := s.wrA FC_SRC_EVCNT 0 k (min 255 (s.srcCount k))
    if st ≠ 2 ∧ s.srcCount k ≥ s.rdA FC_SCFG_THRESH 0 k then
      let (s, newly) := ((s.wrA FC_SRC_STATE 0 k 2).latchGroup k was).becameSevere k false detail
      s.record k false true (st == 0) forced newly g0 detail
    else
      let s := if st = 0 then (s.wrA FC_SRC_STATE 0 k 1).gevt (s.rdA FC_SCFG_GROUP 0 k) 0 else s
      s.record k false false (st == 0) forced false g0 detail

/-- An event of the rail class (R669). -/
def State.railEvent (s : State) (k : Nat) : State :=
  let s := s.bump FC_EVENTS_COUNT 0
  if s.rdA FC_SCFG_EN 0 k = 0 then s
  else
    let st := s.rdA FC_SRC_RSTATE 0 k
    let g0 := s.srcGroup k
    let forced := s.groupForced g0
    let was := s.srcSevere k
    let s := s.bump FC_RAILS_COUNT 0
    let (s, newly) := if st = 2 then (s, false) else ((s.wrA FC_SRC_RSTATE 0 k 2).latchGroup k was).becameSevere k true 0
    (s.gevt (s.srcGroup k) 5).record k true (st != 2) (st == 0) forced newly g0 0

/-- A source asserts (R670): a KIND L source that is asserted already makes no event, but each loss of majority is one (R117).
(DEDUCED, log entry 54.) -/
def State.sourceAssert (s : State) (k detail : Nat) : State :=
  if faultReserved k || !s.srcPowered k then s
  else if kindL k && k != 187 && s.rdA FC_SRC_CAUSE 0 k != 0 then s
  else
    let s := s.wrA FC_SRC_CAUSE 0 k 1
    let s := if kindL k then s else { s with fc := { s.fc with lastEv := tset 0 s.fc.lastEv k s.time.ivl } }
    s.causeEvent k detail

/-- The events of queues that found a pointer mismatch reach the collector: source 64 + p (R334); at most `n` of them. -/
def State.faultsDue (s : State) : Nat → State
  | 0 => s
  | n + 1 =>
    match s.fc.due with
    | [] => s
    | p :: rest => (({ s with fc := { s.fc with due := rest } }).sourceAssert (64 + p) p).faultsDue n

/-- Every event on its way reaches the collector; a force may find further mismatches, each queue at most one. -/
def State.settleFaults (s : State) : State := s.faultsDue 64

/-- A source asserts, and what its force finds at the queues follows. -/
def State.faultAssert (s : State) (k detail : Nat) : State := (s.sourceAssert k detail).settleFaults

/-- The cause of a source is present (R670, R694). -/
def State.causePresent (s : State) (k : Nat) : Bool :=
  s.rdA FC_SRC_CAUSE 0 k != 0 && (kindL k || decide (s.time.ivl < tget 0 s.fc.lastEv k + 10000000 * ivlNs))

/-- The Mace net of a group fails, or works again (R676, R677). -/
def State.netFail (s : State) (g : Nat) (bad : Bool) : State := (s.wrA FC_GSTAT_NETFAIL 0 g (b2n bad)).refreshForces

/-! ### Clearing (R692-R694) -/

/-- A source returns to OK in both classes; its records stay (R692). -/
def State.clearSource (s : State) (k : Nat) : State :=
  let s := (((s.wrA FC_SRC_STATE 0 k 0).wrA FC_SRC_RSTATE 0 k 0).wrA FC_SRC_EVCNT 0 k 0).wrA FC_SRC_LGROUP 0 k 0
  { s with fc := { s.fc with
      times := tset [] s.fc.times k []
      driving := s.fc.driving.filter (· != k)
      fifo := s.fc.fifo.map fun r => if r.source == k then { r with old := true } else r } }

/-- How a source is judged at a clear: 0 nothing, 1 rejected for its cause, 2 rejected for its rails, 3 cleared (R692). -/
def State.clearVerdict (s : State) (k : Nat) : Nat :=
  let st := s.rdA FC_SRC_STATE 0 k
  let rs := s.rdA FC_SRC_RSTATE 0 k
  if st != 0 && s.causePresent k then 1
  else if rs != 0 && s.rdA FC_SRC_RAILEQ 0 k != 0 then 2
  else if st != 0 || rs != 0 then 3 else 0

/-- A clear through the view of group `g` (R692, R693). -/
def State.clearGroup (s : State) (g v : Nat) : State :=
  let all := bitAt v 8
  let takes := fun (k : Nat) => s.srcGroup k == g
  let part := if all then (List.range 256).filter takes else [v % 256].filter takes
  let rej := part.filter fun k => s.clearVerdict k == 1 || s.clearVerdict k == 2
  let ok := part.filter fun k => s.clearVerdict k == 3
  let code := if !all && part.isEmpty then 3 else if !rej.isEmpty then 1 else if ok.isEmpty then 2 else 0
  let first := rej.headD 0
  let why := s.clearVerdict first
  let s := ok.foldl (fun (s : State) k => s.clearSource k) s
  let s := (((s.wrA FC_CLRRES_SEQ 0 g (s.rdA FC_CLRRES_SEQ 0 g + 1)).wrA FC_CLRRES_CLEARED 0 g (min 255 ok.length)).wrA
    FC_CLRRES_REJECTED 0 g (min 255 rej.length)).wrA FC_CLRRES_RESULT 0 g code
  let s := if rej.isEmpty then s
    else ((s.addA FC_GCLRREJ_COUNT 0 g rej.length).gevt g 4).eventLim (s.gOwner g) 0x0B03 g
      [BitVec.ofNat 8 first, BitVec.ofNat 8 why]
  s.refreshForces

/-! ### Insertions of replies and of the device's own frames (R324-R330) -/

/-- Replies of a queue: the reservation entries held. -/
def State.replies (s : State) (p : Nat) : Nat :=
  ((s.queue p).entries.filter fun e => match e.src with | .reflex _ => true | _ => false).length

/-- A reply reaches the queue (R325, R327): the state after it, and 0 where it was inserted, 1 no entry, 2 port, 3 resetting. -/
def State.submitReply (s : State) (p rule : Nat) (f : Frame) : State × Nat :=
  let s := (s.checkPtrs p).settleFaults
  let why := if s.flag PQ_STAT_RESETTING p then 3 else if (s.refuses p).isSome then 2
    else if s.replies p ≥ s.rd PQ_CFG_RSV p then 1 else 0
  if why ≠ 0 then (s.bump PQ_RSV_REFUSED_COUNT p, why)
  else (s.addEntry p { key := frameKey f, seq := 0, cost := s.frameCost p f, src := .reflex rule, frame := f }, 0)

/-- The device lease of a frame of the device's own on a port. -/
def State.devLease (s : State) (p : Nat) (f : Frame) : Option Nat := s.txLease devTenant p f

/-- A frame of the device's own reaches the queue (R330): inserted and charged to its lease's quota, or refused. -/
def State.submitDev (s : State) (p : Nat) (what : DevFrame) (f : Frame) : State × Bool :=
  let s := (s.checkPtrs p).settleFaults
  match s.devLease p f with
  | none => (s.devReturned p what, false)
  | some l =>
    let quota := ((s.img.leases[l]?).map (·.quota)).getD 0
    if s.flag PQ_STAT_RESETTING p || (s.refuses p).isSome || decide ((s.lrt l).used ≥ quota) || s.inGap || s.queueFull p then (s.devReturned p what, false)
    else
      let s := s.setLrt l fun r => { r with used := r.used + 1 }
      (s.addEntry p { key := frameKey f, seq := 0, cost := s.frameCost p f, src := .device l what, frame := f }, true)

/-! ### Commands -/

/-- The rail voltage of an operating point in mV (R18). -/
def opMv (o : Nat) : Nat := if o = 0 then 900 else if o = 1 then 750 else 620

/-- A rail voltage lies in its band (R715): 25 mV about the target, and while slewing about the origin and every target since the slew began. -/
def State.railInBand (s : State) (mv : Nat) : Bool :=
  let ends := if s.flag PM_STAT_SLEW 0 then s.pm.origin :: s.pm.targets.map opMv else [opMv (s.rd PM_STAT_OP 0)]
  ends.any (fun x => decide (x ≤ mv + 25)) && ends.any fun x => decide (mv ≤ x + 25)

/-- The maximum stage time in ps of an operating point at the columns of R51: -40, 0, 25, 85 and 125 °C. -/
def stageMax (o : Nat) : List Nat :=
  if o = 0 then [780, 830, 860, 920, 950] else if o = 1 then [1380, 1330, 1310, 1350, 1400] else [2300, 2120, 2040, 1930, 1880]

/-- The columns of R51. -/
def stageCols : List Int := [-40, 0, 25, 85, 125]

/-- The largest entry of R51 for a point among the columns on each side of a temperature (R52, R53, R717). -/
def stageLimit (o : Nat) (tj : Int) : Nat :=
  let rows := stageCols.zip (stageMax o)
  let below := (rows.filter fun x => decide (x.1 ≤ tj)).getLast?
  let above := rows.find? fun x => decide (tj ≤ x.1)
  max ((below.map (·.2)).getD 0) ((above.map (·.2)).getD 0)

/-- What a monitor's DETAIL says is a cause (R670): a rail outside its band (R715), VIN outside 10.8 to 13.2 V, a junction above 125 °C, a stage
time above its limit (R717); a test source has its cause while TEST is 1. -/
def State.detailIsCause (s : State) (k detail : Nat) : Bool :=
  let d := detail % 65536
  if k = 188 ∨ k = 189 then !s.railInBand d
  else if k = 190 then decide (d < 1080 ∨ 1320 < d)
  else if k = 191 then decide (fromTwos 16 d > 125)
  else if 240 ≤ k then s.rdA FC_GTEST_TEST 0 (k - 240) != 0
  else if k = 195 then decide (d > stageLimit (s.rd PM_STAT_GOV 0) (fromTwos 16 (s.rd PM_TJ_TJ 0)))
  else true

/-- FAULT_EVENT: a source asserts (R670-R691); a monitor whose value is in range asserts nothing. A pointer mismatch is a queue reset (R334), a disagreement of a Mace net is NETFAIL (R677).
(DEDUCED, log entry 50.) -/
def execFaultEvent (t src detail : Nat) (s : State) : Host.Outcome State Fault Refusal :=
  let s := s.tick t
  if !s.detailIsCause src detail then .next s
  else if 64 ≤ src ∧ src < 128 then .next (if s.srcPowered src then (s.queueReset (src - 64)).settleFaults else s)
  else
    let s := s.faultAssert src detail
    .next (if src = 196 then s.netFail (detail % 16) true else s)

/-- RAIL_FAULT: the rails of a source have been equal for 50 ns, or for a shorter time that the device takes as a fault (R668, R669). -/
def execRailFault (t src : Nat) (s : State) : Host.Outcome State Fault Refusal :=
  let s := s.tick t
  .next (if faultReserved src || !s.srcPowered src || s.rdA FC_SRC_RAILEQ 0 src != 0 then s
    else (s.wrA FC_SRC_RAILEQ 0 src 1).railEvent src)

/-- CAUSE_EXPIRY: 10 ms of interval count after the latest event of a KIND E source its cause ends (R670). -/
def execCauseExpiry (t src : Nat) (s : State) : Host.Outcome State Fault Refusal :=
  let s := s.tick t
  .next (if !kindL src && !s.causePresent src then s.wrA FC_SRC_CAUSE 0 src 0 else s)

/-- A KIND L source deasserts, its rails opposite again (R668, R670); the Mace nets agree again for source 196 (R677). -/
def State.levelEnd (s : State) (src : Nat) : State :=
  let s := s.wrA FC_SRC_RAILEQ 0 src 0
  let s := if kindL src then s.wrA FC_SRC_CAUSE 0 src 0 else s
  if src = 196 then ((List.range 16).foldl (fun (s : State) g => s.wrA FC_GSTAT_NETFAIL 0 g 0) s).refreshForces else s

/-- MACE_NET_RAIL_EQUAL: the rails of a group's net stay equal, or part again (R677). -/
def execMaceNetRailEqual (t g : Nat) (eq : Bool) (s : State) : Host.Outcome State Fault Refusal :=
  let s := s.tick t
  if g ≥ 16 then .next s
  else if eq then .next ((s.faultAssert 196 g).netFail g true)
  else
    let s := s.netFail g false
    .next (if (List.range 16).any fun h => s.rdA FC_GSTAT_NETFAIL 0 h != 0 then s else s.wrA FC_SRC_CAUSE 0 196 0)

/-- FC_REC0 of a record. -/
def FaultRec.word0 (r : FaultRec) : Nat :=
  2 ^ 23 + b2n r.severe * 2 ^ 22 + b2n r.rail * 2 ^ 21 + b2n r.cont * 2 ^ 20 + r.rank % 32 * 2 ^ 15 + r.source % 256

/-- FC_REC1 to FC_REC6 of a record. -/
def FaultRec.words (r : FaultRec) : List Nat :=
  [r.group % 16 * 2 ^ 20 + r.merge % 65536, r.ns % 2 ^ 24, r.ns / 2 ^ 24 % 2 ^ 24, r.epoch % 256 * 2 ^ 16 + r.ns / 2 ^ 48 % 65536,
   r.detail, r.evcnt % 256 * 2 ^ 16 + r.lastsrc % 256]

/-- A read of FC_REC0: the first record in severity order is popped, and FC_REC1 to FC_REC6 are latched for the function; on an empty FIFO it
sets UNDER (R688, R689). -/
def State.popRec (s : State) (f : Func) : State × Nat :=
  let latch := fun (s : State) (ws : List Nat) =>
    { s with host := { s.host with snaps := (List.range 6).foldl (fun ps i =>
        putPart ps f (⟨.fc, 0, 0, 8 + 4 * i, false⟩ : Loc).key (ws[i]?.getD 0)) s.host.snaps } }
  match topRec s.fc.fifo with
  | none => (latch (s.evt FC_FSTAT_UNDER 0 0) [], 0)
  | some r => (latch (s.setFifo (s.fc.fifo.filter fun x => x.id != r.id)) r.words, r.word0)

/-- FC_REC0: a read pops the first record in severity order and latches FC_REC1 to FC_REC6 (R688, R689). -/
def execFcRec0 (t : Nat) (f : Func) (s : State) : Host.Outcome State Fault Refusal :=
  .next ((s.tick t).hostRead f 0x20004 fun s => s.popRec f)

/-- FC_GCLR: a clear through the view of a group of the writer's own (R692). -/
def execFcGclr (t : Nat) (f : Func) (g v : Nat) (s : State) : Host.Outcome State Fault Refusal :=
  .next ((s.tick t).hostWrite f (0x21000 + g * 0x20 + 0xC) fun s => if g < 16 ∧ s.gOwner g = s.tn f then s.clearGroup g v else s)

/-- TEST: the test source of a group of the writer's own asserts or deasserts (R670). -/
def execFaultTest (t : Nat) (f : Func) (g : Nat) (on : Bool) (s : State) : Host.Outcome State Fault Refusal :=
  .next ((s.tick t).hostWrite f (0x21000 + g * 0x20 + 0x14) fun s =>
    if g < 16 ∧ s.gOwner g = s.tn f then
      let s := s.wrA FC_GTEST_TEST 0 g (b2n on)
      if on then s.faultAssert (240 + g) 0 else s.wrA FC_SRC_CAUSE 0 (240 + g) 0
    else s)

/-- QUEUE_REBUILD_DONE: the list, the free list and both copies of every pointer are rebuilt; RESETTING clears (R334, R335). -/
def execQueueRebuildDone (t p : Nat) (s : State) : Host.Outcome State Fault Refusal :=
  let s := s.tick t
  .next (if s.flag PQ_STAT_RESETTING p then
      ((s.setEntries p (s.queue p).entries).put PQ_STAT_RESETTING p false).refreshHead p
    else s)

end Sys2Proof.Machine
end

