-- ==== Sys2Proof/Machine/Object.lean ====
section
/-! DEFINITION. Image objects in the NVM slots: header, plaintext, delta programs, sections (R740-R746). -/

namespace Sys2Proof

/-- What an image's sections set, from its plaintext: the spec lays out the words of the LEASE section, and leaves the layout of the
others' entries to the compiler (log entry 40). Leases and digests are not taken from it. -/
opaque Config.image : List Byte → Machine.Image

namespace Machine

/-! ### Slots -/

/-- Slot A (0) or B (1). -/
def State.nvm (s : State) (k : Nat) : SlotSt := if k = 0 then s.cu.slot0 else s.cu.slot1

/-- Changing a slot. -/
def State.setNvm (s : State) (k : Nat) (f : SlotSt → SlotSt) : State :=
  if k = 0 then { s with cu := { s.cu with slot0 := f s.cu.slot0 } } else { s with cu := { s.cu with slot1 := f s.cu.slot1 } }

/-- Changing the configuration unit. -/
def State.setCu (s : State) (f : CuSt → CuSt) : State := { s with cu := f s.cu }

/-- Slot states (R746). -/
def slEmpty : Nat := 0
def slOpen : Nat := 1
def slStored : Nat := 2
def slGood : Nat := 3
def slBad : Nat := 4
def slActive : Nat := 5

/-- Object words of 4 bytes in a slot of 16 MiB. -/
def slotWords : Nat := 4194304

/-- Byte `i` of a slot; 0 where its word is not programmed. -/
def SlotSt.byte (x : SlotSt) (i : Nat) : Byte := BitVec.ofNat 8 (((tget none x.words (i / 4)).getD 0) / 256 ^ (i % 4))

/-- `n` bytes of a slot from `off`. -/
def SlotSt.bytes (x : SlotSt) (off n : Nat) : List Byte := (List.range n).map fun i => x.byte (off + i)

/-- A little-endian field of a slot. -/
def SlotSt.num (x : SlotSt) (off n : Nat) : Nat := leNat (x.bytes off n)

/-! ### The header (R742) -/

def SlotSt.kind (x : SlotSt) : Nat := x.num 6 1
def SlotSt.signer (x : SlotSt) : Nat := x.num 7 1
def SlotSt.length (x : SlotSt) : Nat := x.num 8 4
def SlotSt.major (x : SlotSt) : Nat := x.num 12 1
def SlotSt.minor (x : SlotSt) : Nat := x.num 13 1
def SlotSt.schema (x : SlotSt) : Nat := x.num 14 1
def SlotSt.schemaMin (x : SlotSt) : Nat := x.num 15 1
def SlotSt.secver (x : SlotSt) : Nat := x.num 0x10 1
def SlotSt.targetLen (x : SlotSt) : Nat := x.num 0x14 4
def SlotSt.targetHash (x : SlotSt) : List Byte := x.bytes 0x30 48
def SlotSt.baseHash (x : SlotSt) : List Byte := x.bytes 0x60 48
def SlotSt.pubkey (x : SlotSt) : List Byte := x.bytes 0x90 96

/-- What CLOSE and step FORMAT check of the header: MAGIC, FORMAT, KIND, SIGNER and LENGTH, which holds at least the header and the tag
(R742, R751). -/
def SlotSt.headerOk (x : SlotSt) : Bool :=
  x.bytes 0 4 == [0x5A, 0x58, 0x49, 0x4D] && x.num 4 2 == 1 && (x.kind == 1 || x.kind == 2) && (x.signer == 1 || x.signer == 2)
    && x.length % 4 == 0 && decide (0x1010 ≤ x.length ∧ x.length ≤ 4 * slotWords)

/-- Every word below LENGTH has been programmed (R751). -/
def SlotSt.complete (x : SlotSt) : Bool := (List.range (x.length / 4)).all fun i => (tget none x.words i).isSome

/-- The base of the delta in slot `k` is usable (R745). -/
def State.baseUsable (s : State) (k : Nat) : Bool :=
  let b := s.nvm (1 - k)
  b.closed && b.kind == 1 && b.targetHash == (s.nvm k).baseHash

/-! ### Plaintext (R743, R744) -/

/-- The image key of a signer (R743): the owner's is blank until it is programmed. -/
def State.imageKey (s : State) (signer : Nat) : List Byte :=
  if signer = 2 then Config.vendorKey else (s.cu.otp.owner.map (·.2)).getD []

/-- The anchor of a signer (R752); none for the owner while it is blank. -/
def State.anchor (s : State) (signer : Nat) : Option (List Byte) :=
  if signer = 2 then some Config.vendorAnchor else s.cu.otp.owner.map (·.1)

/-- The payload of a slot's object, decrypted; none where its tag fails (R743). -/
def State.payload (s : State) (k : Nat) : Option (List Byte) :=
  let x := s.nvm k
  Config.gcmOpen (s.imageKey x.signer) (x.bytes 0x18 12) (x.bytes 0 0xF0) (x.bytes 0x1000 (x.length - 0x1010)) (x.bytes (x.length - 16) 16)

/-- The signature of a slot's object verifies (R743). -/
def SlotSt.signed (x : SlotSt) : Bool :=
  Config.ecdsaVerify x.pubkey (x.bytes 0 0xF0 ++ x.bytes 0x1000 (x.length - 0x1000)) (x.bytes 0xF0 96)

/-- A delta program over its base: at most `n` operations; none where it fails (R744). -/
def runDelta (base : List Byte) (target : Nat) : Nat → List Byte → List Byte → Option (List Byte)
  | 0, _, _ => none
  | n + 1, prog, out =>
    match prog with
    | [] => none
    | op :: rest =>
      let a := leNat (rest.take 4)
      if op.toNat = 1 then
        let l := leNat ((rest.drop 4).take 4)
        if rest.length < 8 ∨ a + l > base.length then none else runDelta base target n (rest.drop 8) (out ++ (base.drop a).take l)
      else if op.toNat = 2 then
        if rest.length < 4 + a then none else runDelta base target n (rest.drop (4 + a)) (out ++ (rest.drop 4).take a)
      else if op.toNat = 3 then (if out.length = target then some out else none)
      else none

/-! ### Sections (R740) -/

/-- The directory: the ID, offset and length of each section. -/
def directory (img : List Byte) : List (Nat × Nat × Nat) :=
  (List.range (leNat (img.take 2))).map fun i =>
    let e := img.drop (2 + 10 * i)
    (leNat (e.take 2), leNat ((e.drop 2).take 4), leNat ((e.drop 6).take 4))

/-- A section's bytes, header included. -/
def sectionOf (img : List Byte) (id : Nat) : Option (List Byte) :=
  ((directory img).find? fun x => x.1 == id).map fun x => (img.drop x.2.1).take x.2.2

/-- A section lies in the image, and its header agrees with the directory and with its entries. -/
def sectionOk (img : List Byte) (x : Nat × Nat × Nat) : Bool :=
  let b := (img.drop x.2.1).take x.2.2
  decide (x.2.1 + x.2.2 ≤ img.length ∧ 16 ≤ x.2.2) && leNat (b.take 2) == x.1 && leNat ((b.drop 2).take 4) == x.2.2
    && x.2.2 == 16 + leNat ((b.drop 6).take 4) * leNat ((b.drop 10).take 2) * 3 && leNat (b.drop 12 |>.take 4) == 0

/-- The image holds the sections of R740 in ascending ID, each at most once, all but ENROLL present. -/
def directoryOk (img : List Byte) : Bool :=
  let ids := (directory img).map (·.1)
  decide (2 + 10 * ids.length ≤ img.length) && (ids == (List.range 15).map (· + 1) || ids == (List.range 16).map (· + 1))
    && (directory img).all (sectionOk img)

/-- Word `w` of entry `i` of a section: 24 bits, little-endian. -/
def sectionWord (sec : List Byte) (size i w : Nat) : Nat := leNat ((sec.drop (16 + (i * size + w) * 3)).take 3)

/-- An entry of the LEASE section: the values of LV_CTL to LV_BURST (R94, R740), with the ring of a serial receive lease. -/
def leaseOf (sec : List Byte) (size i ring : Nat) : Lease :=
  let w := sectionWord sec size i
  let ext := bitsOf (w 0) 20 2 == 1
  { tenant := bitsOf (w 0) 0 9, port := bitsOf (w 0) 9 7, tx := bitAt (w 0) 22, fmt := bitsOf (w 0) 20 2, kinds := bitsOf (w 0) 16 4
    lo := w 1 + (if ext then bitsOf (w 3) 0 5 * 2 ^ 24 else 0), hi := w 2 + (if ext then bitsOf (w 3) 8 5 * 2 ^ 24 else 0)
    quota := bitsOf (w 4) 0 13, share := bitsOf (w 5) 0 13, burst := bitsOf (w 6) 0 16, ring := ring }

/-- The image of a plaintext: its leases as the LEASE section gives them, its digests (R741), and what the other sections set. -/
def imageOf (plain : List Byte) : Image :=
  let m := Config.image plain
  let sec := (sectionOf plain 3).getD []
  let n := leNat ((sec.drop 6).take 4)
  let size := leNat ((sec.drop 10).take 2)
  { m with
    leases := (List.range n).map fun i => leaseOf sec size i (tget 0 m.spRings i)
    hash := leNat ((Config.sha384 plain).take 8)
    leaseDigest := leNat ((Config.sha384 sec).take 8)
    enroll := if (sectionOf plain 16).isSome then m.enroll else none }

end Machine

end Sys2Proof
end

