-- ==== Sys2Proof/Machine/View.lean ====
section
/-! DEFINITION. What a register reads as: stored fields, and those that show other state (R10, R107, R336, R341, R598). -/

namespace Sys2Proof.Machine

/-- The register fields of `tu` page 0 that show fabric time (R426), and one bit field of it. -/
def State.nowField (s : State) (off lo w : Nat) : Nat :=
  if off = 0 then (if lo = 0 then s.frac else s.ns % 2 ^ 16)
  else if off = 4 then s.ns / 2 ^ 16 % 2 ^ 24
  else s.ns / 2 ^ 40 % 2 ^ w

/-- Seconds of LOCKED without a break (TU_DISC), and of the present or last HOLDOVER (TU_HOLD). -/
def State.discSeconds (s : State) : Nat :=
  if s.rd TU_STAT_STATE 0 = 1 then satTo 24 ((s.time.ivl - s.time.lockedAt) / (1000000000 * ivlNs)) else 0
def State.holdSeconds (s : State) : Nat :=
  if s.rd TU_STAT_STATE 0 = 2 then satTo 24 ((s.time.ivl - s.time.holdAt) / (1000000000 * ivlNs)) else s.rd TU_HOLD_SECONDS 0

/-- The run shown for the group a tenant has selected: only its own group (R598). -/
def State.shownGroup (s : State) (t : Nat) : Option GroupSt :=
  let g := s.rd GT_RSEL_GROUP t
  match s.img.groups.find? fun x => x.1 == g with
  | some x => if x.2.valid && x.2.tenant == t then some (s.grp g) else none
  | none => none

/-- GT_R0 to GT_R4 of a run, by offset (R594). -/
def LastRun.word (r : LastRun) (off : Nat) : Nat :=
  if off = 0xC then r.cstat % 4 * 2 ^ 22 + r.trig % 4 * 2 ^ 20 + b2n r.sat * 2 ^ 19 + b2n r.late * 2 ^ 18 + 2 ^ 17 + r.incl % 32 * 2 ^ 12
  else if off = 0x10 then r.fmask % 65536
  else if off = 0x14 then r.result % 2 ^ 24
  else if off = 0x18 then r.result / 2 ^ 24 % 256
  else r.seq % 2 ^ 24

/-- The words of the tenant's view that show a group. -/
def State.gatherField (s : State) (f : Fld) (t : Nat) : Nat :=
  match s.shownGroup t with
  | none => 0
  | some g =>
    if f.off = 0x20 then (if f.lo = 0 then g.st else b2n g.satStk)
    else match g.last with
      | some r => bitsOf (r.word f.off) f.lo f.w
      | none => 0

/-- PQ_HEAD1 of an entry (R336). -/
def headWord1 (e : QEntry) : Nat :=
  let own := match e.src with
    | .tenant _ => e.ring / 256 % 256 * 2 ^ 13
    | .device _ _ => 2 ^ 21
    | .reflex _ => 2 ^ 22
  own + e.key % 256

/-- PQ_HEAD0 and PQ_HEAD1: the presented head; EMPTY while no entry is queued (R336). A queue whose entries are none of them presented shows the key
presented last, with EMPTY 0 and no sender. (DESIGN CHOICE, log entry 20.) -/
def State.headWord (s : State) (p w : Nat) : Nat :=
  let es := (s.queue p).entries.filter fun e => !e.inflight
  match s.presented p with
  | some e => if w = 0 then e.key / 256 else headWord1 e
  | none =>
    if w = 0 then (s.queue p).lastKey / 256 else if es.isEmpty then 2 ^ 23 + (s.queue p).lastKey % 256 else (s.queue p).lastKey % 256

/-- PQ_WAIT: leases whose first entry waits for tokens (R341). -/
def State.waitingLeases (s : State) (p : Nat) : Nat :=
  let es := (s.queue p).entries
  (es.filter fun e => !e.inflight && e.src.lease.isSome && firstOfLease es e && !s.affords e).length

/-- Fields of a queue page that show the queue. -/
def State.queueField (s : State) (f : Fld) (p : Nat) : Nat :=
  let es := (s.queue p).entries
  if f = PQ_STAT_INFLIGHT then b2n (es.any (·.inflight))
  else if f = PQ_STAT_ACCEPT then b2n (s.refuses p).isNone
  else if f = PQ_STAT_COUNT then es.length
  else if f = PQ_RSV_USED_USED then s.replies p
  else if f.off = 0xC then s.headWord p 0
  else if f.off = 0x10 then bitsOf (s.headWord p 1) f.lo f.w
  else if f = PQ_WAIT_LEASES then s.waitingLeases p
  else s.rd f p

/-- Milliseconds left on a port's retry timer. -/
def State.retryLeft (s : State) (n : Nat) : Nat :=
  match (s.lp n).retryAt with
  | some a => (a - s.now + tqPerMs - 1) / tqPerMs
  | none => 0

/-- Fields of a ring link port that show it (R546, R548). -/
def State.linkField (s : State) (f : Fld) (n : Nat) : Nat :=
  let p := s.lp n
  if f = RL_STAT_REMAIN then s.retryLeft n
  else if f = RL_SEQ_TXNEXT then p.txNext
  else if f = RL_SEQ_RXEXP then p.rxExp
  else if f = RL_BUF_CRED0 then p.cred0
  else if f = RL_BUF_CRED1 then p.cred1
  else p.buf.length

/-- Sources of a group that are MINOR, or SEVERE in either class. -/
def State.groupCount (s : State) (g : Nat) (severe : Bool) : Nat :=
  ((List.range 256).filter fun k => s.srcGroup k == g && (if severe then s.srcSevere k else s.rdA FC_SRC_STATE 0 k == 1)).length

/-- Microseconds since the partner's last heartbeat on any path, saturating (R607). -/
def State.peerAge (s : State) : Nat :=
  satTo 16 ((s.now - max s.pair.hb0 (max s.pair.hb1 s.pair.hbR)) / tqPerUs)

/-- The core rail now (R712): it moves at 10 mV/µs from where the slew began. -/
def State.railMv (s : State) : Nat :=
  let goal := opMv (s.rd PM_STAT_OP 0)
  if s.flag PM_STAT_SLEW 0 then
    let d := (s.now - s.pm.slewAt) * 10 / tqPerUs
    if s.pm.slewFrom ≥ goal then max goal (s.pm.slewFrom - d) else min goal (s.pm.slewFrom + d)
  else s.rd PM_STAT_VCORE 0

/-! ### Readback of the tables of the active image (R354, R421, R391) -/

/-- A steering result as bits: set, mailbox enable, mailbox. -/
def Steer.bits (x : Steer) : Nat := x.dset + b2n x.mbx.isSome * 2 ^ 12 + x.mbx.getD 0 * 2 ^ 13

/-- A ternary entry as its 96 bits (R350). -/
def Ternary.bits (e : Ternary) : Nat :=
  e.valId + e.valPort * 2 ^ 29 + e.maskId * 2 ^ 32 + e.maskPort * 2 ^ 61 + e.steer.bits * 2 ^ 64 + 2 ^ 90

/-- A destination as its bits (R351). -/
def Dest.bits (d : Dest) : Nat := d.tenant + d.ring * 2 ^ 8 + d.kinds * 2 ^ 16 + d.lease * 2 ^ 20 + 2 ^ 32

/-- The entry that CL_RDSEL of lane `k` selects, as one number; 0 where the selection is out of range. -/
def State.steerEntry (s : State) (k : Nat) : Nat :=
  let sub := s.rd CL_RDSEL_SUB k
  let i := s.rd CL_RDSEL_INDEX k
  let b := s.img.steer
  match s.rd CL_RDSEL_TABLE k with
  | 0 => if sub < 16 ∧ i < 2048 then (tget {} b.base ((16 * k + sub) * 2048 + i)).bits else 0
  | 1 => if sub < 2 then (match (tget [] b.ternary (2 * k + sub)).find? fun e => e.index == i with | some e => e.bits | none => 0) else 0
  | 2 =>
    let set := b.set k i
    if sub = 16 then set.xcount
    else if sub < 16 then (match set.dests.find? fun d => d.num == sub with | some d => d.bits | none => 0) else 0
  | _ => 0

/-- Word `j` of the rule or latch that RU_RDSEL selects. -/
def State.ruleEntry (s : State) (j : Nat) : Nat :=
  let i := s.rd RU_RDSEL_INDEX 0
  let b := s.img.steer
  match s.rd RU_RDSEL_TABLE 0 with
  | 0 => match b.rules.find? fun r => r.1 == i with
    | some r => r.2[j]?.getD 0
    | none => 0
  | 1 =>
    let l := tget {} s.ru.latches i
    let v := l.recent.foldl (fun v x => storeOver v x.2.2) l.base
    if i ≥ 512 then 0
    else if j < 2 then leNat ((v.drop (3 * j)).take 3)
    else if j = 2 then leNat (v.drop 6)
    else if j = 3 then ((b.latches.find? fun x => x.1 == i).map (·.2)).getD 0 else 0
  | _ => 0

/-- Page 2 of the ring unit: the grant that RG_GSEL selects, and the contexts in use (R568). -/
def State.grantField (s : State) (f : Fld) : Nat :=
  let used := fun (p : CtxFor → Bool) => min 255 (s.ring_.ctx.filter fun c => p c.what).length
  if f.off = 0 then s.rd f 0
  else if f = RG_CTX_GATHER then used fun w => match w with | .gather _ _ => true | _ => false
  else if f = RG_CTX_REFLEX then used fun w => match w with | .reflex _ _ => true | _ => false
  else if f = RG_CTX_WINDOW then used fun w => match w with | .window _ => true | _ => false
  else match s.img.grants[s.rd RG_GSEL_INDEX 0]? with
    | none => 0
    | some g =>
      let w := match f.off with
        | 4 => g.stenant % 256 * 2 ^ 16 + g.snodeHi % 256 * 2 ^ 8 + g.snodeLo % 256
        | 8 => g.cls % 16 * 2 ^ 20 + g.origins % 8 * 2 ^ 17 + b2n g.stany * 2 ^ 16 + g.objLo % 8192
        | _ => b2n g.w * 2 ^ 15 + b2n g.r * 2 ^ 14 + g.objHi % 8192
      bitsOf w f.lo f.w

/-- What IC_RDSEL selects: a source or a target. -/
def State.irqEntry (s : State) : Nat :=
  let i := s.rd IC_RDSEL_INDEX 0
  if s.rd IC_RDSEL_TABLE 0 = 0 then
    (s.srcOwner i).getD 0 + tget 0 s.img.defTargets i * 2 ^ 8 + s.rdA IC_SRC_STATE 0 i * 2 ^ 20
  else match s.targetFunc i with
    | some f => (s.tenantNo f).getD 0 + f.link * 2 ^ 8 + s.vecOf i * 2 ^ 9 + b2n (f.fn == 0) * 2 ^ 15 + s.rpri i * 2 ^ 16
        + b2n (s.deliverable i) * 2 ^ 20
    | none => 0

/-- Page 1 of the configuration unit: slot `k` and, once CLOSE has passed, the header of its object. -/
def State.slotField (s : State) (f : Fld) (k : Nat) : Nat :=
  let x := s.nvm k
  let hdr := fun (v : Nat) => if x.closed then v else 0
  let hash := leNat (x.targetHash.take 8)
  if f = SL_STAT_STATE then x.st
  else if f = SL_STAT_KIND then hdr (b2n (x.kind == 2))
  else if f = SL_STAT_BASEOK then hdr (b2n (x.kind == 2 && s.baseUsable k))
  else if f = SL_STAT_ERASES then satTo 14 x.erases
  else if f = SL_LEN_WORDS then hdr (x.length / 4)
  else if f = SL_VER0_MAJOR then hdr x.major
  else if f = SL_VER0_MINOR then hdr x.minor
  else if f = SL_VER0_SCHEMA then hdr x.schema
  else if f = SL_VER1_SCHEMA_MIN then hdr x.schemaMin
  else if f = SL_VER1_SECVER then hdr x.secver
  else if f = SL_HASH0_HASH then hdr (bitsOf hash 0 24)
  else if f = SL_HASH1_HASH then hdr (bitsOf hash 24 24)
  else if f = SL_HASH2_HASH then hdr (bitsOf hash 48 16)
  else s.rdA f 0 k

/-- Page 3 of the configuration unit: OTP and the running image. -/
def State.otpField (s : State) (f : Fld) : Nat :=
  let owner := leNat (((s.cu.otp.owner.map (·.1)).getD []).take 6)
  if f = CU_ROLL_COUNTER then s.cu.otp.roll
  else if f = CU_ANCH_OWNER then b2n s.cu.otp.owner.isSome
  else if f = CU_ANCH_VENDOR then 1
  else if f = CU_OWNH0_HASH then bitsOf owner 0 24
  else if f = CU_OWNH1_HASH then bitsOf owner 24 24
  else s.rd f 0

/-- Word `j` of IC_SETB and IC_CLRB as a tenant reads it: P of the sources it owns (R642). -/
def State.pendBits (s : State) (t j : Nat) : Nat :=
  (List.range 24).foldl (fun acc b =>
    let k := 24 * j + b
    acc + b2n (decide (k < 1024) && s.srcOwner k == some t && s.rdA IC_SRC_P 0 k != 0) * 2 ^ b) 0

/-- Every instant is a boundary of a block instance (R122), named as PG_STAT names it. -/
def State.immediate (s : State) (k : Nat) : Bool :=
  let n := k % 1024
  if k / 1024 = Blk.fb.code then s.fbImmediate n
  else if k / 1024 = Blk.sp.code then decide (s.rd SP_STAT_STATE n ≤ 1)
  else if k / 1024 = Blk.rl.code then s.lstate n != 4
  else if k / 1024 = Blk.pl.code then s.lstate (4 + n) != 4
  else !s.bankUp n

/-- Word `off / 4` of lease `l` as the lease view shows it (R94-R96); a lease that the image does not hold shows 0. -/
def State.leaseRaw (s : State) (l off : Nat) : Nat :=
  match s.img.leases[l]? with
  | none => 0
  | some x =>
    match off / 4 with
    | 0 => 2 ^ 23 + b2n x.tx * 2 ^ 22 + x.fmt % 4 * 2 ^ 20 + x.kinds % 16 * 2 ^ 16 + x.port % 128 * 2 ^ 9 + x.tenant % 512
    | 1 => x.lo % 2 ^ 24
    | 2 => x.hi % 2 ^ 24
    | 3 => if x.fmt = 1 then x.hi / 2 ^ 24 % 32 * 2 ^ 8 + x.lo / 2 ^ 24 % 32 else 0
    | 4 => x.quota
    | 5 => x.share
    | 6 => x.burst
    | 7 => (s.lrt l).used
    | 8 => if x.tx then s.tokens l / 4096 else 0
    | _ => 0

/-! ### Triplicated fields (R110-R113) -/

/-- A field whose value the active image holds: a register of the lease view, or LV_COUNT (R94). -/
def Fld.ofImage (f : Fld) : Bool := f.blk == .lv || f == LV_COUNT_COUNT

/-- Where a field that a selector register directs is kept: the registers of TU page 2, of TU page 3 and of PM page 3 show one port's. -/
def State.selected (s : State) (f : Fld) (i j : Nat) : Fld × Nat × Nat :=
  match f.blk, f.page with
  | .tu, 2 => if f.off = 0 then (f, i, j) else if f = TT_RD0_ROLE then (FB_ROLE_TTROLE, s.rd TT_SEL_PORT 0, 0) else (f, 0, s.rd TT_SEL_PORT 0)
  | .tu, 3 => if f = TT_PSTAT_ROLE then (FB_ROLE_TTROLE, j, 0) else ({ f with page := 2, off := 4 }, 0, j)
  | .pm, 3 => if f.off = 0 then (f, i, j) else (f, 0, s.rd PM_ASEL_PORT 0)
  | _, _ => (f, i, j)

/-- The field has three copies: access code RWI, or RWB in its active and its staged copy (R110); no chapter names a further field. -/
def Fld.triplicated (f : Fld) : Bool := f.acc == .rwi || f.acc == .rwb

/-- What a copy of a field holds while all three copies are good. -/
def State.plainVal (s : State) (f : Fld) (i j : Nat) (staged : Bool) : Nat :=
  if staged then s.stagedVal f i j
  else if f.blk = .lv then bitsOf (s.leaseRaw i f.off) f.lo f.w
  else if f = LV_COUNT_COUNT then (s.img.leases.filter fun x => x.tenant == i).length
  else s.rdA f i j

/-- The voter's output for a field (R111, R113): the majority, or the last one while there is none. -/
def State.votedVal (s : State) (f : Fld) (i j : Nat) (staged : Bool) : Nat :=
  match tfind (if staged then s.copiesStaged else s.copies) (f.key i j) with
  | some x => x.out
  | none => s.plainVal f i j staged

/-- What a field reads as: without side effect. -/
def State.view (s : State) (f : Fld) (i j : Nat) : Nat :=
  if f.acc = .wo then 0
  else if f.ofImage then (if f.triplicated then s.votedVal f i j false else bitsOf (s.leaseRaw i f.off) f.lo f.w)
  else match f.blk, f.page with
    | .ic, 0 => if f = IC_SETB_SET ∨ f = IC_CLRB_CLR then s.pendBits i j else s.rdA f i j
    | .pg, _ => if f = PG_STAT_IMMED then b2n (s.immediate i) else s.rdA f i j
    | .tu, 0 => if f.off < 0xC then s.nowField f.off f.lo f.w
        else if f = TU_SLEW_REMAIN then toTwos 24 ((-s.time.slewRem) / (2 ^ 32 : Int))
        else if f = TU_DISC_SECONDS then s.discSeconds
        else if f = TU_HOLD_SECONDS then s.holdSeconds
        else if f = TU_STAT_QUAL then b2n (decide (s.discSeconds ≥ 86400))
        else if f.blk = .tu ∧ f.off = 0x54 ∧ s.lstate j ≠ 4 then 0
        else s.rdA f i j
    | .tu, 2 | .tu, 3 | .pm, 3 => let x := s.selected f i j; s.rdA x.1 x.2.1 x.2.2
    | .gt, 1 =>
      if 0xC ≤ f.off ∧ f.off ≤ 0x20 then s.gatherField f i
      else if f.off = 0x100 then
        (List.range 24).foldl (fun acc b =>
          let g := j * 24 + b
          let mine := match s.img.groups.find? fun x => x.1 == g with
            | some x => x.2.tenant == i
            | none => false
          acc + b2n (mine && (s.grp g).done) * 2 ^ b) 0
      else s.rdA f i j
    | .ge, 0 => if f = GE_STAT_SLOTS then s.gt.runs.length else if f = GE_STAT_QUEUED then s.gt.queue.length
        else if f = GE_NGROUP_COUNT then (s.img.groups.filter fun g => g.2.valid).length else s.rdA f i j
    | .ge, 2 => if f = GE_GDATA_DATA then (match s.img.groups.find? fun x => x.1 == s.rd GE_GSEL_GROUP 0 with | some x => x.2.word j | none => 0) else s.rdA f i j
    | .pq, _ => s.queueField f i
    | .rl, _ => if f = RL_STAT_REMAIN ∨ f.off = 0x40 ∨ f.off = 0x44 then s.linkField f i else s.rdA f i j
    | .fc, 0 =>
      if 4 ≤ f.off ∧ f.off < 0x20 then
        (match topRec s.fc.fifo with | some r => bitsOf ((r.word0 :: r.words)[(f.off - 4) / 4 + j]?.getD 0) f.lo f.w | none => 0)
      else s.rdA f i j
    | .fc, 1 => if f = FC_GSTAT_SEVERE then s.groupCount j true else if f = FC_GSTAT_MINOR then s.groupCount j false else s.rdA f i j
    | .fc, 2 => if f = FC_SRC_EVCNT then min 255 (s.srcCount j) else s.rdA f i j
    | .fc, 3 => if f = FC_SCFG_KIND then b2n (kindL j) else s.rdA f i j
    | .fb, 0 => if f = FB_BOSUP_WINCNT then min 255 (s.recentClears i).length else s.rdA f i j
    | .rg, 0 => if f = RG_STAT_NODE then s.rd RG_CFG_NODE 0 else s.rdA f i j
    | .rg, 1 => if f = RG_NGRANT_COUNT then s.img.grants.length else s.rdA f i j
    | .rg, 2 => s.grantField f
    | .cl, 0 => if f = CL_USED_DSETS then (s.img.steer.sets.filter fun x => x.1 / 4096 == i && !x.2.dests.isEmpty).length
        else if f = CL_USED_TCAM then ((s.img.steer.ternary.filter fun g => g.1 / 2 == i).map (·.2.length)).foldl (· + ·) 0
        else if f.off ≥ 0x14 ∧ f.off < 0x24 then bitsOf (s.steerEntry i) (24 * j) 24 else s.rdA f i j
    | .cl, 1 => if f = CL_RX_SEQ_COUNT then ((s.port (16 * i + j)).rxSeq + 1) % 2 ^ 24 else s.rdA f i j
    | .ru, 0 => if f = RU_STAT_RULES then (s.img.steer.rules.filter fun r => r.1 / 2048 == j && bitAt (r.2[1]?.getD 0) 19).length else s.rdA f i j
    | .ru, 2 => if f = RU_RDDATA_DATA then s.ruleEntry j else s.rdA f i j
    | .ic, 3 =>
      if f = IC_TSTAT_DELIV then b2n (s.deliverable i)
      else if f = IC_TSTAT_RPRI then s.rpri i
      else if f = IC_TSTAT_TGT then i else s.rdA f i j
    | .ic, 4 => if f = IC_RDDATA_DATA then s.irqEntry else s.rdA f i j
    | .rc, _ =>
      if f = RC_CTL_HOME then s.homeOf i
      else if f = RC_STAT_STALL then
        b2n (s.armedAs i 0 && s.prod i != (s.ring i).fetchPos && s.credits (i / 256 * 256 + s.rd RC_CTL_CQN i) == 0)
      else s.rdA f i j
    | .hp, 0 =>
      if f = HP_TAGS_OUTST then (s.link i).reads.length
      else if f = HP_SLOTS_FREE_FREE then (if s.noImage then 0 else 4096 - ((s.link i).slots.filter fun x => x.2.owner.isSome).length) else s.rdA f i j
    | .hp, 2 => if f = HP_DEL_QUEUE_FRAMES then (tget [] s.rx.deq i).length else s.rdA f i j
    | .pm, 0 => if f = PM_STAT_VCORE then s.railMv else s.rdA f i j
    | .pr, 0 => if f = PR_PEER_AGE then s.peerAge else s.rdA f i j
    | .cu, 1 => s.slotField f j
    | .cu, 3 => s.otpField f
    | .db, 0 =>
      if f.off = 0xB0 ∨ f = DB_TSF_NS then (match (s.bank i).fifo with | e :: _ => bitsOf (tsWord e ((f.off - 0xB0) / 4 + j)) f.lo f.w | [] => 0)
      else s.rdA f i j
    | _, _ => s.rdA f i j

/-- What a register reads as, without side effect and without a snapshot. The staged half of a page with RWB fields reads the staged copy of each
RWB field and the active value of every other (R127); the staged half of any other page reads 0 (R128). -/
def State.wordAt (s : State) (l : Loc) : Nat :=
  if l.staged && !hasRwb l.blk l.page then 0
  else l.fields.foldl (fun acc (fj : Fld × Nat) =>
    let v := if l.staged && fj.1.acc == .rwb then s.stagedVal fj.1 l.inst fj.2 else s.view fj.1 l.inst fj.2
    acc + v % 2 ^ fj.1.w * 2 ^ fj.1.lo) 0

/-- A copy of a field, active or staged, has no majority. -/
def State.lostAt (s : State) (l : Loc) (fj : Fld × Nat) : Bool :=
  if l.staged && fj.1.acc == .rwb then s.noMajStaged.contains (fj.1.key l.inst fj.2)
  else
    let x := s.selected fj.1 l.inst fj.2
    s.noMaj.contains (x.1.key x.2.1 x.2.2)

/-- A field of the register has no majority: bit 30 of the slot, VU (R7, R113). -/
def State.voteLost (s : State) (l : Loc) : Bool := !(l.staged && !hasRwb l.blk l.page) && l.fields.any (s.lostAt l)

/-- The slot of a register: its value, and VU. -/
def State.slotAt (s : State) (l : Loc) : Nat := s.wordAt l + b2n (s.voteLost l) * 2 ^ 30

/-- A register of a lease in the lease view of its tenant (R94-R96); at an index without a lease it reads 0 (R95). -/
def State.leaseWord (s : State) (t i off : Nat) : Nat :=
  match s.leaseAt t i with
  | none => 0
  | some l => s.slotAt ⟨.lv, l, 0, off, false⟩

/-- A register of the tenant page that shows the calling function, its leases or its payload slots (TEN_ID, LV_COUNT, TEN_SLOT_ALLOC). -/
def State.callerWord (s : State) (f : Func) (off : Nat) : Nat :=
  let t := (s.tenantNo f).getD 0
  if off = 0 then 2 ^ 12 + b2n (f.fn == 0) * 2 ^ 11 + f.link * 2 ^ 10 + t
  else if off = 4 then s.slotAt ⟨.ten, t, 0, 4, false⟩
  else ((s.link f.link).slots.filter fun x => x.2.owner == some t).length

end Sys2Proof.Machine
end

