-- ==== Sys2Proof/Machine/Vote.lean ====
section
/-! DEFINITION. Votes over triplicated fields, and the reads of the register window (chapter 03: R102, R107, R110-R118, R127, R150). -/

namespace Sys2Proof.Machine

/-! ### Votes (R110-R118) -/

/-- Every triplicated field has a majority again: the cause of source 187 ends (R114). -/
def State.voteSettled (s : State) : State :=
  if s.noMaj.isEmpty && s.noMajStaged.isEmpty then s.levelEnd 187 else s

/-- The vote of R111: a value that at least two copies with good parity hold. -/
def copiesMajority (c : Copies) : Option Nat :=
  if c.aGood && c.bGood && c.a == c.b then some c.a
  else if c.aGood && c.cGood && c.a == c.c then some c.a
  else if c.bGood && c.cGood && c.b == c.c then some c.b
  else none

/-- A copy differs or has bad parity (R112). -/
def copiesDamaged (c : Copies) : Bool := !(c.aGood && c.bGood && c.cGood && c.a == c.b && c.b == c.c)

/-- Three good copies of one value. -/
def copiesOf (v : Nat) : Copies := ⟨v, true, v, true, v, true⟩

/-- The triplicated field of block number `blk` at an offset (page x 4096 + offset in the page) and lowest bit, with its array index (R110). -/
def triplicated (blk off lo : Nat) : Option (Fld × Nat) :=
  [Blk.ten, .lv, .rc, .hp, .fb, .pq, .cl, .fs, .ru, .tu, .sp, .db, .rg, .rl, .ge, .gt, .pr, .pl, .ic, .fc, .pm, .cu, .pg].findSome? fun b =>
    if b.code = blk then
      (b.fields.filter fun f => f.triplicated && f.lo == lo).findSome? fun f =>
        (f.indexAt (off / 4096) (off % 4096)).map fun j => (f, j)
    else none

/-- The offset in BAR0 of a register of an instance, by block number and by page x 4096 + offset in the page (R136). -/
def barOffset (blk inst off : Nat) : Nat :=
  let base := fun (b stride : Nat) => b + inst * stride + off
  match blk with
  | 1 => base 0x40000 0x40
  | 2 => 0x8000 + inst % 256 / 32 * 0x1000 + inst % 32 * 0x40 + off
  | 3 => base 0x2E0000 0x4000
  | 4 => base 0x100000 0x4000
  | 5 => base 0x280000 0x1000
  | 6 => base 0x2D0000 0x4000
  | 7 => base 0x2C0000 0x1000
  | 8 => 0xA0000 + off
  | 9 => 0x80000 + off
  | 10 => base 0x200000 0x2000
  | 11 => base 0x240000 0x2000
  | 12 => 0xC0000 + off
  | 13 => base 0xC0000 0x1000
  | 14 => 0x90000 + off
  | 15 => 0x90000 + off
  | 16 => 0xB0000 + off
  | 17 => base 0xB0000 0x1000
  | 18 => 0x10000 + off
  | 19 => 0x20000 + off
  | 20 => 0x30000 + off
  | 21 => 0x38000 + off
  | _ => off

/-- The copies of a triplicated field as they stand (R110). -/
def State.copiesAt (s : State) (f : Fld) (i j : Nat) (staged : Bool) : Copies :=
  match tfind (if staged then s.copiesStaged else s.copies) (f.key i j) with
  | some x => x.copies
  | none => copiesOf (s.plainVal f i j staged)

/-- The copies of a field, active or staged, and the voter's output are kept. -/
def State.setTriple (s : State) (k : Nat) (staged : Bool) (x : Triple) : State :=
  if staged then { s with copiesStaged := tput s.copiesStaged k x } else { s with copies := tput s.copies k x }

/-- The field, active or staged, is known to be without a majority. -/
def State.isLost (s : State) (k : Nat) (staged : Bool) : Bool := (if staged then s.noMajStaged else s.noMaj).contains k

/-- The voter delivers `v` from a majority: the field takes it, in three copies alike (R111, R112). -/
def State.voteOut (s : State) (f : Fld) (i j : Nat) (staged : Bool) (v : Nat) : State :=
  let k := f.key i j
  let s := s.rewritten k staged
  if v = s.plainVal f i j staged then s
  else if staged then { s with staged := tput s.staged k v }
  else if f.ofImage then s.setTriple k false ⟨copiesOf v, v⟩
  else s.wrA f i j v

/-- A vote finds the copies of a field (R111-R113, R116, R117); whether it corrected one. A majority is the field's value, and a damaged copy is
rewritten from it: one event of source 186. Without a majority the voter holds its last output: one event of source 187. -/
def State.vote (s : State) (f : Fld) (i j : Nat) (staged : Bool) (found : Copies) (detail : Nat) : State × Bool :=
  let k := f.key i j
  match copiesMajority found with
  | some v =>
    let s := (s.voteOut f i j staged (v % 2 ^ f.w)).voteSettled
    if copiesDamaged found then (s.faultAssert 186 detail, true) else (s, false)
  | none =>
    let lost := s.isLost k staged
    let s := s.setTriple k staged ⟨found, s.votedVal f i j staged⟩
    if lost then (s, false)
    else ((if staged then { s with noMajStaged := s.noMajStaged ++ [k] } else { s with noMaj := s.noMaj ++ [k] }).faultAssert 187 detail, false)

/-- A host has written this copy of the field at the present instant, so that a correction is abandoned (R115). -/
def State.justWritten (s : State) (k : Nat) (staged : Bool) : Bool := s.instant.wrote.contains (2 * k + b2n staged)

/-- SCRUB_VISIT: the scrubber, or a use by the block itself, finds the copies of a triplicated field (R111, R116). (DESIGN CHOICE, log entry 92.) -/
def execScrubVisit (t blk inst off lo : Nat) (staged : Bool) (found : Copies) (s : State) : Host.Outcome State Fault Refusal :=
  let s := s.tick t
  match triplicated blk off lo with
  | none => .next s
  | some (f, j) =>
    let staged := staged && f.acc == .rwb
    if s.justWritten (f.key inst j) staged then .next s
    else .next (s.vote f inst j staged found (barOffset blk inst off / 4)).1

/-- RWI_RESTORE: a field that lost its majority takes the active image's value in all three copies (R114). -/
def execRwiRestore (t blk inst off lo : Nat) (s : State) : Host.Outcome State Fault Refusal :=
  let s := s.tick t
  match triplicated blk off lo with
  | none => .next s
  | some (f, j) =>
    let k := f.key inst j
    if f.acc = .rwi ∧ s.noMaj.contains k then
      let s := if f.ofImage then s else s.wrA f inst j (s.img.val f inst j)
      .next (s.rewritten k false).voteSettled
    else .next s

/-! ### Reads (R102, R107, R112, R118) -/

/-- The triplicated fields of a register pass through the vote with the copies a read finds; whether a copy was corrected (VD). -/
def State.voteRead (s : State) (l : Loc) (dword : Nat) (found : List Found) : State × Bool :=
  (if l.staged && !hasRwb l.blk l.page then [] else l.fields).foldl (fun (x : State × Bool) fj =>
    let staged := l.staged && fj.1.acc == .rwb
    let y := if staged then (fj.1, l.inst, fj.2) else x.1.selected fj.1 l.inst fj.2
    match found.find? fun c => c.dword == dword && c.lo == fj.1.lo with
    | some c =>
      if y.1.triplicated then
        let r := x.1.vote y.1 y.2.1 y.2.2 staged c.copies (barOffset l.blk.code l.inst (l.page * 4096 + l.off) / 4)
        (r.1, x.2 || r.2)
      else x
    | none => x) (s, false)

/-- A register that shows a tenant only what is its own, and not this: a source it does not own (R664), a group view of another owner. -/
def State.hidden (s : State) (t : Nat) (l : Loc) : Bool :=
  if l.staged then false
  else if l.blk = .ic then decide (l.page = 1 ∨ l.page = 2) && s.srcOwner ((l.page - 1) * 512 + l.off / 4) != some t
  else l.blk == .fc && l.page == 1 && decide (l.off < 0x200) && s.gOwner (l.off / 0x20) != t

/-- What a host read shows of a register, the read side effects apart; a higher register of a wide group shows the function's snapshot
(R107), its reset value where the function holds none. -/
def State.readReg (s : State) (f : Func) (l : Loc) : Nat :=
  if l.blk = .ten ∧ (l.off = 0 ∨ l.off = 4 ∨ l.off = 0x1C) ∧ !l.staged then s.callerWord f l.off
  else if s.hidden (s.tn f) l then 0
  else match wideGroupOf l with
    | some (first, _) =>
      if l.off = first ∨ l.staged then s.slotAt l
      else (partOf s.host.snaps f l.key).getD (l.fields.foldl (fun acc (fj : Fld × Nat) => acc + fj.1.rst * 2 ^ fj.1.lo) 0)
    | none => s.slotAt l

/-- What a host read shows at a place, the read side effects apart. -/
def State.readPlace (s : State) (f : Func) : Place → Nat
  | .reg l => s.readReg f l
  | .alias_ l bit => b2n (bitAt (s.wordAt l) bit) + b2n (s.voteLost l) * 2 ^ 30
  | .lease i off => s.leaseWord ((s.tenantNo f).getD 0) i off
  | .mbox m w => if s.boxOn m then (s.mbox m).hostWord w else 0
  | .window _ => 0
  | .absent => 0

/-- A function's snapshot of the registers above the lowest one of a group. -/
def State.latch (s : State) (f : Func) (l : Loc) (n : Nat) : State :=
  { s with host := { s.host with snaps := (List.range (n - 1)).foldl (fun ps k =>
      let x : Loc := { l with off := l.off + 4 * (k + 1) }
      putPart ps f x.key (s.slotAt x)) s.host.snaps } }

/-- A read of PQ_HEAD0: it shows the presented head and latches PQ_HEAD1; while no entry is queued it sets UNDER (R336). -/
def State.readHead (s : State) (f : Func) (p : Nat) : State × Nat :=
  let s := if (s.queue p).entries.all (·.inflight) then s.evt PQ_STAT_UNDER p 0 else s
  ({ s with host := { s.host with snaps := putPart s.host.snaps f (⟨.pq, p, 0, 0x10, false⟩ : Loc).key (s.headWord p 1) } }, s.headWord p 0)

/-- A read of a register with its effect: a register whose read has a row of its own acts as that row (R144), the lowest register of a wide
group latches the others for the function (R107), any other only shows its value. -/
def State.readLoc (s : State) (f : Func) (l : Loc) : State × Nat :=
  if l.staged then (s, s.readReg f l)
  else match l.blk with
    | .pq => if l.off = 0xC then s.readHead f l.inst else (s, s.readReg f l)
    | .fc => if l.page = 0 ∧ l.off = 4 then s.popRec f else (s, s.readReg f l)
    | .ic => if l.page = 3 ∧ l.off = 8 then s.claim l.inst else (s, s.readReg f l)
    | .db => if l.page = 0 ∧ l.off = 0xB0 then s.popStamp f l.inst else (s, s.readReg f l)
    | _ => match wideGroupOf l with
      | some (first, n) => if l.off = first then (s.latch f l n, s.slotAt l) else (s, s.readReg f l)
      | none => (s, s.readReg f l)

/-- A read `k` of a register whose triplicated fields pass through the vote first: VD in bit 31 where the read corrected a copy (R112, R118). -/
def State.votedRead (s : State) (l : Loc) (dword : Nat) (found : List Found) (k : State → State × Nat) : State × Nat :=
  let r := s.voteRead l dword found
  let x := k r.1
  if r.2 then (x.1, x.2 + 2 ^ 31) else x

/-- One DWORD of a read request (R102): the state after it and the slot. -/
def State.readDword (s : State) (f : Func) (found : List Found) (off dword : Nat) : State × Nat :=
  match s.place f (off + 4 * dword) with
  | .reg l => s.votedRead l dword found fun s => s.readLoc f l
  | .alias_ l bit => s.votedRead l dword found fun s => (s, s.readPlace f (.alias_ l bit))
  | .lease i o => match s.leaseAt (s.tn f) i with
    | some n => s.votedRead ⟨.lv, n, 0, o, false⟩ dword found fun s => (s, s.readPlace f (.lease i o))
    | none => (s, 0)
  | .mbox m w => if w = 0 then s.openBox f m else if w = 31 then s.closeBox m else (s, s.readPlace f (.mbox m w))
  | _ => (s, 0)

/-- The DWORDs of a read request, in ascending address order (R102). -/
def State.readDwords (s : State) (f : Func) (found : List Found) (off n : Nat) : State × List Nat :=
  (List.range n).foldl (fun (x : State × List Nat) d =>
    let (s, v) := x.1.readDword f found off d
    (s, x.2 ++ [v])) (s, [])

/-- WIDE_GROUP_READ: a read request of a function (R100, R102, R107): in BAR0 each DWORD as a read of its own, with the copies of triplicated
fields that it finds; in BAR4 the MSI-X table and PBA (R71), in configuration space what R61 to R67 state. (DESIGN CHOICE, log entry 93.) -/
def execWideGroupRead (t : Nat) (a : Access) (found : List Found) (s : State) : Host.Outcome State Fault Refusal :=
  let s := s.tick t
  if a.write then .next s
  else if a.bar = 0 then .next (s.hostReads a fun s => s.readDwords a.f found a.off a.dwords)
  else if a.bar = 4 then .next (s.readMsix a)
  else if a.bar = cfgSpace then .next (s.readConfig a)
  else .next s

/-- PQ_HEAD0: a read shows the presented head and latches PQ_HEAD1; while no entry is queued it sets UNDER (R336). -/
def execPqHead0 (t : Nat) (f : Func) (p : Nat) (s : State) : Host.Outcome State Fault Refusal :=
  .next ((s.tick t).hostRead f (if p < 64 then 0x28000C + p * 0x1000 else absentOff) fun s => s.readHead f p)

end Sys2Proof.Machine
end

