-- ==== Sys2Proof/Machine/PairCore.lean ====
section
/-! DEFINITION. The pair unit: states, promotion, demotion, heartbeats, contests, swaps, resync (chapter 13). -/

namespace Sys2Proof.Machine

/-! ### Names and events (R608, R630, R631) -/

/-- The states of R608. -/
def prSolo : Nat := 0
def prJoining : Nat := 1
def prSyncing : Nat := 2
def prStandby : Nat := 3
def prActive : Nat := 4
def prContest : Nat := 5
def prFenced : Nat := 6

/-- The state of the unit. -/
def State.prState (s : State) : Nat := s.rd PR_STAT_STATE 0

/-- Changing the pair unit's plain state. -/
def State.setPair (s : State) (f : PairSt → PairSt) : State := { s with pair := f s.pair }

/-- PR_EVT bit `n`. -/
def State.prEvt (s : State) (n : Nat) : State := s.evt PR_EVT_EVT 0 n

/-- The pair owner. -/
def State.pairOwner (s : State) : Nat := s.rd PR_CFG_POWNER 0

/-- A tenant is active on one of the links. -/
def State.activeAny (s : State) (t : Nat) : Bool := s.active t 0 || s.active t 1

/-- PAIR_ROLE, to every active tenant, at every transition (R631). -/
def State.roleEvent (s : State) (old cause : Nat) : State :=
  ((List.range 256).filter s.activeAny).foldl (fun (s : State) t =>
    s.event t 0x0901 0 ([BitVec.ofNat 8 old, BitVec.ofNat 8 s.prState, BitVec.ofNat 8 (s.rd PR_STAT_ACTING 0)]
      ++ leBytes 3 (s.rd PR_EPOCH_EPOCH 0) ++ [BitVec.ofNat 8 cause])) (s.prEvt 0)

/-- A pair link is UP. -/
def State.pairLinkUp (s : State) : Bool := s.lstate 4 == 4 || s.lstate 5 == 4

/-- The flag of a path that is alive (R607): 0 PL0, 1 PL1, 2 ring. -/
def pathFlag (path : Nat) : Fld := if path = 0 then PR_STAT_PL0_OK else if path = 1 then PR_STAT_PL1_OK else PR_STAT_RING_OK

/-- Some path is alive. -/
def State.anyPath (s : State) : Bool := [0, 1, 2].any fun p => s.flag (pathFlag p) 0

/-! ### Promotion and demotion (R610, R611, R618) -/

/-- An in-flight mirror entry at promotion: completed with the SOF time observed, or queued again (R618). -/
def State.settleMirror (s : State) (p : Nat) (e : QEntry) : State :=
  match e.seen with
  | some sof =>
    let s := ((s.freeEntry p e true sof).bump PR_OBSERVED_COUNT 0).prEvt 11
    s.endTenant e 0 (sof % 2 ^ 32)
  | none => s.setEntry p e fun e => { e with inflight := false }

/-- Promotion (R610): the pair epoch, the mirror entries in flight, and every FB port's queue from its first boundary. The banks' outputs
follow at their next tick, and reference messages resume, because the unit acts. -/
def State.promote (s : State) : State :=
  let heard := (s.pair.partner.map (·.epoch)).getD 0
  let s := (s.wr PR_EPOCH_EPOCH 0 (max (s.rd PR_EPOCH_EPOCH 0) heard + 1)).wr PR_MSEQ_MSEQ 0 (s.rd PR_MSEQ_MSEQ 0 + 1)
  let s := (s.setMirror []).setPair fun x => { x with early := [] }
  (List.range 64).foldl (fun (s : State) p =>
    let fl := (s.queue p).entries.filter fun e => e.mirror && e.inflight
    let s := fl.foldl (fun (s : State) (e : QEntry) => s.settleMirror p e) s
    ((s.failRound p 5).setPort p fun x => { x with txHold := true }).settlePort p) s

/-- A queued entry at a demotion (R611): a tenant's completes CANCELLED; a reply or device frame other than Clove is freed. -/
def State.demoteEntry (s : State) (p : Nat) (e : QEntry) : State :=
  match e.src with
  | .tenant _ =>
    let s := s.freeEntry p e false 0
    let c : Comp := ⟨e.ring, e.wseq, e.pos, 1, e.tag, 0x48, 0, 0⟩
    if e.orphan then s else if e.mirror then s.mirrorDone c else (s.countCancel e).complete c e.nocomp
  | .device _ what => if what = .clove then s else s.freeEntry p e false 0
  | .reflex _ => s.freeEntry p e false 0

/-- An entry in flight at a demotion is marked: CANCELLED where R332 marks a tenant's, freed at its outcome otherwise. -/
def demoteMark (e : QEntry) : QEntry :=
  match e.src with
  | .tenant _ => if e.mark.isNone then { e with mark := some 0x48 } else e
  | .device _ .clove => e
  | _ => { e with expired := true }

/-- Demotion other than by a planned swap (R611). The outputs turn off at the banks' next tick, because the unit holds. -/
def State.demote (s : State) : State :=
  let s := s.setMirror []
  (List.range 64).foldl (fun (s : State) p =>
    let es := (s.queue p).entries.filter fun e => !e.inflight
    let s := es.foldl (fun (s : State) (e : QEntry) => s.demoteEntry p e) s
    (s.setEntries p ((s.queue p).entries.map fun e => if e.inflight then demoteMark e else e)).failRound p 5) s

/-- A state acts (R608); CONTEST as before it. -/
def State.actsIn (s : State) (st : Nat) : Bool :=
  st == prSolo || st == prActive || (st == prFenced && s.flag PR_CFG_PREFER 0) || (st == prContest && s.flag PR_STAT_ACTING 0)

/-- A transition (R609): STATE, then a promotion or demotion where acting changes, then PAIR_ROLE. -/
def State.role (s : State) (st cause : Nat) : State :=
  let old := s.prState
  let was := s.flag PR_STAT_ACTING 0
  let acts := s.actsIn st
  let s := (s.wr PR_STAT_STATE 0 st).put PR_STAT_ACTING 0 acts
  let s := if acts && !was then s.promote else if was && !acts then s.demote else s
  let s := if st = prFenced then s.prEvt 3 else s
  (s.roleEvent old cause).refreshHeads

/-! ### Clove and contests (R616-R624) -/

/-- The port is a usable witness (R616). -/
def State.usableWitness (s : State) (p : Nat) : Bool :=
  s.flag FB_ROLE_WITNESS p && s.onBus p && !s.restricted p && (s.refuses p).isNone && !s.flag PQ_STAT_RESETTING p

/-- The usable witness ports. -/
def State.witnesses (s : State) : List Nat := (List.range 64).filter s.usableWitness

/-- The identifier of this unit's Clove (R620). -/
def State.cloveId (s : State) : Nat :=
  s.rd PR_CLVPFX_PFX 0 * 2 ^ 21 + b2n (!s.flag PR_STAT_ACTING 0) * 2 ^ 20 + Config.serial % 4096 * 256 + s.rd PR_EPOCH_EPOCH 0 % 256

/-- Clove is submitted on every usable witness port; PR_CLV0 and PR_CLV1 show it. -/
def State.sendClove (s : State) : State :=
  let id := s.cloveId
  let fr : Frame := { id := id, ide := true, rtr := false, fdf := false, brs := false, dlc := 0, data := [] }
  let s := (s.wr PR_CLV0_OWN_ID 0 id).wr PR_CLV1_OWN_ID 0 (id / 2 ^ 24)
  s.witnesses.foldl (fun (s : State) p =>
    let (s, ok) := s.submitDev p .clove fr
    if ok then s.setPair fun x => { x with clove := tset 0 x.clove p 1 } else s) s

/-- A contest starts with D now (R609, R617, R621). -/
def State.startContest (s : State) : State :=
  let s := s.setPair fun x => { x with contestD := some s.now, wasActing := s.flag PR_STAT_ACTING 0, clove := [], joinBy := none }
  let peer := s.pair.peerClove.getD 0
  let s := (((s.wr PR_CLV2_PEER_ID 0 peer).wr PR_CLV3_PEER_ID 0 (peer / 2 ^ 24)).wr PR_CLV3_OUTCOME 0 0).put PR_STAT_ISOL 0 false
  (((s.bump PR_CONTESTS_COUNT 0).prEvt 1).role prContest 2).sendClove

/-- Cloves not yet taken are withdrawn, and the contest is over. -/
def State.endContest (s : State) : State :=
  let mine := s.pair.clove.filter fun x => x.2 == 1
  let s := mine.foldl (fun (s : State) x => (s.withdrawDev x.1 .clove).setPair fun y => { y with clove := tset 0 y.clove x.1 3 }) s
  (s.setPair fun x => { x with contestD := none }).settleFaults

/-- The outcome of a contest (R621): 1 won, 2 lost, 3 neither. -/
def State.contestOutcome (s : State) (own : Nat) : Nat :=
  let sent := s.pair.clove.any fun x => x.2 == 2
  match s.pair.peerClove with
  | some id => if id < own ∨ !sent then 2 else 1
  | none => if sent then 1 else 3

/-- The contest closes (R609, R621, R623). -/
def State.closeContest (s : State) : State :=
  let own := s.rd PR_CLV0_OWN_ID 0 + s.rd PR_CLV1_OWN_ID 0 * 2 ^ 24
  let out := s.contestOutcome own
  let sent := (s.pair.clove.filter fun x => x.2 == 2).length
  let s := ((s.endContest).wr PR_CLV3_OUTCOME 0 out).prEvt 2
  let s := s.eventLim s.pairOwner 0x0903 0
    (leBytes 4 own ++ leBytes 4 (s.pair.peerClove.getD 0) ++ [BitVec.ofNat 8 out, BitVec.ofNat 8 sent])
  if out = 1 then (if s.flag PR_STAT_ACTING 0 then s else s.bump PR_FAILOVERS_COUNT 0).role prActive 2
  else if out = 2 then ((s.setPair fun x => { x with cloveSeen := s.now }).put PR_STAT_ISOL 0 true).role prStandby 2
  else s.role prFenced 3

/-- A frame of Clove's form on a witness port (R620): the partner's counts, any other is ignored. -/
def State.cloveReceived (s : State) (p : Nat) (h : Header) : State :=
  let form := h.ide && !h.rtr && !h.fdf && h.dlc == 0 && h.id / 2 ^ 21 % 256 == s.rd PR_CLVPFX_PFX 0
  if !(s.flag PR_CFG_PAIRED 0 && s.flag FB_ROLE_WITNESS p && form) then s
  else if h.id / 256 % 4096 ≠ s.partnerSerial % 4096 then s.bump PR_FOREIGN_COUNT 0
  else
    let id := h.id % 2 ^ 29
    let best := match s.pair.peerClove with | some v => min v id | none => id
    let s := s.setPair fun x => { x with peerClove := some best, cloveSeen := s.now }
    if s.pair.contestD.isSome then (s.wr PR_CLV2_PEER_ID 0 best).wr PR_CLV3_PEER_ID 0 (best / 2 ^ 24) else s

/-! ### Planned swap (R626, R627) -/

/-- A swap ends: presentation resumes at each port's next boundary where the unit acts; PAIR_SWAP with the longest hold. -/
def State.endSwap (s : State) (result : Nat) : State :=
  match s.pair.swap with
  | none => s
  | some w =>
    let held := if w.stopped.isEmpty then 0 else (s.now - w.at_) / tqPerUs
    let s := ((s.setPair fun x => { x with swap := none }).put PR_STAT_SWAPPING 0 false).prEvt (if result = 0 then 8 else 9)
    let s := (List.range 64).foldl (fun (s : State) p => s.settlePort p) s
    s.eventLim s.pairOwner 0x0905 0 (BitVec.ofNat 8 result :: leBytes 4 held)

/-- An entry of the old acting unit becomes a mirror entry in place, without completion: its descriptor is no longer outstanding; replies and
device frames other than Clove are freed, because they are not eligible any more. -/
def State.swapEntry (s : State) (p : Nat) (e : QEntry) : State :=
  match e.src with
  | .tenant _ =>
    let s := s.setEntry p e fun e => { e with mirror := true }
    if e.mirror || e.orphan then s
    else
      ((s.setRing e.ring fun g => { g with live := g.live.filter (· != e.wseq) }).drop1 RC_OUTST_COUNT e.ring).drop1 RC_OUTST_COUNT (s.cqOf e.ring)
  | .device _ what => if what = .clove then s else s.freeEntry p e false 0
  | .reflex _ => s.freeEntry p e false 0

/-- The swap completes at the old acting unit (R626): STANDBY, with its entries and commanded states kept; no resync follows. -/
def State.swapDone (s : State) : State :=
  let old := s.prState
  let s := (((s.wr PR_STAT_STATE 0 prStandby).put PR_STAT_ACTING 0 false).put PR_STAT_MIRROR_OK 0 true).wr PR_MSEQ_MSEQ 0
    (s.rd PR_MSEQ_MSEQ 0 + 2 ^ 24 - 1)
  let s := s.setMirror []
  let s := (List.range 64).foldl (fun (s : State) p =>
    (s.queue p).entries.foldl (fun (s : State) (e : QEntry) => s.swapEntry p e) s) s
  (s.roleEvent old 5).endSwap 0

/-! ### Resync (R613, R615) -/

/-- Every record of a snapshot: queued tenant entries (with their take where in flight), transmit leases, mailboxes, banks, counters. -/
def State.snapshot (s : State) : List MirrorRec :=
  let ents := (List.range 64).flatMap fun p => (s.queue p).entries.flatMap fun e => match e.src with
    | .tenant l =>
      MirrorBody.entryAdd p e.key e.seq e.cost (e.ring / 256) l (e.ring % 256) e.pos e.tag e.nocomp e.frame
        :: (if e.inflight then [.entryTake p e.seq] else [])
    | _ => []
  let leases := ((s.img.leases.zipIdx).filter fun x => x.1.tx && x.1.tenant != devTenant).map fun x =>
    MirrorBody.lease x.2 (s.lrt x.2).used (s.tokens x.2 / 4096) s.ns
  let boxes := s.rx.mboxes.filterMap fun e =>
    let b := e.2.newest
    if b.valid then some (MirrorBody.mbox e.1 ⟨b.id, b.port, b.dlc, b.flags, b.epoch, b.ns, b.frac, b.data⟩) else none
  let banks := ((List.range 12).filter fun b => s.flag DB_CFG_PRESENT b).map fun b =>
    MirrorBody.dout b (s.rd DB_OUT_CMD b) ((s.bank b).ends.map fun x => (x.1, x.2 - s.now))
  let cnts := (List.range 192).map fun k => MirrorBody.dcnt k (s.rdA DB_CNT_COUNT (k / 16) (k % 16))
  (ents ++ leases ++ boxes ++ banks ++ cnts).map fun b => ⟨s.rd PR_MSEQ_MSEQ 0, b⟩

/-- The acting unit sends the snapshot on each UP pair link (R615); the SNAP cells of one resync leave as one item (log entry 31). -/
def State.sendSnapshot (s : State) : State :=
  let recs := s.snapshot
  [4, 5].foldl (fun (s : State) n => if s.lstate n = 4 then s.pushPair n (.snap recs true) else s) s

/-- A resync starts at the holding unit (R609, R615): every mirror entry is freed without completion. -/
def State.startSync (s : State) (mseq cause : Nat) : State :=
  let s := s.role prSyncing cause
  let s := ((s.put PR_STAT_MIRROR_OK 0 false).bump PR_RESYNC_COUNT 0).wr PR_MSEQ_MSEQ 0 (mseq + 2 ^ 24 - 1)
  let s := s.setPair fun x => { x with early := [] }
  (List.range 64).foldl (fun (s : State) p =>
    ((s.queue p).entries.filter (·.mirror)).foldl (fun (s : State) (e : QEntry) => s.freeEntry p e false 0) s) s

/-- The partner's handover schema fails the rule of R756, as far as a heartbeat shows it, or the lease digests differ (R615). -/
def State.incompatible (s : State) (h : Heartbeat) : Bool :=
  decide (min h.schema (s.rd CU_RUN0_SCHEMA 0) < s.rd CU_RUN1_SCHEMA_MIN 0) || h.digest != s.img.leaseDigest

/-- A unit goes to SYNCING with a partner that acts, or refuses to (R615); while no pair link is UP it stays STANDBY without a current
mirror (R625). -/
def State.joinPartner (s : State) (h : Heartbeat) (cause : Nat) : State :=
  if s.incompatible h then
    let s := (s.prEvt 10).eventLim s.pairOwner 0x0904 0 (3 :: leBytes 3 (s.rd PR_MSEQ_MSEQ 0))
    if s.prState = prJoining then s else s.role prJoining cause
  else if s.pairLinkUp then s.startSync h.mseq cause
  else if s.prState = prJoining ∨ s.prState = prStandby then s
  else (s.put PR_STAT_MIRROR_OK 0 false).role prStandby cause

/-! ### Heartbeats (R607, R609, R625) -/

/-- The units reconcile (R625). -/
def State.reconcile (s : State) (h : Heartbeat) : State :=
  let s := s.endContest
  let own := s.flag PR_STAT_ACTING 0
  let prefer := s.flag PR_CFG_PREFER 0
  let e := s.rd PR_EPOCH_EPOCH 0
  let stay := if own && h.acting then decide (e > h.epoch) || (e == h.epoch && prefer)
    else if own || h.acting then own else prefer
  if stay then (if s.prState = prActive then s else s.role prActive 4) else s.joinPartner h 4

/-- What a heartbeat of a partner whose last HB cell is `h` does in the unit's state; `before` is the HB cell before it. -/
def State.judgePartner (s : State) (h : Heartbeat) (before : Option Heartbeat) : State :=
  let st := s.prState
  let was := (before.map (·.state)).getD 0
  if st = prJoining then
    if h.acting then s.joinPartner h 1
    else if h.state = prJoining then (if s.flag PR_CFG_PREFER 0 then s.role prActive 1 else s.joinPartner h 1)
    else s
  else if st = prContest ∨ st = prFenced ∨ (st = prStandby ∧ s.flag PR_STAT_ISOL 0) then s.reconcile h
  else if st = prStandby then
    let s := if h.acting && !h.mirrorOk && (before.map (·.mirrorOk)).getD false then s.mirrorStale else s
    if h.acting && !s.flag PR_STAT_MIRROR_OK 0 then s.joinPartner h 4 else s
  else if st = prActive then
    match s.pair.swap with
    | some w =>
      if w.sent && h.acting then s.swapDone else if h.state ≠ prStandby && !h.acting then s.endSwap 2 else s
    | none =>
      if h.acting then s.reconcile h
      else if h.state = prSyncing ∧ was ≠ prSyncing then s.sendSnapshot
      else if h.state = prStandby ∧ was = prSyncing ∧ h.mirrorOk then s.put PR_STAT_MIRROR_OK 0 true
      else s
  else s

/-- A heartbeat on a path (R607): the path is alive; the HB cell, where it is one, says what the partner is. -/
def State.heartbeat (s : State) (path : Nat) (h : Option Heartbeat) : State :=
  if !s.flag PR_CFG_PAIRED 0 then s
  else
    let before := s.pair.partner
    let s := s.setPair fun x => { x with
      hb0 := if path = 0 then s.now else x.hb0
      hb1 := if path = 1 then s.now else x.hb1
      hbR := if path = 2 then s.now else x.hbR
      partner := match h with | some v => some v | none => x.partner
      joinBy := if x.joinBy.isSome then some (s.now + s.rd PR_JOIN_JOIN_TMO 0 * tqPerMs) else none
      peerClove := none }
    let s := match h with
      | some v => (s.wr PR_PEER_PSTATE 0 v.state).put PR_PEER_PACTING 0 v.acting
      | none => s
    let s := if s.flag (pathFlag path) 0 then s
      else ((s.put (pathFlag path) 0 true).prEvt 5).eventLim s.pairOwner 0x0902 path [2]
    let s := match s.pair.partner with
      | some v => s.judgePartner v before
      | none => s
    s.put PR_STAT_ISOL 0 false

end Sys2Proof.Machine
end

