-- ==== Sys2Proof/Machine/Ring.lean ====
section
/-! DEFINITION. The ring unit: acceptance of cells, requests and responses, grants, membership, sleep rounds (R515-R572). -/

namespace Sys2Proof.Machine

/-! ### Cells received (R522, R542, R546, R553) -/

/-- The node's number. -/
def State.node (s : State) : Nat := s.rd RG_CFG_NODE 0

/-- A cell on a lane is checked (R522, R546): accepted in order with an ACK, discarded as a duplicate, or refused with a NAK, one until the
expected cell arrives. -/
def State.acceptLane (s : State) (n : Nat) (x : LaneCell) : State × Bool :=
  if s.lstate n ≠ 4 then (s, false)
  else
    let p := s.lp n
    let nak := fun (s : State) => if p.nakAt.isSome then s else (s.say n 2 p.rxExp).setLp n fun p => { p with nakAt := some s.now }
    if !x.good || x.badBlock then
      let s := if x.badBlock && isRingPort n then s.bump RL_BADMSG_COUNT n else s
      (nak (s.bumpPort n RL_CRCERR_COUNT PL_CRCERR_COUNT), false)
    else
      let back := (p.rxExp + 4096 - x.lseq % 4096) % 4096
      if 1 ≤ back ∧ back ≤ 64 then (s, false)
      else if back ≠ 0 then (nak s, false)
      else
        let s := s.setLp n fun p => { p with rxExp := (p.rxExp + 1) % 4096, nakAt := none }
        ((s.bumpPort n RL_RXCELL_COUNT PL_RXCELL_COUNT).say n 1 x.lseq, true)

/-- A cell that arrives on port `n` joins the forward traffic: it arrived on the forward lane, or past a wrap point (R514, R553). -/
def State.isForward (s : State) (n : Nat) : Bool :=
  n == fwdIn (ringOf n) || (n == fwdOut (ringOf n) && s.flag RL_STAT_WRAP (fwdIn (ringOf n)))

/-- A cell travels on from port `n`: it is on a return lane, or neither of this node nor for it and below the hop limit (R515, R542). -/
def State.goesOn (s : State) (n : Nat) (c : Cell) : Bool :=
  !s.isForward n || (c.src != s.node && c.dst != s.node && decide (c.hops + 1 < 500))

/-- A ring cell is checked. One that stays here frees its receive slot at once (R543); a DELAY cell takes none (R520). -/
def State.accept (s : State) (n : Nat) (c : Cell) : State × Bool :=
  if !isRingPort n then (s, false)
  else
    let (s, ok) := s.acceptLane n ⟨c.lseq, c.good && decide (1 ≤ c.typ ∧ c.typ ≤ 7), c.badBlock⟩
    (if !ok || c.typ = 7 || s.goesOn n c then s else s.freed n c.vc, ok)

/-- A cell travels on along its ring from the forward lane of port `n`; it holds its receive slot until it leaves (R543). -/
def State.forward (s : State) (n : Nat) (c : Cell) : State :=
  let out := s.exitPort (ringOf n)
  s.transitOn out { c with hops := c.hops + 1, wrap := c.wrap || out == fwdIn (ringOf n), from_ := some n }

/-- A cell on a return lane travels on unchanged (R515). -/
def State.passBack (s : State) (n : Nat) (c : Cell) : State :=
  s.transitOn (fwdIn (ringOf n)) { c with hops := c.hops + 1, from_ := some n }

/-- A cell at the hop limit is removed; a request is answered ABORTED, reason 5 (R542). -/
def State.hopLimit (s : State) (ring : Nat) (c : Cell) : State :=
  let s := (s.bump RG_HOPLIM_COUNT 0).evt RG_EVT_EVT 0 9
  if c.typ = 1 then (s.insertCell ring (response c s.node 6 5 0 0 [])).1 else s

/-! ### Requests at the target (R530-R535, R552, R557) -/

/-- Operation, class, object and word of a global address (R530); `none` where no object has it. -/
def gplace (gaddr : Nat) : Option (Nat × Nat × Nat) :=
  let cls := gaddr / 2 ^ 20 % 16
  let i := gaddr % 2 ^ 20
  if cls = 1 ∧ i < 2 ^ 18 then some (1, i / 32, i % 32)
  else if cls = 2 ∧ i < 2 ^ 12 ∧ i % 64 < 30 then some (2, i / 64, i % 64)
  else if cls = 3 ∧ i < 24 * 64 ∧ i % 64 < 30 then some (3, i / 64, i % 64)
  else if cls = 4 ∧ i < 12 * 64 then some (4, i / 64, i % 64)
  else if cls = 5 ∧ i < 192 then some (5, i, 0)
  else none

/-- The words of an object of a class. -/
def objWords (cls : Nat) : Nat := if cls = 1 then 32 else if cls = 4 then 64 else if cls = 5 then 1 else 30

/-- The power domain of an object (R537, R703). -/
def objDomain (cls obj : Nat) : Nat :=
  if cls = 1 then 116 + obj / 2048 else if cls = 2 then obj else if cls = 3 then 64 + obj
  else if cls = 4 then 88 + obj else 88 + obj / 16

/-- A word of an object, read without side effect (R385, R531). -/
def State.objWord (s : State) (cls obj w : Nat) : Nat :=
  if cls = 1 then (s.mbox obj).sideWord w
  else if cls = 2 then s.wordAt ⟨.fb, obj, if w < 16 then 0 else 3, if w < 16 then 4 * w else 4 * (w - 16), false⟩
  else if cls = 3 then s.wordAt ⟨.sp, obj, if w < 16 then 0 else 1, if w < 16 then 4 * w else 0x40 + 4 * (w - 16), false⟩
  else if cls = 4 then s.wordAt ⟨.db, obj, 0, 4 * w, false⟩
  else s.rdA DB_CNT_COUNT (obj / 16) (obj % 16)

/-- Some grant covers source, tenant, origin, class and object for reading or writing (R534, R535). -/
def State.granted (s : State) (c : Cell) (cls obj : Nat) (write : Bool) : Bool :=
  s.img.grants.any fun g =>
    decide (g.snodeLo ≤ c.src ∧ c.src ≤ g.snodeHi) && (g.stany || g.stenant == c.tenant) && bitAt g.origins c.origin
      && g.cls == cls && decide (g.objLo ≤ obj ∧ obj ≤ g.objHi) && (if write then g.w else g.r)

/-- The mailbox arrival an MBOX_WRITE carries (R519, R532). -/
def cellArrival (c : Cell) : Arrival :=
  let b20 := cellField c 20 1
  let b21 := cellField c 21 1
  { id := cellField c 16 4 % 2 ^ 29, port := 0xFF, dlc := b20 % 16
    flags := b21 % 2 * 16 + bitsOf b20 7 1 * 8 + bitsOf b20 6 1 * 4 + bitsOf b20 5 1 * 2 + bitsOf b20 4 1
    epoch := cellField c 23 1, ns := cellField c 24 8, frac := cellField c 22 1
    data := (c.body.drop 16).take (b21 / 2) }

/-- Why the target turns a request away before its object is looked at: a status, 0 where it does not. -/
def State.turnAway (s : State) (c : Cell) (via : Option Nat) : Nat :=
  if s.inGap && via.isSome then 3
  else if s.flag RG_STAT_DUP 0 && via.isSome then 1
  else if s.flag RG_STAT_STOP 0 && (c.op == 2 || c.op == 3) then 4
  else if c.op = 0 ∨ c.op > 3 ∨ (c.op = 2 ∧ cellField c 21 1 / 2 > 64) ∨ (c.op = 3 ∧ cellField c 18 1 % 4 = 3)
    ∨ (c.op = 1 ∧ (cellField c 16 1 = 0 ∨ cellField c 16 1 > 21)) then 10
  else 0

/-- The rights an admitted request needs (R535): a READ of a bank on all 16 lines, a DCMD on one of its lines. -/
def State.admits (s : State) (c : Cell) (cls obj : Nat) : Bool :=
  if c.op = 3 then (linesOf (cellField c 16 2)).any fun j => s.granted c 4 (obj * 16 + j) true
  else if cls = 4 then (List.range 16).all fun j => s.granted c 4 (obj * 16 + j) false
  else s.granted c cls obj (c.op == 2)

/-- A request is served at its target, or on the local path (R531-R535, R537, R540). (DEDUCED, log entry 34.) (DEDUCED, log entry 57.) -/
def State.serve (s : State) (via : Option Nat) (c : Cell) : State :=
  let st := s.turnAway c via
  if st ≠ 0 then s.respond via c st 0 0 0 []
  else match gplace c.gaddr with
    | none => s.respond via c 2 0 0 0 []
    | some (cls, obj, w) =>
      let n := cellField c 16 1
      if (c.op = 1 ∧ w + n > objWords cls) ∨ (c.op = 2 ∧ (cls ≠ 1 ∨ w ≠ 0)) ∨ (c.op = 3 ∧ (cls ≠ 4 ∨ w ≠ 0)) then
        s.respond via c 2 0 0 0 []
      else if !s.admits c cls obj then s.respond via c 1 0 0 0 []
      else if !s.domOn (objDomain cls obj) then s.respond via c 5 0 0 0 []
      else if c.op = 1 then
        s.respond via c 0 0 0 n ((List.range n).flatMap fun j => leBytes 3 (s.objWord cls obj (w + j)))
      else if c.op = 2 then
        ((s.mailArrive obj (cellArrival c)).mirror (.mbox obj (cellArrival c))).respond via c 0 0 0 0 []
      else
        let denied := maskOf fun j => !s.granted c 4 (obj * 16 + j) true
        s.bankCmd obj ⟨cellField c 18 1 % 4, cellField c 16 2, cellField c 20 2, .remote c via denied, 0, 0⟩

/-- A request reaches the node: RG_RX_REQ, and the sink of 64 takes it, or BUSY (R539). -/
def State.sinkReq (s : State) (ring : Nat) (c : Cell) : State :=
  let s := s.bump RG_RX_REQ_COUNT 0
  if s.ring_.sink.length ≥ 64 then s.respond (some ring) c 3 0 0 0 []
  else { s with ring_ := { s.ring_ with sink := s.ring_.sink ++ [c] } }

/-- A request out of the sink, or as it arrives, is served. -/
def State.takeReq (s : State) (n : Nat) (c : Cell) : State :=
  let same := fun (x : Cell) => x.src == c.src && x.tag == c.tag && x.op == c.op
  match s.ring_.sink.find? same with
  | some q =>
    let sink := s.ring_.sink.filter fun x => !same x
    ({ s with ring_ := { s.ring_ with sink := sink } }).serve (some (ringOf n)) q
  | none =>
    let (s, ok) := s.accept n c
    if !ok || c.typ ≠ 1 then s
    else if !s.isForward n then s.passBack n c
    else if c.src = s.node then s.completeCtx c.tag 7 0 0 []
    else if c.dst = s.node then (s.bump RG_RX_REQ_COUNT 0).serve (some (ringOf n)) c
    else if c.hops + 1 ≥ 500 then s.hopLimit (ringOf n) c
    else s.forward n c

/-! ### Requests at the source (R536, R540, R557, R570) -/

/-- Member `n` as this node knows it. -/
def State.mem (s : State) (n : Nat) : Member := tget {} s.ring_.members n

/-- The node is reachable on a ring (R524). -/
def State.reach (s : State) (n ring : Nat) : Bool := if ring = 0 then (s.mem n).heardA != 0 else (s.mem n).heardB != 0

/-- The ring of a request to a member (R540, rules 3 to 5). -/
def State.chooseRing (s : State) (origin tenant dst gaddr : Nat) : Nat :=
  if !s.reach dst 1 then 0
  else if !s.reach dst 0 then 1
  else
    let a := s.rd RG_STAT_RSTATE_A 0
    let b := s.rd RG_STAT_RSTATE_B 0
    if a ≥ 2 ∧ b = 1 then 1
    else if b ≥ 2 ∧ a = 1 then 0
    else Config.ringHash s.ring_.hashKey origin tenant dst (gaddr / 2 ^ 20 % 16) ((gplace gaddr).map (·.2.1) |>.getD 0) % 2

/-- A request of this node (R536, R537, R540): it completes at once, is served on the local path, or is queued for its ring.
(DESIGN CHOICE, log entry 33.) -/
def State.request (s : State) (what : CtxFor) (origin tenant op gaddr : Nat) (body : List Byte) : State :=
  let c : Cell := { typ := 1, vc := 0, origin := origin, dst := gaddr / 2 ^ 24, src := s.node, tenant := tenant
                    tag := s.ring_.nextTag, op := op, gaddr := gaddr, body := padTo 80 body }
  let end_ := fun (s : State) st => s.finishReq what gaddr st 0 0 []
  if op = 0 ∨ op > 3 ∨ (op = 1 ∧ (cellField c 16 1 = 0 ∨ cellField c 16 1 > 21)) ∨ (op = 2 ∧ cellField c 21 1 / 2 > 64) then end_ s 10
  else if s.flag RG_STAT_STOP 0 then end_ s 4
  else if s.poolFull what then end_ s 9
  else
    let ctx : Ctx := ⟨c.tag, what, c.dst, op, gaddr, none⟩
    let hold := fun (s : State) => { s with ring_ := { s.ring_ with ctx := s.ring_.ctx ++ [ctx], nextTag := (s.ring_.nextTag + 1) % 2 ^ 24 } }
    if c.dst = 0 ∨ c.dst = s.node then (hold s).serve none c
    else if s.flag RG_STAT_DUP 0 then
      -- R527: a node with DUP inserts no request; the status it completes with is free (log entry 12)
      end_ s.draw (1 + Config.dupStatus s.fresh % 10)
    else if !(s.reach c.dst 0 || s.reach c.dst 1) then end_ s 7
    else
      let (s', ok) := (hold s).insertCell (s.chooseRing origin tenant c.dst gaddr) c
      if ok then s' else end_ s 9

/-- The body of a READ of `n` words. -/
def readBody (n : Nat) : List Byte := leBytes 1 n

/-- The body of an MBOX_WRITE (R519). -/
def arrivalBody (a : Arrival) : List Byte :=
  leBytes 4 a.id ++ [BitVec.ofNat 8 (a.dlc % 16 + a.flags % 2 * 16 + bitsOf a.flags 1 1 * 32 + bitsOf a.flags 2 1 * 64 + bitsOf a.flags 3 1 * 128),
    BitVec.ofNat 8 (bitsOf a.flags 4 1 + a.data.length % 128 * 2), BitVec.ofNat 8 a.frac, BitVec.ofNat 8 a.epoch] ++ leBytes 8 a.ns
    ++ padTo 64 a.data

/-- The request that the remote window of tenant `t` holds (R570). -/
def State.windowGo (s : State) (t : Nat) : State :=
  let op := s.rd RR_CTL_OP t
  let gaddr := s.rd RR_GA1_NODE t * 2 ^ 24 + s.rd RR_GA0_GA_LO t
  let len := s.rd RR_MW1_LEN t
  let bytes := ((List.range 22).flatMap fun j => leBytes 3 (s.rdA RR_DATA_DATA t j)).take len
  let flags := s.rd RR_MW1_BRS t * 8 + s.rd RR_MW1_FDF t * 4 + s.rd RR_MW1_RTR t * 2 + s.rd RR_MW1_IDE t
  let a : Arrival := { id := s.rd RR_MW1_ID_HI t * 2 ^ 24 + s.rd RR_MW0_ID_LO t, port := 0xFF, dlc := s.rd RR_MW1_DLC t, flags := flags
                       epoch := s.rd TU_EPOCH_EPOCH 0 % 256, ns := s.ns, frac := s.frac, data := bytes }
  let body := if op = 1 then readBody (s.rd RR_CTL_COUNT t)
    else if op = 2 then
      -- the LEN field keeps a value above 64, which completes BAD_REQ
      let b := arrivalBody a
      b.take 5 ++ [BitVec.ofNat 8 (len % 128 * 2)] ++ b.drop 6
    else leBytes 2 (s.rd RR_DCMD_LINES t) ++ leBytes 2 (s.rd RR_DCMD_DOP t) ++ leBytes 2 (s.rd RR_PW_PWIDTH t)
  s.request (.window t) 0 t op gaddr body

/-- GO: the request of the tenant's remote window; ignored while one is outstanding, with OVR (R570). -/
def execRemoteGo (t : Nat) (f : Func) (v : Nat) (s : State) : Host.Outcome State Fault Refusal :=
  .next ((s.tick t).hostWrite f 0xC3008 fun s =>
    let k := s.tn f
    let s := (s.put RR_CTL_NOTE k (bitAt v 22)).wr RR_CTL_COUNT k (bitsOf v 16 5)
    let s := if accepts RR_CTL_OP (bitsOf v 0 4) then s.wr RR_CTL_OP k (bitsOf v 0 4) else s
    if !bitAt v 23 then s
    else if s.flag RR_RES_BUSY k then s.put RR_RES_OVR k true
    else ((s.put RR_RES_OVR k false).put RR_RES_BUSY k true).windowGo k)

/-- A request without a response within RTMO µs of insertion completes TIMEOUT (R537); at one instant that acts before the response (R567). -/
def State.timeoutDue (s : State) (tag : Nat) : State :=
  match s.ring_.ctx.find? fun c => c.tag == tag with
  | some c => match c.at_ with
    | some a => if s.now ≥ a + s.rd RG_RTMO_RTMO 0 * tqPerUs then s.completeCtx tag 8 0 0 [] else s
    | none => s
  | none => s

/-- REQUEST_TIMEOUT: no response within RTMO µs of insertion (R537). -/
def execRequestTimeout (t tag : Nat) (s : State) : Host.Outcome State Fault Refusal :=
  .next ((s.tick t).timeoutDue tag)

/-- READ: a READ request at the target (R531). -/
def execCellRead (t port : Nat) (c : Cell) (s : State) : Host.Outcome State Fault Refusal :=
  let s := s.tick t
  .next (if c.op = 1 then s.takeReq port c else s)

/-- MBOX_WRITE: an MBOX_WRITE request at the target (R532). -/
def execMboxWrite (t port : Nat) (c : Cell) (s : State) : Host.Outcome State Fault Refusal :=
  let s := s.tick t
  .next (if c.op = 2 then s.takeReq port c else s)

/-- DCMD: a DCMD request at the target (R533). -/
def execDcmd (t port : Nat) (c : Cell) (s : State) : Host.Outcome State Fault Refusal :=
  let s := s.tick t
  .next (if c.op = 3 then s.takeReq port c else s)

/-! ### Responses (R537, R538) -/

/-- A response from PNODE that answers a probe within 200 µs of its insertion is a heartbeat on the ring path; a slower one counts as
missed (R607). -/
def State.probeAnswer (s : State) (c : Cell) (x : Ctx) : Option State :=
  if x.what = .probe then
    let s := { s with ring_ := { s.ring_ with ctx := s.ring_.ctx.filter fun y => y.tag != x.tag } }
    let fresh := match x.at_ with | some a => decide (s.now ≤ a + 200 * tqPerUs) | none => false
    some (if fresh && c.src == s.rd PR_CFG_PNODE 0 then s.heartbeat 2 none else s.bump PR_HBMISS_COUNT 0)
  else none

/-- A response addressed to this node completes its context, or is late (R537, R538). -/
def State.takeRsp (s : State) (c : Cell) : State :=
  let s := s.timeoutDue c.tag
  match s.ring_.ctx.find? fun x => x.tag == c.tag with
  | none => (s.bump RG_LATE_RSP_COUNT 0).evt RG_EVT_EVT 0 10
  | some x =>
    match s.probeAnswer c x with
    | some s => s
    | none =>
      let n := cellField c 19 1
      s.completeCtx c.tag c.op (cellField c 18 1) (cellField c 16 2) ((List.range n).map fun j => cellField c (32 + 3 * j) 3)

/-- A response on a lane. -/
def State.rspIn (s : State) (n : Nat) (c : Cell) : State :=
  if !s.isForward n then s.passBack n c
  else if c.dst = s.node then s.takeRsp c
  else if c.src = s.node then s
  else if c.hops + 1 ≥ 500 then s.hopLimit (ringOf n) c
  else s.forward n c

/-- RSP: a response cell. -/
def execRsp (t port : Nat) (c : Cell) (s : State) : Host.Outcome State Fault Refusal :=
  let s := s.tick t
  if c.typ ≠ 2 then .next s
  else
    let (s, ok) := s.accept port c
    .next (if ok then s.rspIn port c else s)

/-! ### Membership (R524-R528) -/

/-- The registers that show the member set follow it. -/
def State.showMembers (s : State) : State :=
  let bit := fun (p : Nat → Bool) (w : Nat) => (List.range 24).foldl (fun acc j => acc + b2n (p (w * 24 + j)) * 2 ^ j) 0
  let inA := fun n => s.reach n 0
  let inB := fun n => s.reach n 1
  let any := fun n => s.reach n 0 || s.reach n 1 || n == s.node
  let count := fun (p : Nat → Bool) => ((List.range 251).filter p).length
  let s := (List.range 11).foldl (fun (s : State) w =>
    ((s.wrA RG_MBM_MEMBER 0 w (bit any w)).wrA RG_RCHA_REACH 0 w (bit inA w)).wrA RG_RCHB_REACH 0 w (bit inB w)) s
  (((s.wr RG_MCOUNT_CNT 0 (count any)).wr RG_MCOUNT_CNT_A 0 (count inA)).wr RG_MCOUNT_CNT_B 0 (count inB)).refreshRings

/-- RING_MEMBER, and the membership epoch (R525, R572). -/
def State.memberEvent (s : State) (n why : Nat) : State :=
  let s := (s.wr RG_MEPOCH_EPOCH 0 (s.rd RG_MEPOCH_EPOCH 0 + 1)).evt RG_EVT_EVT 0 7
  s.eventLim (s.rd RG_CFG_RGOWNER 0) 0x0703 n (BitVec.ofNat 8 why :: leBytes 3 (s.rd RG_MEPOCH_EPOCH 0) ++ leBytes 1 (s.rd RG_MCOUNT_CNT 0))

/-- Outstanding requests to a node complete ABORTED with a reason; those still queued complete NO_NODE where it left (R526, R567). -/
def State.dropRequests (s : State) (n reason : Nat) : State :=
  let mine := s.ring_.ctx.filter fun c => c.dst == n
  mine.foldl (fun (s : State) (c : Ctx) =>
    let queued := c.at_.isNone
    let s := [0, 1].foldl (fun (s : State) r => s.setInsQ r 0 ((s.insQ r 0).filter fun x => !(x.typ == 1 && x.tag == c.tag))) s
    if queued && reason == 4 then s.completeCtx c.tag 7 0 0 [] else s.completeCtx c.tag 6 reason 0 []) s

/-- A node that sets DUP inserts no request (R527): those still queued complete as a new one does, with a status of no stated value (log entry
12). -/
def State.dupQueued (s : State) : State :=
  [0, 1].foldl (fun (s : State) ring =>
    let q := s.insQ ring 0
    let mine := q.filter fun c => c.typ == 1
    let s := s.setInsQ ring 0 (q.filter fun c => c.typ != 1)
    mine.foldl (fun (s : State) (c : Cell) => s.draw.completeCtx c.tag (1 + Config.dupStatus s.fresh % 10) 0 0 []) s) s

/-- A MEMBER cell of another node, or of one that has this node's number (R524-R527). -/
def State.heardMember (s : State) (ring : Nat) (c : Cell) : State :=
  let serial := cellField c 16 8
  let b := cellField c 32 1
  if c.src = s.node then
    if serial = Config.serial ∨ bitAt b 6 then s
    else if serial < Config.serial ∧ !s.flag RG_STAT_DUP 0 then
      ((s.dupQueued.put RG_STAT_DUP 0 true).evt RG_EVT_EVT 0 8).eventLim (s.rd RG_CFG_RGOWNER 0) 0x0704 s.node (leBytes 8 serial)
    else s
  else if bitAt b 6 || c.src = 0 || c.src > 250 then s
  else
    let old := s.mem c.src
    let was := old.heardA != 0 || old.heardB != 0
    let m : Member := { old with serial := serial, hash := cellField c 24 8 }
    let m := if ring = 0 then { m with heardA := s.now + 1, wrapA := bitAt b 4 } else { m with heardB := s.now + 1, wrapB := bitAt b 4 }
    let s := { s with ring_ := { s.ring_ with members := tset {} s.ring_.members c.src m } }
    let s := s.showMembers
    if !was then s.memberEvent c.src 1
    else if old.serial ≠ serial then (s.dropRequests c.src 1).memberEvent c.src 3
    else s

/-- A broadcast cell on a lane: delivered by `take`, forwarded, or removed at its source or at the hop limit (R515, R542). -/
def State.broadcastIn (s : State) (n : Nat) (c : Cell) (take : State → State) : State :=
  if !s.isForward n then s.passBack n c
  else
    let s := take s
    if c.src = s.node then s
    else if c.hops + 1 ≥ 500 then s.hopLimit (ringOf n) c
    else s.forward n c

/-- MEMBER: a MEMBER cell is received. -/
def execMember (t port : Nat) (c : Cell) (s : State) : Host.Outcome State Fault Refusal :=
  let s := s.tick t
  if c.typ ≠ 4 then .next s
  else
    let (s, ok) := s.accept port c
    .next (if ok then s.broadcastIn port c fun s => s.heardMember (ringOf port) c else s)

/-- A broadcast cell of this node on VC 1. -/
def State.broadcast (s : State) (typ : Nat) (body : List Byte) : Cell :=
  { typ := typ, vc := 1, origin := 3, dst := 255, src := s.node, tenant := 0, tag := 0, op := 0, gaddr := 0, body := padTo 80 body }

/-- The MEMBER cell of this node on a ring (R519, R553). -/
def State.memberCell (s : State) (ring : Nat) : Cell :=
  let wrapping := s.flag RL_STAT_WRAP (fwdOut ring) || s.flag RL_STAT_WRAP (fwdIn ring)
  let b := s.rd RG_STAT_RSTATE_A 0 + s.rd RG_STAT_RSTATE_B 0 * 4 + b2n wrapping * 16 + s.rd RG_STAT_STOP 0 * 32 + s.rd RG_STAT_DUP 0 * 64
  s.broadcast 4 (leBytes 8 Config.serial ++ leBytes 8 s.img.hash ++ leBytes 1 b ++ leBytes 3 (s.rd RG_FABID_FABRIC_ID 0))

/-- MEMBER_SEND: one MEMBER cell on each enabled ring (R524); none before the first image (R529). -/
def execMemberSend (t : Nat) (s : State) : Host.Outcome State Fault Refusal :=
  let s := s.tick t
  if s.noImage then .next s
  else
    let rings := [0, 1].filter fun r => s.ringOn r
    .next (rings.foldl (fun (s : State) r => (s.insertCell r (s.memberCell r)).1) s)

/-- A node is no longer heard on the rings whose last MEMBER cell is 4 ms old (R524); leaving both, it departs (R526). -/
def State.memberGone (s : State) (n : Nat) (old : Nat → Bool) : State :=
  let m := s.mem n
  let m' : Member := { m with heardA := if old m.heardA then 0 else m.heardA, heardB := if old m.heardB then 0 else m.heardB }
  let m'' : Member := if m'.heardA = 0 ∧ m'.heardB = 0 then {} else m'
  if m = m'' then s
  else
    let s := ({ s with ring_ := { s.ring_ with members := tset {} s.ring_.members n m'' } }).showMembers
    if m''.heardA = 0 ∧ m''.heardB = 0 then (s.dropRequests n 4).memberEvent n 2 else s

/-- MEMBER_TIMEOUT: a node not heard for 4 ms leaves (R524). -/
def execMemberTimeout (t node : Nat) (s : State) : Host.Outcome State Fault Refusal :=
  let s := s.tick t
  .next (s.memberGone node fun h => decide (h ≠ 0 ∧ s.now + 1 ≥ h + 4 * tqPerMs))

/-! ### Sleep rounds (R560-R562) -/

/-- The visited bitmap that a complete round shows: the member set (R562). -/
def State.memberMap (s : State) : Nat :=
  (List.range 251).foldl (fun acc n => acc + b2n (n == s.node || s.reach n 0 || s.reach n 1) * 2 ^ n) 0

/-- A round of this node ends (R562, R572). -/
def State.endSleepRound (s : State) (result refuser reason : Nat) : State :=
  let round := (s.ring_.sleep.map (·.round)).getD 0
  let s := ({ s with ring_ := { s.ring_ with sleep := none } }).put RG_STAT_SLEEPING 0 false
  let s := (((s.wr RG_SLEEP_RES_SEQ 0 (s.rd RG_SLEEP_RES_SEQ 0 + 1)).wr RG_SLEEP_RES_REFUSER 0 refuser).wr RG_SLEEP_RES_REASON 0 reason).wr
    RG_SLEEP_RES_RESULT 0 result
  (s.evt RG_EVT_EVT 0 (if result = 1 then 12 else 13)).eventLim (s.rd RG_CFG_RGOWNER 0) 0x0705 round
    [BitVec.ofNat 8 result, BitVec.ofNat 8 refuser, BitVec.ofNat 8 reason]

/-- A sleep round begins, unless one runs: RESULT 4 (R560). With neither ring CLOSED no cell is sent, and the round times out.
(DEDUCED, log entry 117.) -/
def State.beginRound (s : State) : State :=
  if s.flag RG_STAT_SLEEPING 0 then s.wr RG_SLEEP_RES_RESULT 0 4
  else
    let round := s.ring_.nextRound
    let s := { s with ring_ := { s.ring_ with sleep := some ⟨round, s.now + 10 * tqPerMs⟩, nextRound := (round + 1) % 65536 } }
    let s := s.put RG_STAT_SLEEPING 0 true
    let c := s.broadcast 5 (leBytes 2 round ++ leBytes 1 (s.rd RG_MCOUNT_CNT 0) ++ [0, 0, 0, 0, 0] ++ leBytes 3 (s.rd RG_MEPOCH_EPOCH 0))
    if s.rd RG_STAT_RSTATE_A 0 = 1 then (s.insertCell 0 c).1
    else if s.rd RG_STAT_RSTATE_B 0 = 1 then (s.insertCell 1 c).1 else s

/-- START: the ring owner begins a sleep round (R560). -/
def execSleepStart (t : Nat) (f : Func) (s : State) : Host.Outcome State Fault Refusal :=
  .next ((s.tick t).hostWrite f 0xC0100 fun s => if s.tn f ≠ s.rd RG_CFG_RGOWNER 0 then s else s.beginRound)

/-- SLEEP_ROUND_TIMEOUT: the cell has not returned within 10 ms (R562). -/
def execSleepRoundTimeout (t : Nat) (s : State) : Host.Outcome State Fault Refusal :=
  let s := s.tick t
  match s.ring_.sleep with
  | some r => .next (if s.now ≥ r.by_ then s.endSleepRound 4 0 0 else s)
  | none => .next s

end Sys2Proof.Machine
end

