-- ==== Sys2Proof/Machine/Gather.lean ====
section
/-! DEFINITION. The gather engine: starts, elements, reduction, result records (chapter 12). -/

namespace Sys2Proof.Machine

/-! ### Elements (R573, R583-R587) -/

/-- KIND, NODE, OBJECT and WORD of element `e`. -/
def GtDef.kind (d : GtDef) (e : Nat) : Nat := bitsOf (d.word (4 + 2 * e)) 21 3
def GtDef.node (d : GtDef) (e : Nat) : Nat := bitsOf (d.word (4 + 2 * e)) 13 8
def GtDef.object (d : GtDef) (e : Nat) : Nat := bitsOf (d.word (4 + 2 * e)) 0 13
def GtDef.wordNo (d : GtDef) (e : Nat) : Nat := bitsOf (d.word (5 + 2 * e)) 13 6
def GtDef.shift (d : GtDef) (e : Nat) : Nat := bitsOf (d.word (5 + 2 * e)) 0 3

/-- The class of the global address space that an element's KIND reads (R530). -/
def gtClass (kind : Nat) : Nat := if kind = 1 then 1 else if kind = 2 then 5 else 4

/-- The global address of a remote element (R585). -/
def GtDef.gaddr (d : GtDef) (e : Nat) : Nat :=
  let i := if d.kind e = 1 then d.object e * 32 + d.wordNo e else if d.kind e = 2 then d.object e else d.object e * 64 + d.wordNo e
  d.node e * 2 ^ 24 + gtClass (d.kind e) * 2 ^ 20 + i

/-- Element `e` of a run that has just taken its slot is issued: a local one is read, a remote one requested (R583-R585). -/
def State.issueElem (s : State) (g : Nat) (d : GtDef) (e : Nat) : State :=
  if d.node e = 0 ∨ d.node e = s.node then
    let cls := gtClass (d.kind e)
    if !s.domOn (objDomain cls (d.object e)) then s.elemDone g e 5 0
    else s.elemDone g e 0 (gtValue d e (s.objWord cls (d.object e) (d.wordNo e)))
  else s.request (.gather g e) 2 d.tenant 1 (d.gaddr e) (readBody 1)

/-- A start takes a run slot: SEQ advances and its elements are issued in order (R583). -/
def State.startRun (s : State) (x : GtStart) : State :=
  let seq := ((s.grp x.group).seq + 1) % 2 ^ 24
  let s := s.setGrp x.group fun g => { g with st := 2, seq := seq }
  let run : GtRun := { start := x, seq := seq, elems := List.replicate x.gdef.nel none }
  let s := { s with gt := { s.gt with runs := s.gt.runs ++ [run] } }
  (List.range x.gdef.nel).foldl (fun (s : State) e => s.issueElem x.group x.gdef e) s

/-! ### Starts (R576-R581) -/

/-- The refusal code of a start, 0 where it passes every check (R578). -/
def State.gatherCheck (s : State) (g trig : Nat) (tenant : Option Nat) : Nat :=
  match s.groupDef g with
  | none => 1
  | some d =>
    if !(match tenant with | some t => d.tenant == t | none => true) then 1
    else if !d.grant trig then 2
    else if (s.grp g).st ≠ 0 then 3
    else if s.gt.runs.length ≥ 8 ∧ s.gt.queue.length ≥ 64 then 4 else 0

/-- A start at the gather engine's input with the time it carries: the state after it and the refusal code (R578-R580). `tenant` is the
tenant that a doorbell or rule starts it for. -/
def State.gatherStart (s : State) (g trig : Nat) (tenant : Option Nat) (late : Bool) (ns frac epoch : Nat) : State × Nat :=
  let code := s.gatherCheck g trig tenant
  match s.groupDef g with
  | some d =>
    if code = 0 then
      let s := s.bump GE_STARTS_COUNT 0
      let s := if late then s.bump GE_LATE_COUNT 0 else s
      let x : GtStart := { group := g, gdef := d, trig := trig, late := late, ns := ns, frac := frac, epoch := epoch }
      if s.gt.runs.length < 8 then (s.startRun x, 0)
      else (({ s with gt := { s.gt with queue := s.gt.queue ++ [x] } }).setGrp g fun y => { y with st := 1 }, 0)
    else
      let s := s.bump GE_REFUSED_COUNT 0
      if trig = 1 ∨ trig = 3 then
        ((s.bump GE_OVERRUN_COUNT 0).eventLim d.tenant 0x0801 g [BitVec.ofNat 8 code, BitVec.ofNat 8 trig], code)
      else (s, code)
  | none => (s.bump GE_REFUSED_COUNT 0, code)

/-- Epoch bits 7:0. -/
def State.epoch8 (s : State) : Nat := s.rd TU_EPOCH_EPOCH 0 % 256

/-- The first schedule time of a group after `lo`, where it is not after `hi` (ns) (R576). -/
def schedIn (d : GtDef) (lo hi : Nat) : Option Nat :=
  let per := d.period * 1000
  let ph := d.phase * 1000
  let x := if lo < ph then ph else ph + ((lo - ph) / per + 1) * per
  if per = 0 ∨ hi < x then none else some x

/-- A forward step of fabric time makes one LATE start of each group whose schedule times it passed; after any step the schedule is
looked at from the new time on (R581). -/
def State.stepSchedules (s : State) (before : Nat) : State :=
  let after := s.ns
  s.img.groups.foldl (fun (s : State) (x : Nat × GtDef) =>
    let s := { s with gt := { s.gt with schedNs := tset 0 s.gt.schedNs x.1 after } }
    if before < after && x.2.valid && x.2.grant 1 && (schedIn x.2 before after).isSome then
      (s.gatherStart x.1 1 none true after s.frac s.epoch8).1
    else s) s

/-! ### Reduction (R588-R591) -/

/-- The value of an element as an integer (R574). -/
def GtDef.asInt (d : GtDef) (v : Nat) : Int := if d.signed then fromTwos 24 v else (v : Int)

/-- One included value is folded into the accumulator: the accumulator after it, and whether the step saturated (R589, R590). -/
def GtRun.fold (r : GtRun) (e v : Nat) : Int × Bool :=
  let d := r.start.gdef
  let x := d.asInt v
  match d.op with
  | 1 =>
    if r.sat then (r.acc, false)
    else
      let lo : Int := if d.signed then -(2 ^ 31) else 0
      let hi : Int := if d.signed then 2 ^ 31 - 1 else 2 ^ 32 - 1
      let y := r.acc + x * 2 ^ d.shift e
      if y < lo then (lo, true) else if y > hi then (hi, true) else (y, false)
  | 2 => (if r.incl = 0 then x else min r.acc x, false)
  | 3 => (if r.incl = 0 then x else max r.acc x, false)
  | 4 => (if r.incl = 0 then (v : Int) else ((r.acc.toNat ||| v : Nat) : Int), false)
  | 5 => (if r.incl = 0 then (v : Int) else ((r.acc.toNat &&& v : Nat) : Int), false)
  | _ => (0, false)

/-- RESULT of a finished run (R589). -/
def GtRun.result (r : GtRun) : Nat := if r.incl = 0 then 0 else toTwos 32 r.acc

/-- CSTAT (R591). -/
def GtRun.cstat (r : GtRun) : Nat := if r.incl = r.start.gdef.nel then 0 else if r.incl > 0 then 1 else 2

/-- Status and value of element `e`: UNUSED beyond NEL (R587). -/
def GtRun.elem (r : GtRun) (e : Nat) : Nat × Nat :=
  match r.elems[e]? with
  | some (some x) => x
  | _ => (15, 0)

/-- The result record (R592). -/
def State.gatherRec (s : State) (r : GtRun) : RxRec :=
  let x := r.start
  let values := (List.range 16).flatMap fun e => leBytes 3 (if (r.elem e).1 = 0 then (r.elem e).2 else 0)
  let estat := (List.range 8).map fun k => BitVec.ofNat 8 ((r.elem (2 * k)).1 + 16 * (r.elem (2 * k + 1)).1)
  { head := leBytes 2 x.group ++ [BitVec.ofNat 8 r.cstat, BitVec.ofNat 8 (x.trig + b2n r.sat * 4 + b2n x.late * 8)] ++ leBytes 2 r.fmask
    port := 0xF0, capture := false, serial := false, ns := x.ns, frac := x.frac, epoch := x.epoch, seq := r.seq
    tail := [BitVec.ofNat 8 r.incl, BitVec.ofNat 8 x.gdef.nel] ++ leBytes 4 (satTo 32 (s.ns - x.ns))
    data := values ++ leBytes 4 r.result ++ estat ++ [0, 0, 0, 0] }

/-- The oldest queued start takes a freed slot (R579). -/
def State.nextRun (s : State) : State :=
  match s.gt.queue with
  | x :: rest => if s.gt.runs.length < 8 then ({ s with gt := { s.gt with queue := rest } }).startRun x else s
  | [] => s

/-- The run of group `g` ends: its record goes to RESRING's home link, its slot is freed, its chained start is made (R592-R594). -/
def State.endRun (s : State) (r : GtRun) : State :=
  let g := r.start.group
  let d := r.start.gdef
  let s := s.bump GE_RUNS_COUNT 0
  let s := if r.cstat ≠ 0 then s.bump GE_PARTIAL_COUNT 0 else s
  let s := { s with gt := { s.gt with runs := s.gt.runs.filter fun x => x.start.group != g } }
  let last : LastRun := ⟨r.cstat, r.start.trig, r.sat, r.start.late, r.incl, r.fmask, r.result, r.seq⟩
  let ring := d.tenant * 256 + d.resring
  let s := if r.start.dead then s.setGrp g fun x => { x with st := 0 }
    else
      let rec_ := s.gatherRec r
      (s.setGrp g fun x => { x with st := 3, await := some last }).post (s.homeOf ring)
        (.rq { ring := ring, lease := none, slot := none, gather := some g, rec_ := rec_ })
  let s := s.nextRun
  if d.nexten then (s.gatherStart d.next 3 none false s.ns s.frac s.epoch8).1 else s

/-- SATSTK is set; its first setting after a clear queues GATHER_SAT (R590). -/
def State.noteSat (s : State) (r : GtRun) : State :=
  let g := r.start.group
  let s := s.bump GE_SAT_COUNT 0
  if (s.grp g).satStk then s
  else ((s.setGrp g fun x => { x with satStk := true }).note (GT_GSTAT_SATSTK.key g 0) .bits 1).eventLim r.start.gdef.tenant 0x0802 g (leBytes 3 r.seq)

/-- The next element of a run is reduced (R588): a faulted one is skipped. -/
def State.reduce (s : State) (r : GtRun) : State :=
  let e := r.done
  match r.elems[e]? with
  | some (some (st, v)) =>
    let (acc, sat) := if st = 0 then r.fold e v else (r.acc, false)
    let r' : GtRun := { r with
      done := e + 1, acc := acc, sat := r.sat || sat
      incl := if st = 0 then r.incl + 1 else r.incl
      fmask := if st = 0 then r.fmask else setBitAt r.fmask e }
    let s := if sat then s.noteSat r' else s
    let s := { s with gt := { s.gt with runs := s.gt.runs.map fun x => if x.start.group == r.start.group then r' else x } }
    if r'.done ≥ r'.start.gdef.nel then s.endRun r' else s
  | _ => s

/-! ### Commands -/

/-- GT_START: a start by doorbell (R576, R580). -/
def execGtStart (t : Nat) (f : Func) (g : Nat) (s : State) : Host.Outcome State Fault Refusal :=
  .next ((s.tick t).hostWrite f 0x91000 fun s =>
    let k := s.tn f
    let (s, code) := s.gatherStart (g % 1024) 0 (some k) false s.ns s.frac s.epoch8
    (s.wr GT_SRES_SEQ k (s.rd GT_SRES_SEQ k + 1)).wr GT_SRES_RESULT k code)

/-- GATHER_SCHEDULE: fabric time has reached a schedule time of the group (R576). -/
def execGatherSchedule (t g : Nat) (s : State) : Host.Outcome State Fault Refusal :=
  let s := s.tick t
  match s.groupDef g with
  | some d =>
    if !d.grant 1 then .next s
    else match schedIn d (tget 0 s.gt.schedNs g) s.ns with
      | some x =>
        let s := { s with gt := { s.gt with schedNs := tset 0 s.gt.schedNs g x } }
        .next (s.gatherStart g 1 none false x 0 s.epoch8).1
      | none => .next s
  | none => .next s

/-- GATHER_ELEMENT_REDUCE: the next element of the group's run, its status in hand (R588). -/
def execGatherElementReduce (t g : Nat) (s : State) : Host.Outcome State Fault Refusal :=
  let s := s.tick t
  match s.gt.runs.find? fun r => r.start.group == g with
  | some r => .next (s.reduce r)
  | none => .next s

end Sys2Proof.Machine
end

