-- ==== Sys2Proof/Machine/Reflex.lean ====
section
/-! DEFINITION. The reflex unit: matching, firing, actions and latches (chapter 08). -/

namespace Sys2Proof.Machine

/-- Word `k` of a rule (R395). -/
def ruleW (ws : List Nat) (k : Nat) : Nat := ws[k]?.getD 0

/-- The data length L of a received frame (R181). -/
def hdrLen (h : Header) : Nat := dataLen h.fdf h.rtr h.dlc

/-- The bits a rule's header part compares: identifier, port position, flags, DLC, in the layout of W1 and W0 (R395, R397). -/
def matchBits (p : Nat) (h : Header) : Nat :=
  (if h.ide then h.id % 2 ^ 29 else h.id % 2 ^ 11) + p % 32 * 2 ^ 29
    + (b2n h.ide + b2n h.rtr * 2 + b2n h.fdf * 4 + b2n h.brs * 8) * 2 ^ 34 + h.dlc % 16 * 2 ^ 38

/-- Value and mask of a rule in the same layout. -/
def ruleBits (lo hi : Nat) : Nat := lo % 2 ^ 24 + hi % 2 ^ 18 * 2 ^ 24

/-- The header part of a rule matches (R397). -/
def headerMatch (ws : List Nat) (p : Nat) (h : Header) : Bool :=
  let m := ruleBits (ruleW ws 2) (ruleW ws 3)
  bitAt (ruleW ws 1) 19 && (ruleBits (ruleW ws 0) (ruleW ws 1) &&& m) == (matchBits p h &&& m)

/-- The data part of a rule holds (R398). -/
def dataMatch (ws : List Nat) (h : Header) (data : List Byte) : Bool :=
  let w6 := ruleW ws 6
  let off := bitsOf w6 16 6
  let val := ruleW ws 4 % 2 ^ 24 + bitsOf (ruleW ws 5) 0 8 * 2 ^ 24
  let mask := bitsOf (ruleW ws 5) 8 16 + bitsOf w6 0 16 * 2 ^ 16
  !bitAt w6 22 || (val &&& mask) == (leNat (((data.take (hdrLen h)).drop off).take 4) &&& mask)

/-- The steering and rule bank `b` of the two (R353, R420). -/
def State.rxBank (s : State) (b : Nat) : SteerBank := if b = 0 then s.rx.bank0 else s.rx.bank1

/-- The rules that a frame may fire: at most 4 of its port's half, in ascending number (R394, R397, R399). -/
def State.rfxCandidates (s : State) (x : RxFrame) : List (Nat × List Nat) :=
  let ok := fun (ws : List Nat) => match x.sender with
    | .foreign => true
    | .tenant _ => bitAt (ruleW ws 1) 18
    | .rule _ => false
    | .device _ => false
  ((s.rxBank x.bank).rules.filter fun r =>
    r.1 / 2048 == x.port / 32 && headerMatch r.2 x.port x.hdr && ok r.2).take 4

/-! ### Latches (R414, R415) -/

/-- A latch. -/
def State.latchSt (s : State) (k : Nat) : LatchSt := tget {} s.ru.latches k

/-- The stores of a latch that are at least 1 µs old are settled: they are its base value. -/
def LatchSt.settle (l : LatchSt) (now : Nat) : LatchSt :=
  { base := (l.recent.filter fun x => decide (x.1 + tqPerUs ≤ now)).foldl (fun v x => storeOver v x.2.2) l.base
    recent := l.recent.filter fun x => !decide (x.1 + tqPerUs ≤ now) }

/-- A STORE action of a frame of assembler `turn` (R414); stores of one instant stand in frame-assembler order (R422). -/
def State.storeLatch (s : State) (k turn : Nat) (bytes : List Byte) : State :=
  let l := (s.latchSt k).settle s.now
  let before := fun (x : Nat × Nat × List Byte) => x.1 != s.now || decide (x.2.1 ≤ turn)
  let l' : LatchSt := { l with recent := l.recent.takeWhile before ++ (s.now, turn, bytes) :: l.recent.dropWhile before }
  { s with ru := { s.ru with latches := tset {} s.ru.latches k l' } }

/-- The value a reply reads: where a store's trigger ended less than 1 µs ago, the old or the new value, which the spec leaves open. -/
def State.readLatch (s : State) (k : Nat) : List Byte :=
  let l := (s.latchSt k).settle s.now
  let all := (List.range (l.recent.length + 1)).map fun n => (l.recent.take n).foldl (fun v x => storeOver v x.2.2) l.base
  all[Config.latchPick s.fresh % all.length]?.getD l.base

/-! ### The reply (R396, R404) -/

/-- The bytes a substitution copies (R396). -/
def State.subBytes (s : State) (sub half count : Nat) (x : RxFrame) : List Byte :=
  let arg := bitsOf sub 0 8
  let n := bitsOf sub 15 3 + 1
  let src := match bitsOf sub 8 3 with
    | 1 => x.data.take (hdrLen x.hdr)
    | 2 => s.readLatch (half * 256 + arg)
    | 3 => leBytes 8 x.ns
    | 4 => leBytes 3 count
    | _ => []
  padTo n (if bitsOf sub 8 3 = 2 then src else src.drop arg)

/-- A substitution written over the reply's bytes. -/
def State.substitute (s : State) (buf : List Byte) (sub half count : Nat) (x : RxFrame) : List Byte :=
  if bitsOf sub 8 3 = 0 ∨ bitsOf sub 8 3 > 4 then buf
  else
    let dst := bitsOf sub 11 4
    let b := s.subBytes sub half count x
    (buf.take dst ++ b ++ buf.drop (dst + b.length)).take 16

/-- The reply of a firing: TMPL, then SUB0, then SUB1 (R404). -/
def State.replyFrame (s : State) (ws : List Nat) (half count : Nat) (x : RxFrame) : Frame :=
  let w10 := ruleW ws 10
  let tmpl := ((List.range 6).flatMap fun j => leBytes 3 (ruleW ws (16 + j))).take 16
  let buf := s.substitute (s.substitute tmpl (ruleW ws 22) half count x) (ruleW ws 23) half count x
  let rtr := bitAt w10 12
  let fdf := bitAt w10 13
  let dlc := bitsOf w10 15 4
  let ide := bitAt w10 11
  let id := ruleW ws 9 % 2 ^ 24 + bitsOf w10 0 5 * 2 ^ 24
  { id := if ide then id else id % 2 ^ 11, ide := ide, rtr := rtr, fdf := fdf, brs := bitAt w10 14, dlc := dlc
    data := padTo (dataLen fdf rtr dlc) buf }

/-! ### Actions (R403-R414) -/

/-- REPLY (R404, R408). -/
def State.actReply (s : State) (r : Nat) (ws : List Nat) (count : Nat) (x : RxFrame) : State :=
  let half := r / 2048
  let p := bitsOf (ruleW ws 10) 5 6
  let fr := s.replyFrame ws half count x
  let (s, why) := s.draw.submitReply p r fr
  if why = 0 then s
  else (s.addA RU_RPL_REFUSED_COUNT 0 half 1).eventLim (ruleW ws 7 % 256) 0x0401 r
    ([BitVec.ofNat 8 why, BitVec.ofNat 8 p] ++ leBytes 3 count)

/-- DOUT (R409). -/
def State.actDout (s : State) (r : Nat) (ws : List Nat) (x : RxFrame) : State :=
  let w := ruleW ws 11
  let b := bitsOf w 0 4
  let was := s.outKey b
  (s.bankCmd b ⟨bitsOf w 4 2, bitsOf w 6 16, ruleW ws 12 % 65536, .rule r (ruleW ws 7 % 256), 0, 1 + x.port / 8⟩).noteOut b was

/-- RMBX (R412). -/
def State.actRmbx (s : State) (r : Nat) (ws : List Nat) (x : RxFrame) : State :=
  let t := ruleW ws 7 % 256
  let w := ruleW ws 14
  let h := x.hdr
  let flags := b2n h.ide + b2n h.rtr * 2 + b2n h.fdf * 4 + b2n h.brs * 8 + b2n h.esi * 16
  let a : Arrival := { id := h.id, port := 0xFF, dlc := h.dlc, flags := flags, epoch := x.epoch % 256, ns := x.ns, frac := x.frac
                       data := x.data.take (hdrLen h) }
  s.request (.reflex t r) 1 t 2 (bitsOf w 0 8 * 2 ^ 24 + 2 ^ 20 + bitsOf w 8 13 * 32) (arrivalBody a)

/-- GATHER (R413). -/
def State.actGather (s : State) (r : Nat) (ws : List Nat) : State :=
  let t := ruleW ws 7 % 256
  let g := bitsOf (ruleW ws 13) 10 10
  let (s, code) := s.gatherStart g 2 (some t) false s.ns s.frac s.epoch8
  if code = 0 then s
  else (s.addA RU_GTH_REFUSED_COUNT 0 (r / 2048) 1).eventLim t 0x0404 r (BitVec.ofNat 8 code :: leBytes 2 g)

/-- STORE (R414). -/
def State.actStore (s : State) (r : Nat) (ws : List Nat) (x : RxFrame) : State :=
  let w := ruleW ws 15
  s.storeLatch (r / 2048 * 256 + bitsOf w 0 8) (x.port / 8) (padTo (bitsOf w 14 3 + 1) ((x.data.take (hdrLen x.hdr)).drop (bitsOf w 8 6)))

/-- The actions of a firing that ACT enables, in the order in which they take effect (R403, R416, R417); `all` is false in a shadow firing,
which dispatches only STORE and IRQ (R612). -/
def State.dispatch (s : State) (r : Nat) (ws : List Nat) (count : Nat) (all : Bool) (x : RxFrame) : State :=
  let act := ruleW ws 8
  let s := if bitAt act 5 then s.actStore r ws x else s
  let s := if bitAt act 4 && all then s.actGather r ws else s
  let s := if bitAt act 2 then s.setPend (ruleW ws 13 % 1024) else s
  let s := if bitAt act 1 && all then s.actDout r ws x else s
  let s := if bitAt act 3 && all then s.actRmbx r ws x else s
  if bitAt act 0 && all then s.actReply r ws count x else s

/-- The deciding candidate of a frame fires, or its MINGAP suppresses it (R400-R402); on a holding unit it may make a shadow firing (R612).
(DEDUCED, log entry 41.) -/
def State.fireRule (s : State) (r : Nat) (ws : List Nat) (x : RxFrame) : State :=
  let half := r / 2048
  let last := tget 0 s.ru.fired r
  let gap := bitsOf (ruleW ws 8) 6 16 * tqPerUs
  if last ≠ 0 ∧ s.now + 1 < last + gap then s.addA RU_SUPPRESS_COUNT 0 half 1
  else
    let count := (s.rdA RU_FCNT_COUNT 0 r + 1) % 2 ^ 24
    let s := s.wrA RU_FCNT_COUNT 0 r count
    let s := { s with ru := { s.ru with fired := tset 0 s.ru.fired r (s.now + 1) } }
    if s.holding && ruleW ws 8 % 32 &&& 0x1B != 0 then
      (s.bump PR_SHADOW_COUNT 0).dispatch r ws count false x
    else
      let s := ((s.addA RU_FIRE_COUNT 0 half 1).wrA RU_LAST_RULE 0 half (r % 4096)).wrA RU_LAST_PORT 0 half x.port
      s.dispatch r ws count true x

/-- A committed frame reaches the reflex unit (R352, R397-R400); a half without power decides nothing. -/
def State.reflexFrame (s : State) (x : RxFrame) : State :=
  let half := x.port / 32
  if !s.domOn (132 + half) then s
  else
    let cs := s.rfxCandidates x
    match cs.find? fun c => dataMatch c.2 x.hdr x.data with
    | some c => s.fireRule c.1 c.2 x
    | none => if cs.isEmpty then s else s.addA RU_NOFIRE_COUNT 0 half 1

end Sys2Proof.Machine
end

