-- ==== Sys2Proof/Machine/Receive.lean ====
section
/-! DEFINITION. The receive path: header events, steering, capture, commit, record writes, the frame store's scrubber (chapter 07). -/

namespace Sys2Proof.Machine

/-! ### Steering (R349-R352) -/

/-- A ternary entry matches (R350). -/
def Ternary.hits (e : Ternary) (id q : Nat) : Bool :=
  (id &&& e.maskId) == (e.valId &&& e.maskId) && (q &&& e.maskPort) == (e.valPort &&& e.maskPort)

/-- The entry with the lowest index (R350). -/
def lowest : List Ternary → Option Ternary
  | [] => none
  | e :: es => match lowest es with
    | none => some e
    | some x => if e.index ≤ x.index then some e else some x

/-- The steering result of a frame under a bank (R349, R350). -/
def SteerBank.lookup (b : SteerBank) (p : Nat) (h : Header) : Steer :=
  if h.ide then
    match lowest ((tget [] b.ternary (p / 8)).filter fun e => e.hits (h.id % 2 ^ 29) (p % 8)) with
    | some e => e.steer
    | none => {}
  else tget {} b.base (p * 2048 + h.id % 2048)

/-- The kind of a received frame (R86). -/
def hdrKind (h : Header) : Nat := frameKind h.rtr h.fdf h.brs

/-- The flags of a received frame as a mailbox arrival and a record hold them: IDE, RTR, FDF, BRS, and ESI of an FD frame (R373). -/
def hdrFlags (h : Header) : Nat :=
  b2n h.ide + b2n h.rtr * 2 + b2n h.fdf * 4 + b2n h.brs * 8 + b2n (h.esi && h.fdf) * 16

/-- The destinations of a set with VALID 1, in ascending number, at most 16 (R351). -/
def DestSet.listed (x : DestSet) : List Dest := (List.range 16).filterMap fun n => x.dests.find? fun d => d.num == n

/-- The destinations of a frame, in ascending number (R352, R356). -/
def destsOf (set : DestSet) (x : RxFrame) : List Dest :=
  (set.listed.filter fun d => bitAt d.kinds (hdrKind x.hdr) &&
    !(match x.sender with | .tenant t => t == d.tenant | _ => false)).take 8

/-- A lease's QUOTA is used up (R358, R359). -/
def State.quotaFull (s : State) (l : Nat) : Bool :=
  match s.img.leases[l]? with
  | some x => decide ((s.lrt l).used ≥ x.quota)
  | none => true

/-! ### Deliveries (R357-R365, R371) -/

/-- The record of a frame (R198, R372, R373). -/
def recOf (x : RxFrame) (capture : Bool) (errTyp : Nat) (data : List Byte) : RxRec :=
  { head := leBytes 4 (x.hdr.id % 2 ^ 29) ++ [BitVec.ofNat 8 (x.hdr.dlc % 16), BitVec.ofNat 8 (hdrFlags x.hdr)]
    port := x.port, capture := capture, serial := false, ns := x.ns, frac := x.frac, epoch := x.epoch % 256
    seq := x.seq % 2 ^ 24 + errTyp * 2 ^ 24, data := data }

/-- Why a delivery is dropped at its steering decision: 1, 2, 3 or 8 of R359, 0 where it is not. Where several hold, the lowest number counts; a
destination whose lease a new image discarded charges none (R763). (DESIGN CHOICE, log entry 107.) -/
def State.steerDrop (s : State) (d : Deliv) (capFull : Bool) : Nat :=
  if !s.active (d.ring / 256) (s.homeOf d.ring) then 1
  else if !s.armedAs d.ring 2 then 2
  else match d.lease with
    | some l => if s.quotaFull l then 3 else 0
    | none => if capFull && d.rec_.capture then 8 else 0

/-- A delivery charges its lease, or takes its place in the capture reserve (R358, R364, R483). -/
def State.chargeDeliv (s : State) (d : Deliv) : State :=
  let s := match d.lease with
    | some l => s.setLrt l fun r => { r with used := r.used + 1 }
    | none => s
  match d.spSlot with
  | some n => { s with sp := tupd {} s.sp n fun x =>
      if d.rec_.capture then { x with capHeld := x.capHeld + 1 } else { x with recHeld := x.recHeld + 1 } }
  | none => if d.rec_.capture then { s with rx := { s.rx with capHeld := tupd 0 s.rx.capHeld d.rec_.port (· + 1) } } else s

/-- The deliveries of a frame are decided in order: those that pass are charged and collected (R358, R359). -/
def State.steerAll (s : State) (ds : List Deliv) (capFull : State → Bool) : State × List Deliv :=
  ds.foldl (fun (acc : State × List Deliv) (d : Deliv) =>
    let why := acc.1.steerDrop d (capFull acc.1)
    if why = 0 then (acc.1.chargeDeliv d, acc.2 ++ [d]) else (acc.1.reportDrop d why, acc.2)) (s, [])

/-- Deliveries reach the delivery engine of the home link of their ring (R371). -/
def State.toEngines (s : State) (slot : Option Nat) (ds : List Deliv) : State :=
  [0, 1].foldl (fun (s : State) link =>
    let mine := ds.filter fun d => s.homeOf d.ring == link
    if mine.isEmpty then s
    else { s with rx := { s.rx with deq := tupd [] s.rx.deq link (· ++ [(⟨slot, mine⟩ : DelFrame)]) } }) s

/-- The frame keeps its slot for its deliveries, or returns it (R366). -/
def State.settleSlot (s : State) (slot : Option Nat) (ds : List Deliv) : State :=
  match slot with
  | some k => if ds.isEmpty then s.freeSlot k else s.setSlot k fun _ => { holders := ds.length, transit := false }
  | none => s

/-- The deliveries of a frame, with their slot. -/
def State.deliver (s : State) (slot : Option Nat) (ds : List Deliv) (capFull : State → Bool) : State :=
  let (s, ok) := s.steerAll (ds.map fun d => { d with slot := slot }) capFull
  (s.settleSlot slot ok).toEngines slot ok

/-- The capture reserve of an FB port is full (R364). -/
def State.capFull (s : State) (p : Nat) : Bool := decide (tget 0 s.rx.capHeld p ≥ 64)

/-- The capture record of a frame, where the port captures it (R362-R365): `ds` are its deliveries through leases. (DESIGN CHOICE, log entry 43.) -/
def State.captureOf (s : State) (p : Nat) (rec_ : RxRec) (ds : List Deliv) : List Deliv :=
  let r := s.fbOwner p * 256 + s.rd FB_CAPRQ_RING p
  if ds.any fun d => d.ring == r then [] else [{ ring := r, lease := none, slot := none, rec_ := rec_ }]

/-- A capture record without a ring is dropped: FB_CAPRQ has VALID 0 (R364). -/
def State.noCapRing (s : State) (p : Nat) : State := s.addA CL_RX_CAPDROP_COUNT (p / 16) (p % 16) 1

/-- A counter of a port in its lane's page 1 (R392). -/
def State.clCount (s : State) (f : Fld) (p : Nat) : State := s.addA f (p / 16) (p % 16) 1

/-- The arrival that a frame makes at a mailbox (R376, R378). -/
def frameArrival (x : RxFrame) : Arrival :=
  { id := x.hdr.id % 2 ^ 29, port := x.port, dlc := x.hdr.dlc % 16, flags := hdrFlags x.hdr, epoch := x.epoch % 256
    ns := x.ns, frac := x.frac, data := padTo (hdrLen x.hdr) x.data }

/-- The lease that a destination of a bank charges: an index of the tenant's lease view under that bank's image, as the active image numbers it
(R353, R763). -/
def State.destLease (s : State) (bank : Nat) (d : Dest) : Option Nat :=
  if bank = s.rx.newBank then s.leaseAt d.tenant d.lease
  else
    let mine := s.rx.oldLeases.zipIdx.filter fun x => x.1.tenant == d.tenant
    (mine[d.lease]?).bind fun x => leaseMap s.rx.oldLeases s.img.leases x.2

/-- A valid frame is committed: steered, captured, fed to its mailbox and, unless it was held through a gap, handed to the reflex unit
(R352, R362, R376, R761). -/
def State.commitFrame (s : State) (x : RxFrame) (slot : Option Nat) (reflex : Bool) : State :=
  let p := x.port
  let own := x.sender != .foreign
  let st := (s.rxBank x.bank).lookup p x.hdr
  let set := (s.rxBank x.bank).set (p / 16) st.dset
  let data := padTo (hdrLen x.hdr) x.data
  let ds : List Deliv := (destsOf set x).map fun d =>
    { ring := d.tenant * 256 + d.ring, lease := s.destLease x.bank d, slot := none, rec_ := recOf x false 0 data }
  let wants := bitAt x.cap 0 && (!own || bitAt x.cap 1)
  let named := s.flag FB_CAPRQ_VALID p
  let cap := if wants && named then s.captureOf p (recOf x true 0 data) ds else []
  let s := if set.xcount > 0 then s.clCount CL_RX_FANOUT_COUNT p else s
  let s := if ds.isEmpty && st.mbx.isNone && !wants then s.clCount CL_RX_NODEST_COUNT p else s
  let s := match st.mbx with
    | some m => (s.mailArrive m (frameArrival x)).clCount CL_RX_MBX_COUNT p
    | none => s
  let s := if wants && !named then s.noCapRing p else s
  let s := s.deliver slot (ds ++ cap) fun s => s.capFull p
  if reflex then s.reflexFrame x else s

/-- The capture record of a failed frame (R363): `x` holds what was received, `typ` the TYPE of the error. -/
def State.captureFailed (s : State) (x : RxFrame) (typ : Nat) : State :=
  let p := x.port
  let own := x.sender != .foreign
  if bitAt x.cap 0 && bitAt x.cap 2 && (!own || bitAt x.cap 1) then
    if !s.flag FB_CAPRQ_VALID p then s.noCapRing p
    else
      let (s, slot) := s.takeSlot { holders := 1 }
      s.deliver slot (s.captureOf p (recOf x true typ x.data) []) fun s => s.capFull p
  else s

/-! ### Commands -/

/-- RECORD_WRITE: the delivery engine of a link serves its oldest frame (R371, R374): its records are issued, held or dropped, in order. -/
def execRecordWrite (t link : Nat) (s : State) : Host.Outcome State Fault Refusal :=
  let s := s.tick t
  if !s.domOn (134 + link) then .next s
  else match tget [] s.rx.deq link with
    | [] => .next s
    | f :: rest =>
      let (s, left) := f.delivs.foldl (fun (acc : State × List Deliv) (d : Deliv) =>
        if acc.2.isEmpty && acc.1.canPost link then (acc.1.issueRq d, []) else (acc.1, acc.2 ++ [d])) (s, [])
      let q := if left.isEmpty then rest else { f with delivs := left } :: rest
      .next { s with rx := { s.rx with deq := tset [] s.rx.deq link q } }

/-- Every pending delivery that `sel` picks is dropped for a reason: at the engines, waiting for credit, and set aside under HOLD
(R359, R370). -/
def State.purge (s : State) (sel : Deliv → Bool) (reason : Nat) : State :=
  let isRq := fun (p : Post) => match p with | .rq d => sel d | _ => false
  let ofPost := fun (p : Post) => match p with | .rq d => some d | _ => none
  let s := [0, 1].foldl (fun (s : State) link =>
    let q := tget [] s.rx.deq link
    let gone := q.flatMap fun f => f.delivs.filter sel
    let kept := (q.map fun f => { f with delivs := f.delivs.filter fun d => !sel d }).filter fun f => !f.delivs.isEmpty
    let s := { s with rx := { s.rx with deq := tset [] s.rx.deq link kept } }
    let gone := gone ++ ((s.link link).waiting.filter isRq).filterMap ofPost
    let s := s.setLink link fun l => { l with waiting := l.waiting.filter fun p => !isRq p }
    gone.foldl (fun (s : State) (d : Deliv) => s.dropDeliv d reason) s) s
  (s.host.rings.map (·.1)).foldl (fun (s : State) r =>
    let gone := ((s.ring r).held.filter isRq).filterMap ofPost
    if gone.isEmpty then s
    else
      let s := s.setRing r fun g => { g with held := g.held.filter fun p => !isRq p }
      let s := (s.wr HP_HELD_RECORDS (s.homeOf r) (s.rd HP_HELD_RECORDS (s.homeOf r) - gone.length)).wr RC_OUTST_COUNT r (s.ring r).held.length
      gone.foldl (fun (s : State) (d : Deliv) => s.dropDeliv d reason) s) s

/-- FRAME_STORE_SCRUB: the scrubber, or a slot read, finds an error in a slot: corrected, or every pending record of the frame is dropped
and the frame-store source of the fault collector has an event (R370, R670). -/
def execFrameStoreScrub (t frame : Nat) (bad : Bool) (s : State) : Host.Outcome State Fault Refusal :=
  let s := s.tick t
  let b := s.slotBank frame
  if frame ≥ 32768 || !s.domOn (108 + b) then .next s
  else if !bad then .next (s.bump FS_ECC_CORR_COUNT b)
  else
    let s := (s.bump FS_ECC_UNC_COUNT b).purge (fun d => d.slot == some frame) 7
    .next (s.faultAssert (128 + b) frame)

end Sys2Proof.Machine
end

