-- ==== Sys2Proof/Machine/Serial.lean ====
section
/-! DEFINITION. Serial ports: characters, records, messages, port states (chapter 10). -/

namespace Sys2Proof.Machine

/-- Serial port `n`. -/
def State.spt (s : State) (n : Nat) : SpSt := tget {} s.sp n
/-- Changing it. -/
def State.setSpt (s : State) (n : Nat) (f : SpSt → SpSt) : State := { s with sp := tupd {} s.sp n f }

/-- SP port states (R494). -/
def spAbsent : Nat := 0
def spDisabled : Nat := 1
def spDraining : Nat := 2
def spEnabled : Nat := 3

/-- The state of a serial port. -/
def State.spState (s : State) (n : Nat) : Nat := s.rd SP_STAT_STATE n

/-- `k` bit times of a port in tq (R474). -/
def State.spBits (s : State) (n k : Nat) : Nat := k * s.rd SP_BITLEN_BITLEN n / 8

/-- Bits of a character up to its first stop bit (R473, R475), and with every stop bit. -/
def State.charBits (s : State) (n : Nat) : Nat :=
  1 + (7 + s.rd SP_FRAME_DBITS n) + s.rd SP_CFG_ADDRM n + (if s.rd SP_FRAME_PARITY n = 0 then 0 else 1) + 1
def State.sendBits (s : State) (n : Nat) : Nat := s.charBits n + s.rd SP_FRAME_STOP2 n

/-- An event bit of a serial port. -/
def State.spEvt (s : State) (n k : Nat) : State := s.evt SP_EVT_EVT n k

/-- STATE takes a value; the transceiver is on while DRAINING or ENABLED and powered (R494, R703). -/
def State.setSpState (s : State) (n st : Nat) : State :=
  (s.wr SP_STAT_STATE n st).put SP_STAT_XCVR n (decide (st ≥ spDraining) && s.domOn (64 + n))

/-! ### Receive records (R480-R486) -/

/-- The receive leases of a serial port, with their index. -/
def State.spRxLeases (s : State) (n : Nat) : List (Lease × Nat) :=
  (s.img.leases.zipIdx).filter fun x => !x.1.tx && x.1.fmt == 2 && x.1.port == 64 + n

/-- The tenants that hold receive leases on a serial port, the owner first, then in ascending number (R355, R482). -/
def State.spTenants (s : State) (n : Nat) : List Nat :=
  let ts := (s.spRxLeases n).map (·.1.tenant)
  let rest := (List.range 256).filter fun t => ts.contains t && t != s.spOwner n
  if ts.contains (s.spOwner n) then s.spOwner n :: rest else rest

/-- The lease that a record charges for a tenant: the lowest-indexed one that covers it (R482). -/
def State.spLease (s : State) (n tenant : Nat) (addr : Option Nat) : Option Nat :=
  ((s.spRxLeases n).find? fun x => x.1.tenant == tenant &&
    (if s.flag SP_CFG_ADDRM n then (match addr with | some a => decide (x.1.lo ≤ a ∧ a ≤ x.1.hi) | none => false) else true)).map (·.2)

/-- A closed record is steered to its leases and to capture (R482-R486). -/
def State.spSteer (s : State) (n : Nat) (addr : Option Nat) (r : RxRec) : State :=
  let all := s.spTenants n
  let s := if all.length > 8 then s.bump SP_RXFANOUT_COUNT n else s
  let ds : List Deliv := (all.take 8).filterMap fun t => (s.spLease n t addr).map fun l =>
    { ring := t * 256 + ((s.img.leases[l]?).map (·.ring)).getD 0, lease := some l, slot := none, spSlot := some n, rec_ := r }
  let own := s.spOwner n * 256 + s.rd SP_CAP_RING n
  let cap : List Deliv := if s.flag SP_CAP_EN n && !(ds.any fun d => d.ring == own)
    then [{ ring := own, lease := none, slot := none, spSlot := some n, rec_ := { r with capture := true } }] else []
  let drops := fun (s : State) => ((ds ++ cap).filter fun d => s.steerDrop d (decide ((s.spt n).capHeld ≥ 8)) != 0).length
  let s := if drops s > 0 then s.spEvt n 7 else s
  s.deliver none (ds ++ cap) fun s => decide ((s.spt n).capHeld ≥ 8)

/-- The record of an open record closed with a code (R481). -/
def spRecOf (n seq code : Nat) (r : SpRec) : RxRec :=
  let dur := min 0xFFFFFFFF ((r.ivl1 - r.ivl0) / ivlNs)
  { head := [BitVec.ofNat 8 (r.addr.getD 0), BitVec.ofNat 8 (b2n r.addr.isSome + 2 * b2n r.cont), BitVec.ofNat 8 code, BitVec.ofNat 8 r.err]
      ++ leBytes 2 (r.errPos.getD 0xFFFF)
    port := 64 + n, capture := false, serial := true, ns := r.ns, frac := r.frac, epoch := r.epoch, seq := seq
    tail := leBytes 4 dur, data := r.data }

/-- The address that a record head carries. -/
def recAddr (r : RxRec) : Option Nat :=
  if bitAt ((r.head[1]?.getD 0).toNat) 0 then some (r.head.headD 0).toNat else none

/-- A record closes (R480): the record count advances, and the record is steered, or held during a gap (R759). An address with no data
character makes a record only where idle or a break follows it: no other record has LEN 0. (DEDUCED, log entry 37.) -/
def State.closeRec (s : State) (n code : Nat) (r : SpRec) : State :=
  if r.data.isEmpty ∧ code ≠ 2 ∧ code ≠ 5 then (s.setSpt n fun x => { x with rec_ := none, carry := none }).put SP_STAT_RXING n false
  else
  let seq := ((s.spt n).seq + 1) % 2 ^ 24
  let s := s.setSpt n fun x => { x with seq := seq, rec_ := none, carry := if code = 1 then some r.addr else none }
  let s := (s.bump SP_RXREC_COUNT n).put SP_STAT_RXING n false
  let x := spRecOf n seq code r
  if s.inGap then
    -- R359, R759: a port holds up to 40 closed records; one more finds no slot
    if (s.spt n).held.length ≥ 40 then s.spEvt n 7 else s.setSpt n fun y => { y with held := y.held ++ [x] }
  else s.spSteer n r.addr x

/-- A record whose first character started `ago` tq ago opens. -/
def State.openRec (s : State) (addr : Option Nat) (cont : Bool) (ago : Nat) : SpRec :=
  let st := s.stampAgo ago
  { addr := addr, cont := cont, ns := st.ns, frac := st.frac, epoch := st.epoch8, ivl0 := st.ivl, ivl1 := s.time.ivl }

/-! ### Characters (R472-R476) -/

/-- A character as the receiver takes it: its data, address mark, errors, noise, a start bit that samples high, and the sampled bits. -/
structure CharRead where
  data : Nat
  addr : Bool
  parityErr : Bool
  frameErr : Bool
  noise : Bool
  falseStart : Bool
  bits : List Bool
  deriving DecidableEq, Repr

/-- Of three, the majority. -/
def majority3 (x : Bool × Bool × Bool) : Bool := (x.1 && x.2.1) || (x.1 && x.2.2) || (x.2.1 && x.2.2)

/-- A port samples three times for each bit (R475). -/
def State.sampleThree (s : State) (n : Nat) : Bool := decide (s.rd SP_BITLEN_BITLEN n ≥ 128)

/-- The number that bits stand for, least significant first. -/
def ofBits : List Bool → Nat
  | [] => 0
  | b :: bs => b2n b + 2 * ofBits bs

/-- The bits of a number, least significant first. -/
def toBits (v n : Nat) : List Bool := (List.range n).map fun i => bitAt v i

/-- The parity bit over data and address bits: even parity (1), odd (2) (R472). -/
def parityBit (mode : Nat) (bits : List Bool) : Bool := (bits.foldl (fun a b => a != b) false) != (mode == 2)

/-- The bits of a character up to its first stop bit as the port's settings frame it: start, data, address mark, parity, stop (R473). -/
def State.frameChar (s : State) (n v : Nat) (addr : Bool) : List Bool :=
  let body := toBits v (7 + s.rd SP_FRAME_DBITS n) ++ if s.flag SP_CFG_ADDRM n then [addr] else []
  let par := if s.rd SP_FRAME_PARITY n = 0 then [] else [parityBit (s.rd SP_FRAME_PARITY n) body]
  false :: body ++ par ++ [true]

/-- What the receiver takes from the line's levels (R475, R476). -/
def State.readChar (s : State) (n : Nat) (c : SerialChar) : CharRead :=
  let three := s.sampleThree n
  let bits := (c.samples.take (s.charBits n)).map fun x => if three then majority3 x else x.2.1
  let d := 7 + s.rd SP_FRAME_DBITS n
  let k := 1 + d + s.rd SP_CFG_ADDRM n
  let body := (bits.take k).drop 1
  { data := ofBits (body.take d), addr := body[d]?.getD false
    parityErr := s.rd SP_FRAME_PARITY n != 0 && bits[k]?.getD true != parityBit (s.rd SP_FRAME_PARITY n) body
    frameErr := !(bits[s.charBits n - 1]?.getD true)
    noise := three && (c.samples.take (s.charBits n)).any fun x => !(x.1 == x.2.1 && x.2.1 == x.2.2)
    falseStart := bits.headD true, bits := bits }

/-- The conditions of a character are counted (R475, R476). -/
def State.charFaults (s : State) (n : Nat) (c : CharRead) : State :=
  let s := if c.parityErr then (s.bump SP_PARERR_COUNT n).spEvt n 0 else s
  let s := if c.frameErr then (s.bump SP_FRMERR_COUNT n).spEvt n 1 else s
  if c.noise then (s.bump SP_NOISE_COUNT n).spEvt n 2 else s

/-- ERR of a character. -/
def charErr (c : CharRead) : Nat := b2n c.parityErr + 2 * b2n c.frameErr + 4 * b2n c.noise

/-- A data character joins the open record, or opens one (R480). -/
def State.dataChar (s : State) (n : Nat) (c : CharRead) : State :=
  let x := s.spt n
  let r := match x.rec_ with
    | some r => r
    | none => s.openRec (x.carry.getD none) x.carry.isSome (s.spBits n (s.charBits n))
  let bad := c.parityErr || c.frameErr
  let b := if s.flag SP_FRAME_DBITS n then c.data % 256 else c.data % 128
  let r := { r with
    ivl1 := s.time.ivl, err := r.err ||| charErr c
    errPos := if bad && r.errPos.isNone then some r.data.length else r.errPos
    data := r.data ++ [BitVec.ofNat 8 b] }
  if bad then s.closeRec n 4 r
  else if r.data.length ≥ 64 then s.closeRec n 1 r
  else (s.setSpt n fun x => { x with rec_ := some r, carry := none }).put SP_STAT_RXING n true

/-- An address character closes the open record and opens the next (R480); one with an error closes its own record at once. -/
def State.addrChar (s : State) (n : Nat) (c : CharRead) : State :=
  let s := match (s.spt n).rec_ with
    | some r => s.closeRec n 3 r
    | none => s
  let r := s.openRec (some (c.data % 256)) false (s.spBits n (s.charBits n))
  let r := { r with err := charErr c }
  if c.parityErr || c.frameErr then s.closeRec n 4 r
  else (s.setSpt n fun x => { x with rec_ := some r, carry := none }).put SP_STAT_RXING n true

/-! ### Messages (R488-R493) -/

/-- The characters of a message with their address marks: its address first, where it has one. -/
def SpMsg.all (m : SpMsg) : List (Nat × Bool) :=
  (match m.addr with | some a => [(a, true)] | none => []) ++ m.chars.map fun b => (b.toNat, false)

/-- The number of characters of a message. -/
def SpMsg.count (m : SpMsg) : Nat := m.chars.length + b2n m.addr.isSome

/-- The cost of a message now, in tq (R490). -/
def State.msgCost (s : State) (n : Nat) (m : SpMsg) : Nat :=
  (m.count * s.sendBits n * s.rd SP_BITLEN_BITLEN n + 7) / 8

/-- TXQ and TXING follow the messages; the queue becoming empty is an event (SP_EVT bit 6). -/
def State.refreshTxq (s : State) (n : Nat) : State :=
  let x := s.spt n
  let k := x.msgs.length + b2n x.cur.isSome
  let s := if k = 0 ∧ s.rd SP_STAT_TXQ n ≠ 0 then s.spEvt n 6 else s
  (s.wr SP_STAT_TXQ n k).put SP_STAT_TXING n x.cur.isSome

/-- A message is gone: its lease's place is free (R492). -/
def State.msgGone (s : State) (m : SpMsg) : State := s.setLrt m.lease fun r => { r with used := r.used - 1 }

/-- A message ends COLLISION (1) or RETURNED (2) after `sent` characters (R492, R511). -/
def State.msgFail (s : State) (n : Nat) (m : SpMsg) (why sent : Nat) : State :=
  let s := (s.msgGone m).bump TEN_SPTX_FAIL_COUNT m.tenant
  s.eventLim m.tenant 0x0601 (64 + n) [BitVec.ofNat 8 why, BitVec.ofNat 8 m.seq, BitVec.ofNat 8 sent]

/-- The characters of the message in progress that have been sent: read back in half duplex, by time in full duplex. (DESIGN CHOICE, log entry 38.) -/
def State.sentChars (s : State) (n : Nat) (x : SpSend) : Nat :=
  if s.flag SP_CFG_DUPLEX n then
    min x.msg.count (((s.now - x.at_) * 8 + 7) / max 1 (s.sendBits n * s.rd SP_BITLEN_BITLEN n))
  else x.echoed

/-- The driver of a half-duplex port goes off (R477). -/
def State.driverOff (s : State) (n : Nat) : State := if s.flag SP_CFG_DUPLEX n then s else s.emit (.serialDriver n false)

/-- Every message of a port ends RETURNED (R495). -/
def State.returnMsgs (s : State) (n : Nat) : State :=
  let x := s.spt n
  let s := s.setSpt n fun x => { x with msgs := [], cur := none }
  let s := match x.cur with
    | some c => ((s.driverOff n).msgFail n c.msg 2 (s.sentChars n c)).setSpt n fun y => { y with txEnd := s.now }
    | none => s
  (x.msgs.foldl (fun (s : State) (m : SpMsg) => s.msgFail n m 2 0) s).refreshTxq n

/-- A character of the message in progress is read back (R477): it is compared with the message's next one, and the first mismatch ends the
message. -/
def State.echo (s : State) (n : Nat) (c : CharRead) : State :=
  match (s.spt n).cur with
  | none => s
  | some x =>
    let (v, a) := x.msg.all[x.echoed]?.getD (0, false)
    let good := c.bits == s.frameChar n v a
    let x := { x with echoed := x.echoed + 1 }
    if good then s.setSpt n fun y => { y with cur := some x, lineEnd := s.now }
    else
      let s := (s.setSpt n fun y => { y with cur := none, txEnd := s.now, lineEnd := s.now }).driverOff n
      (((s.bump SP_COLL_COUNT n).spEvt n 4).msgFail n x.msg 1 x.echoed).refreshTxq n

/-! ### Boundaries (R122, R479) -/

/-- A boundary of a serial port (R12, R122, R479): TERM, BIAS and the line settings follow a new image, staged values become active. -/
def State.spBoundary (s : State) (n : Nat) : State :=
  let s := if (s.spt n).rwiPend then
      let s := (s.loadResets [SP_BITLEN_BITLEN, SP_FRAME_DBITS, SP_FRAME_PARITY, SP_FRAME_STOP2, SP_FRAME_IDLEGAP, SP_FRAME_TXGAP] n).loadRwi (fun f => f != SP_CFG_PRESENT && f != SP_CFG_START) .sp n
      s.setSpt n fun x => { x with rwiPend := false, term := s.flag SP_CFG_TERM n, bias := s.flag SP_CFG_BIAS n }
    else s
  s.applyStaged (.sp n)

/-- Every instant is a boundary of the port (R122). -/
def State.spImmediate (s : State) (n : Nat) : Bool := decide (s.spState n ≤ spDisabled)

/-! ### Port states (R494-R496) -/

/-- ABSENT is reached where PRESENT has become 0 (R495), or where the image did not take the port over (R765), which then is DISABLED anew. -/
def State.spLeave (s : State) (n : Nat) : State :=
  if (s.spt n).leaving then
    let s := (s.setSpState n spAbsent).setSpt n fun x => { x with leaving := false }
    if s.flag SP_CFG_PRESENT n then (s.setSpState n spDisabled).setSpt n fun x => { x with seq := 0, rec_ := none, carry := none } else s
  else s

/-- DISABLED is reached: messages return, an open record closes with CLOSE 6, and ABSENT follows where the image leaves the port out. -/
def State.spStop (s : State) (n : Nat) : State :=
  let s := s.returnMsgs n
  let s := match (s.spt n).rec_ with
    | some r => s.closeRec n 6 r
    | none => s
  let s := (s.setSpt n fun x => { x with carry := none, rxReady := false }).setSpState n spDisabled
  (s.spLeave n).spBoundary n

/-- ENABLE of a DISABLED port: the state after it and its RESULT. -/
def State.spTurnOn (s : State) (n : Nat) : State × Nat :=
  if !s.domReady (64 + n) then (s, 6)
  else ((s.setSpState n spEnabled).setSpt n fun x => { x with rxReady := false, rxFrom := s.now }, 0)

/-- The drain ends (R495): a pending ENABLE is applied; SP_DRAINED. -/
def State.spDrainOver (s : State) (n : Nat) : State :=
  let pend := s.flag SP_STAT_PEND_EN n
  let s := (s.spStop n).put SP_STAT_PEND_EN n false
  let (s, res) := if pend && s.spState n == spDisabled then
      let (s, c) := s.spTurnOn n
      (s.wr SP_CMDRES_RESULT n c, c)
    else (s, 0xFF)
  (s.spEvt n 5).eventLim (s.spOwner n) 0x0602 (64 + n) [BitVec.ofNat 8 (s.spState n), BitVec.ofNat 8 res]

/-- A transmitted character is in progress: not before the first start bit of a message (R477, R495). -/
def State.charRuns (s : State) (n : Nat) : Bool := match (s.spt n).cur with
  | some c => decide (c.at_ ≤ s.now)
  | none => false

/-- The port is disabled (R495). -/
def State.spDisable (s : State) (n : Nat) : State :=
  if s.spState n = spEnabled then
    if s.charRuns n then s.setSpState n spDraining else s.spDrainOver n
  else if s.spState n = spDraining ∧ s.flag SP_STAT_PEND_EN n then s.put SP_STAT_PEND_EN n false
  else if s.spState n = spDisabled then s.spLeave n
  else s

/-- The transceiver domain switches off (R495): as a DISABLE, which cancels a pending ENABLE, and a drain ends at once. -/
def State.spPowerOff (s : State) (n : Nat) : State :=
  let s := if s.spState n = spEnabled then s.spDisable n else s
  let s := if s.spState n = spDraining then (s.put SP_STAT_PEND_EN n false).spDrainOver n else s
  s.setSpState n (s.spState n)

/-- A write of SP_CMD (R269, R495, R496). -/
def State.spCommand (s : State) (n bits : Nat) : State :=
  let st := s.spState n
  let en := bitAt bits 0
  let dis := bitAt bits 1
  let (s, code) :=
    if st = spAbsent then (s, 7)
    else if en == dis then (s, 2)
    else if en then
      if st = spDisabled then s.spTurnOn n
      else if st = spDraining ∧ !s.flag SP_STAT_PEND_EN n then (s.put SP_STAT_PEND_EN n true, 0)
      else (s, 3)
    else if st = spDisabled ∨ (st = spDraining ∧ !s.flag SP_STAT_PEND_EN n) then (s, 3)
    else (s.spDisable n, 0)
  (s.wr SP_CMDRES_RESULT n code).wr SP_CMDRES_CMD_SEQ n (s.rd SP_CMDRES_CMD_SEQ n + 1)

/-! ### Commands -/

/-- Offset of a register of page 0 of a serial port. -/
def spOff (n o : Nat) : Nat := if n < 24 then 0x200000 + n * 0x2000 + o else absentOff

/-- The line of a port is active until now; a receiver that is not yet ready waits its 10 idle bit times anew (R495). -/
def State.lineActive (s : State) (n : Nat) : State :=
  s.setSpt n fun x => { x with lineEnd := s.now, rxFrom := if x.rxReady then x.rxFrom else s.now }

/-- CHARACTER: a character ends at its first stop bit (R475-R477, R480). In half duplex, while the port sends, it is the read-back of the port's own
character, which is compared and never recorded; a start bit that samples high is discarded. -/
def execCharacter (t n : Nat) (c : SerialChar) (s : State) : Host.Outcome State Fault Refusal :=
  let s := s.tick t
  let r := s.readChar n c
  if s.spState n < spDraining || r.falseStart then .next s
  else if !s.flag SP_CFG_DUPLEX n && (s.spt n).cur.isSome then .next (if s.spState n = spEnabled then s.echo n r else s.lineActive n)
  else if s.spState n ≠ spEnabled || !(s.spt n).rxReady then .next (s.lineActive n)
  else
    let s := (s.charFaults n r).lineActive n
    .next (if s.flag SP_CFG_ADDRM n && r.addr then s.addrChar n r else s.dataChar n r)

/-- IDLE_CLOSE: no start bit for IDLEGAP bit times closes the record; a continuation lapses (R480). (DESIGN CHOICE, log entry 39.) -/
def execIdleClose (t n : Nat) (s : State) : Host.Outcome State Fault Refusal :=
  let s := s.tick t
  if s.now < (s.spt n).lineEnd + s.spBits n (s.rd SP_FRAME_IDLEGAP n) then .next s
  else match (s.spt n).rec_ with
    | some r => .next (s.closeRec n 2 r)
    | none => .next (s.setSpt n fun x => { x with carry := none })

/-- BREAK: the line returns high after `low` tq, at least the c bit times of a character with its stop bits (R473, R476, R480). -/
def execLineBreak (t n low : Nat) (s : State) : Host.Outcome State Fault Refusal :=
  let s := s.tick t
  if s.spState n < spDraining || decide (low < s.spBits n (s.sendBits n)) then .next s
  else if s.spState n ≠ spEnabled || !(s.spt n).rxReady then .next (s.lineActive n)
  else
    let s := ((s.bump SP_BREAK_COUNT n).spEvt n 3).lineActive n
    let x := s.spt n
    let r := match x.rec_ with
      | some r => r
      | none => s.openRec (x.carry.getD none) x.carry.isSome low
    .next (s.closeRec n 5 { r with ivl1 := s.time.ivl, err := r.err ||| 8 })

/-- TEN_SPTX_SEL: port and address of the next message; the buffer empties (R488). -/
def execTenSptxSel (t : Nat) (f : Func) (v : Nat) (s : State) : Host.Outcome State Fault Refusal :=
  .next ((s.tick t).hostWrite f 0x58 fun s =>
    let k := s.tn f
    let s := ((s.wr TEN_SPTX_SEL_PORT k (bitsOf v 16 5)).wr TEN_SPTX_SEL_ADDRV k (bitsOf v 8 1)).wr TEN_SPTX_SEL_ADDR k (bitsOf v 0 8)
    ({ s with stage_ := tset [] s.stage_ k [] }).wr TEN_SPTX_RES_FILL k 0)

/-- TEN_SPTX_D1 to D3: `n` characters join the buffer; one beyond 64 is discarded and sets OVF (R488). -/
def execTenSptxD (t : Nat) (f : Func) (n v : Nat) (s : State) : Host.Outcome State Fault Refusal :=
  if n = 0 ∨ n > 3 then .next (s.tick t)
  else .next ((s.tick t).hostWrite f (0x58 + 4 * n) fun s =>
    let k := s.tn f
    let all := tget [] s.stage_ k ++ leBytes n v
    let s := if all.length > 64 then s.put TEN_SPTX_RES_OVF k true else s
    ({ s with stage_ := tset [] s.stage_ k (all.take 64) }).wr TEN_SPTX_RES_FILL k (all.take 64).length)

/-- The status of a commit, and its lease (R489). -/
def State.sptxCheck (s : State) (k : Nat) : Nat × Option Nat :=
  let p := s.rd TEN_SPTX_SEL_PORT k
  let addr := if s.flag TEN_SPTX_SEL_ADDRV k then s.rd TEN_SPTX_SEL_ADDR k else 0
  if (tget [] s.stage_ k).isEmpty then (1, none)
  else if p > 23 || s.flag TEN_SPTX_SEL_ADDRV k != s.flag SP_CFG_ADDRM p then (2, none)
  else match s.img.leases.findIdx? fun l => l.tx && l.tenant == k && l.port == 64 + p && l.fmt == 2 && decide (l.lo ≤ addr ∧ addr ≤ l.hi) with
    | none => (3, none)
    | some l =>
      if s.spState p ≠ spEnabled then (4, none)
      else if s.quotaFull l then (5, none)
      else if s.flag TEN_SPTX_RES_OVF k then (6, none)
      else (0, some l)

/-- TEN_SPTX_GO: the staged message is committed (R488, R489). -/
def execTenSptxGo (t : Nat) (f : Func) (s : State) : Host.Outcome State Fault Refusal :=
  .next ((s.tick t).hostWrite f 0x68 fun s =>
    let k := s.tn f
    let p := s.rd TEN_SPTX_SEL_PORT k
    let (st, l) := s.sptxCheck k
    let seq := (s.rd TEN_SPTX_RES_SEQ k + 1) % 256
    let s := match l with
      | some l =>
        let m : SpMsg := { tenant := k, lease := l, seq := seq, chars := tget [] s.stage_ k
                           addr := if s.flag TEN_SPTX_SEL_ADDRV k then some (s.rd TEN_SPTX_SEL_ADDR k) else none }
        let s := s.setLrt l fun r => { r with used := r.used + 1 }
        (s.setSpt p fun x => { x with msgs := x.msgs ++ [m] }).refreshTxq p
      | none => s
    let s := { s with stage_ := tset [] s.stage_ k [] }
    (((s.wr TEN_SPTX_RES_SEQ k seq).put TEN_SPTX_RES_OVF k false).wr TEN_SPTX_RES_FILL k 0).wr TEN_SPTX_RES_STATUS k st)

/-- The line of a port, idle for `quiet` tq with no character in progress, lets a message start: in half duplex TXGAP bit times after it became
idle, in full duplex TXGAP bit times after the port's own previous message (R477, R478). -/
def State.spMayStart (s : State) (n quiet : Nat) : Bool :=
  let gap := s.spBits n (s.rd SP_FRAME_TXGAP n)
  let x := s.spt n
  s.spState n == spEnabled && x.cur.isNone && !s.inGap && decide (x.txEnd + gap ≤ s.now) &&
    (s.flag SP_CFG_DUPLEX n || decide (x.lineEnd + gap ≤ s.now ∧ gap ≤ quiet))

/-- The message the port takes: the earliest one that is its lease's earliest and whose bucket holds its cost (R491). -/
def State.spNext (s : State) (n : Nat) : Option SpMsg :=
  let ms := (s.spt n).msgs
  ms.find? fun m => (match ms.find? fun y => y.lease == m.lease with | some y => y == m | none => false)
    && decide (s.tokens m.lease ≥ s.msgCost n m * 4096)

/-- SP_MESSAGE_START: the port, its line idle long enough, starts a message and charges its lease; in half duplex its driver goes on one bit time
before the first start bit (R472, R477, R478, R490, R491). (DESIGN CHOICE, log entry 110.) -/
def execSpMessageStart (t : Nat) (m : SpStart) (s : State) : Host.Outcome State Fault Refusal :=
  let n := m.n
  let s := s.tick t
  if !s.spMayStart n m.quiet then .next s
  else match s.spNext n with
    | none => .next s
    | some m =>
      let s := s.charge m.lease (s.msgCost n m)
      let at_ := if s.flag SP_CFG_DUPLEX n then s.now else s.now + s.spBits n 1
      let s := (s.setSpt n fun x => { x with msgs := x.msgs.erase m, cur := some ⟨m, at_, 0⟩ }).refreshTxq n
      let s := if s.flag SP_CFG_DUPLEX n then s else s.emit (.serialDriver n true)
      .next (s.emit (.serialSend n at_ m.all))

/-- SP_MESSAGE_END: the last stop bit of the message in progress: SENT (R492). In full duplex the receive pair does not notice (R478). -/
def execSpMessageEnd (t n : Nat) (s : State) : Host.Outcome State Fault Refusal :=
  let s := s.tick t
  match (s.spt n).cur with
  | none => .next s
  | some x =>
    if s.spState n ≠ spEnabled then .next s
    else
      let s := ((s.msgGone x.msg).setSpt n fun y => { y with
        cur := none, txEnd := s.now, lineEnd := if s.flag SP_CFG_DUPLEX n then y.lineEnd else max y.lineEnd s.now }).driverOff n
      .next (((s.bump TEN_SPTX_SENT_COUNT x.msg.tenant).bump SP_TXMSG_COUNT n).refreshTxq n)

/-- A command of the port's owner, with its own register write. -/
def State.spOwnerCmd (s : State) (f : Func) (n bits : Nat) : State :=
  if n ≥ 24 then s else s.hostWrite f (spOff n 4) fun s => s.spCommand n bits

/-- SP_ENABLE: a write of SP_CMD with ENABLE (R495, R496). -/
def execSpEnable (t : Nat) (f : Func) (n bits : Nat) (s : State) : Host.Outcome State Fault Refusal :=
  let s := s.tick t
  .next (if bitAt bits 0 then s.spOwnerCmd f n bits else s)

/-- SP_DISABLE: a write of SP_CMD with DISABLE, or with neither bit (R269, R495, R496). -/
def execSpDisable (t : Nat) (f : Func) (n bits : Nat) (s : State) : Host.Outcome State Fault Refusal :=
  let s := s.tick t
  .next (if bitAt bits 0 then s else s.spOwnerCmd f n bits)

/-- SP_DRAIN_END: the stop bit of the character in progress ends the drain (R495). -/
def execSpDrainEnd (t n : Nat) (s : State) : Host.Outcome State Fault Refusal :=
  let s := s.tick t
  .next (if s.spState n = spDraining then s.spDrainOver n else s)

/-- SP_RECEIVER_READY: 10 idle bit times after an ENABLE the receiver accepts start bits (R495). -/
def execSpReceiverReady (t n : Nat) (s : State) : Host.Outcome State Fault Refusal :=
  let s := s.tick t
  .next (if s.spState n = spEnabled && decide ((s.spt n).rxFrom + s.spBits n 10 ≤ s.now) then
      s.setSpt n fun x => { x with rxReady := true }
    else s)

end Sys2Proof.Machine
end

