-- ==== Sys2Proof/Machine/Power.lean ====
section
/-! DEFINITION. The power manager: domains, the core rail, pace, segment sleep and fabric sleep (chapter 16). -/

namespace Sys2Proof.Machine

/-! ### Commands and their results (R709-R711) -/

/-- The codes of TEN_PWR_CMD. -/
def cmdOff : Nat := 1
def cmdOn : Nat := 2

/-- PM_CFG's tenants. -/
def State.pwOwner (s : State) : Nat := s.rd PM_CFG_PWOWNER 0
def State.opOwner (s : State) : Nat := s.rd PM_CFG_OPOWNER 0

/-- A command of a tenant completes: RESULT, REASON, SEQ, BUSY 0 (R710). -/
def State.pwrDone (s : State) (t result reason : Nat) : State :=
  (((s.wr TEN_PWR_RES_RESULT t result).wr TEN_PWR_RES_REASON t reason).wr TEN_PWR_RES_SEQ t (s.rd TEN_PWR_RES_SEQ t + 1)).put TEN_PWR_RES_BUSY t false

/-- A write of TEN_PWR_CMD: ignored with OVR while BUSY, else judged by `k` for the writer's tenant (R710). -/
def State.pwrCmd (s : State) (f : Func) (k : State → Nat → State) : State :=
  s.hostWrite f 0x78 fun s =>
    let t := s.tn f
    if s.flag TEN_PWR_RES_BUSY t then s.put TEN_PWR_RES_OVR t true else k (s.put TEN_PWR_RES_OVR t false) t

/-! ### Domains (R703-R708) -/

/-- The only tenant whose command may switch a domain; none for domains 136, 137, 139 and for a port or bank the image does not enable. -/
def State.domOwner (s : State) (d : Nat) : Option Nat :=
  if d < 64 then (if s.flag FB_OWNER_VALID d then some (s.fbOwner d) else none)
  else if d < 88 then (if s.flag SP_OWNER_VALID (d - 64) then some (s.spOwner (d - 64)) else none)
  else if d < 100 then (if s.flag DB_CFG_PRESENT (d - 88) then some (s.rd DB_OWNER_TENANT (d - 88)) else none)
  else if d < 104 then some (s.rd RG_CFG_RGOWNER 0)
  else if d < 106 then some (s.rd PR_CFG_POWNER 0)
  else if d = 136 ∨ d = 137 ∨ d = 139 then none
  else some s.pwOwner

/-- A range of FB ports with one that is neither ABSENT nor DISABLED. -/
def State.busyPort (s : State) (first n : Nat) : Bool :=
  (List.range n).any fun i => decide (s.fstate (first + i) > fbDisabled)

/-- A mailbox of a quarter is named by the active image (R704). -/
def State.mailboxNamed (s : State) (q : Nat) : Bool :=
  let inQ := fun m => m / 2048 == q
  let fed := fun (x : Steer) => match x.mbx with | some m => inQ m | none => false
  let b := s.img.steer
  b.base.any (fun e => fed e.2) || b.ternary.any (fun e => e.2.any fun t => fed t.steer)
    || b.rules.any (fun r => bitAt (ruleW r.2 1) 19 && bitAt (ruleW r.2 8) 3 && bitsOf (ruleW r.2 14) 0 8 == 0 && inQ (bitsOf (ruleW r.2 14) 8 13))
    || s.img.grants.any (fun g => g.cls == 1 && decide (g.objLo < (q + 1) * 2048 ∧ q * 2048 ≤ g.objHi))
    || s.img.groups.any (fun g => g.2.valid && (List.range g.2.nel).any fun e =>
        g.2.kind e == 1 && (g.2.node e == 0 || g.2.node e == s.node) && inQ (g.2.object e))
    || s.img.pages.any (fun p => decide (0x400 + q * 128 ≤ p.page ∧ p.page < 0x400 + (q + 1) * 128))

/-- The descriptor rings of which a field of the list differs from its reset value. -/
def State.ringsWith (s : State) (fs : List Fld) : List Nat :=
  let ks := fs.map fun f => f.key 0 0 / 2 ^ 32
  s.regs.filterMap fun e => if ks.contains (e.1 / 2 ^ 32) then some (e.1 / 4096 % 1048576) else none

/-- The descriptor rings that are not IDLE. -/
def State.ringsBusy (s : State) : List Nat := s.ringsWith [RC_STAT_STATE]

/-- Why an off command of a domain is refused: the reason code of R703, 0 where it is not. -/
def State.offReason (s : State) (d : Nat) : Nat :=
  if d < 64 then (if s.fstate d > fbDisabled then 1 else 0)
  else if d < 104 then 0
  else if d < 106 then (if s.flag PR_CFG_PAIRED 0 && s.lstate (4 + (1 - (d - 104))) != 4 then 2 else 0)
  else if d < 108 then (if (s.link (d - 106)).up then 3 else 0)
  else if d < 116 then (if s.busyPort 0 64 || decide (s.rd FS_HELD_HELD (d - 108) > 0) then 4 else 0)
  else if d < 120 then (if s.mailboxNamed (d - 116) then 5 else 0)
  else if d < 128 then (if s.busyPort ((d - 120) * 8) 8 then 4 else 0)
  else if d < 132 then (if s.busyPort ((d - 128) * 16) 16 then 4 else 0)
  else if d < 134 then (if s.img.steer.rules.any fun r => r.1 / 2048 == d - 132 && bitAt (ruleW r.2 1) 19 then 6 else 0)
  else if d < 136 then
    (if (s.ringsBusy.any fun r => s.homeOf r == d - 134) || (s.link (d - 134)).slots.any fun x => x.2.owner.isSome then 7 else 0)
  else if d = 138 then
    (if (List.range 1024).any fun k => s.rdA IC_SRC_PRI 0 k != 0 || s.rdA IC_SRC_STATE 0 k != 0 then 9 else 0)
  else 8

/-- A domain's bit of PM_DON takes a value. -/
def State.setDon (s : State) (d : Nat) (on : Bool) : State :=
  s.wrA PM_DON_ON 0 (d / 24) (putBitAt (s.rdA PM_DON_ON 0 (d / 24)) (d % 24) on)

/-- The fault sources of a port or bank without power hold their rails at idle: their causes end, without an event (R697). -/
def State.restSources (s : State) (d : Nat) : State :=
  if d < 64 then ((s.levelEnd d).levelEnd (64 + d)).setPort d fun x => { x with txdomHold := false }
  else if d < 88 then s.levelEnd (148 + (d - 64))
  else if d < 100 then s.levelEnd (136 + (d - 88))
  else s

/-- What a domain's loss of power does (R703, R705). -/
def State.domDown (s : State) (d : Nat) : State :=
  let s := (s.setDon d false).restSources d
  if d < 64 then s.refreshXcvr d
  else if d < 88 then s.spPowerOff (d - 64)
  else if d < 100 then (s.bankDown (d - 88)).applyBank (d - 88)
  else if d < 106 then
    let n := d - 100
    let s := s.loseLink n 5
    if s.lstate n = 5 then s else s.setLstate n 0
  else if 132 ≤ d ∧ d < 134 then s.wrA RU_STAT_ON 0 (d - 132) 0
  else s

/-- What a domain's return does (R703, R705, R389, R506). -/
def State.domUp (s : State) (d : Nat) : State :=
  let s := s.setDon d true
  if d < 64 then s.refreshXcvr d
  else if d < 88 then s.setSpState (d - 64) (s.spState (d - 64))
  else if d < 100 then (s.setBank (d - 88) fun b => { b with refDue := 65535, runs := [] }).refreshDrive (d - 88)
  else if d < 106 then (if s.lstate (d - 100) = 0 then s.setLstate (d - 100) 1 else s)
  else if d < 108 then s.setLink (d - 106) fun l => { l with up := !l.perst && !s.sys.down }
  else if 116 ≤ d ∧ d < 120 then
    { s with rx := { s.rx with mboxes := s.rx.mboxes.filter fun e => e.1 / 2048 != d - 116 } }
  else if 132 ≤ d ∧ d < 134 then s.wrA RU_STAT_ON 0 (d - 132) 1
  else if d = 138 then s.senseAll
  else s

/-- A domain command is refused (R711): counted, PM_DLAST, and PWR_DOMAIN to the writer. -/
def State.domRefused (s : State) (t d result reason : Nat) (on : Bool) : State :=
  let s := (((s.bump PM_REFUSED_COUNT 0).wr PM_DLAST_DOMAIN 0 d).wr PM_DLAST_TENANT 0 t).wr PM_DLAST_REASON 0 reason
  (s.pwrDone t result reason).eventLim t 0x0C01 d [BitVec.ofNat 8 result, BitVec.ofNat 8 reason, BitVec.ofNat 8 (b2n on)]

/-- A domain command is judged (R703, R709). -/
def State.domCmd (s : State) (t d : Nat) (on : Bool) : State :=
  if d ≥ 140 then s.domRefused t d 1 0 on
  else if s.domOwner d ≠ some t ∨ !bitAt (s.rdA PM_DSW_SW 0 (d / 24)) (d % 24) then s.domRefused t d 2 0 on
  else if !on && s.offReason d != 0 then s.domRefused t d 3 (s.offReason d) on
  else if s.domOn d == on then s.domRefused t d 4 0 on
  else
    ({ s with pm := { s.pm with switches := s.pm.switches ++ [(⟨d, on, t, s.now⟩ : DomSwitch)] } }).put TEN_PWR_RES_BUSY t true

/-- The switch of a domain ends. -/
def State.endSwitch (s : State) (d : Nat) (on : Bool) : State :=
  { s with pm := { s.pm with switches := s.pm.switches.filter fun x => !(x.domain == d && x.on == on) } }

/-- DOMAIN_OFF (R703, R709-R711). (DESIGN CHOICE, log entry 52.) -/
def execDomainOff (t : Nat) (f : Func) (d : Nat) (s : State) : Host.Outcome State Fault Refusal :=
  .next ((s.tick t).pwrCmd f fun s k => s.domCmd k d false)

/-- DOMAIN_ON (R703, R709, R710). -/
def execDomainOn (t : Nat) (f : Func) (d : Nat) (s : State) : Host.Outcome State Fault Refusal :=
  .next ((s.tick t).pwrCmd f fun s k => s.domCmd k d true)

/-- DOMAIN_OFF_DONE: a domain off takes effect and its command completes (R703, R705, R711). -/
def execDomainOffDone (t d : Nat) (s : State) : Host.Outcome State Fault Refusal :=
  let s := s.tick t
  match s.pm.switches.find? fun x => x.domain == d && !x.on with
  | some x => .next ((((s.endSwitch d false).domDown d).bump PM_DOMSW_COUNT 0).pwrDone x.tenant 0 0)
  | none => .next s

/-- DOMAIN_ON_DONE: a domain is power-good, or is switched off again (R705, R708). -/
def execDomainOnDone (t d : Nat) (good : Bool) (s : State) : Host.Outcome State Fault Refusal :=
  let s := s.tick t
  match s.pm.switches.find? fun x => x.domain == d && x.on with
  | some x =>
    let s := s.endSwitch d true
    .next (if good then ((s.domUp d).bump PM_DOMSW_COUNT 0).pwrDone x.tenant 0 0 else s.pwrDone x.tenant 10 0)
  | none => .next s

/-! ### The core rail (R712-R716) -/

/-- The slowest of a list of points. -/
def slowest (l : List Nat) : Nat := l.foldl max 0

/-- PM_PACE_EST follows the stage time measured and the factor of the governing point; a rise above the alarm is told to PWOWNER (R719). -/
def State.refreshEst (s : State) : State :=
  let gov := s.rd PM_STAT_GOV 0
  let raw := s.rd PM_PACE_RAW_PS 0
  let k := s.rdA PM_CALF_FACTOR 0 gov
  let old := s.rd PM_PACE_EST_PS 0
  let lim := s.rd PM_PACE_ALARM_PS 0
  let s := s.wr PM_PACE_EST_PS 0 (if k = 0 then raw else raw * k / 4096)
  if lim ≠ 0 ∧ old ≤ lim ∧ s.rd PM_PACE_EST_PS 0 > lim then
    (s.bump PM_PACE_ALARMS_COUNT 0).eventLim s.pwOwner 0x0C03 gov (leBytes 2 (s.rd PM_PACE_EST_PS 0) ++ leBytes 2 (s.rd PM_TJ_TJ 0))
  else s

/-- A slew towards a point starts, or is retargeted (R712-R714). -/
def State.startSlew (s : State) (o : Nat) : State :=
  let mv := s.railMv
  let running := s.flag PM_STAT_SLEW 0
  let settled := if running then s.pm.settled else s.rd PM_STAT_OP 0
  let targets := (if running then s.pm.targets else []) ++ [o]
  let s := { s with pm := { s.pm with
    slewFrom := mv, slewAt := s.now, slewFirst := if running then s.pm.slewFirst else s.now, settled := settled, targets := targets
    origin := if running then s.pm.origin else mv
    cal := s.pm.cal.map fun (c : CalSt) => { c with slewed := true } } }
  ((((s.wr PM_STAT_VCORE 0 mv).wr PM_STAT_OP 0 o).put PM_STAT_SLEW 0 true).wr PM_STAT_GOV 0 (slowest (settled :: targets))).refreshEst

/-- A SET_OP that passes its checks (R712). -/
def State.setOp (s : State) (o : Nat) : State := (s.startSlew o).bump PM_SLEWS_COUNT 0

/-- The result of a SET_OP of tenant `t` (R709, R712). -/
def State.opResult (s : State) (t o : Nat) : Nat :=
  if o > 2 then 1
  else if t ≠ s.opOwner then 2
  else if s.rd PM_STAT_OP 0 = o ∧ !s.flag PM_STAT_SLEW 0 then 4
  else if o < s.rd PM_OPLIM_OPHI 0 ∨ o > s.rd PM_OPLIM_OPLO 0 then 6 else 0

/-- SET_OP: the owner of the operating point starts or retargets a slew (R712, R713). -/
def execSetOp (t : Nat) (f : Func) (o : Nat) (s : State) : Host.Outcome State Fault Refusal :=
  .next ((s.tick t).pwrCmd f fun s k =>
    let r := s.opResult k o
    (if r = 0 then s.setOp o else s).pwrDone k r 0)

/-- SLEW_SETTLED: the rail has been within 5 mV of its target for 2 µs (R714). (DEDUCED, log entry 53.) -/
def execSlewSettled (t : Nat) (s : State) : Host.Outcome State Fault Refusal :=
  let s := s.tick t
  let o := s.rd PM_STAT_OP 0
  let goal := opMv o
  let gap := if s.pm.slewFrom ≥ goal then s.pm.slewFrom - goal else goal - s.pm.slewFrom
  .next (if s.flag PM_STAT_SLEW 0 && decide (s.now * 10 ≥ s.pm.slewAt * 10 + (gap - 5) * tqPerUs + 20 * tqPerUs) then
      let s := (((s.put PM_STAT_SLEW 0 false).wr PM_STAT_VCORE 0 goal).wr PM_STAT_GOV 0 o).refreshEst
      s.event s.opOwner 0x0C02 o (leBytes 2 ((s.now - s.pm.slewFirst) / tqPerUs))
    else s)

/-! ### The pace monitor (R717-R720) -/

/-- PACE_SAMPLE: the pace monitor measures its replica, at the junction temperature given (R717, R719). -/
def execPaceSample (t ps tj : Nat) (s : State) : Host.Outcome State Fault Refusal :=
  let s := s.tick t
  let gov := s.rd PM_STAT_GOV 0
  let s := ((s.wr PM_TJ_TJ 0 tj).wr PM_PACE_RAW_PS 0 ps).wr PM_PACE_MAX_PS 0 (max (s.rd PM_PACE_MAX_PS 0) (ps % 65536))
  let s := (s.note (PM_PACE_MAX_PS.key 0 0) .largest (ps % 65536)).refreshEst
  let far := fun (c : CalSt) => decide ((fromTwos 16 (s.rd PM_TJ_TJ 0) - fromTwos 16 c.tj).natAbs > 5)
  let s := { s with pm := { s.pm with cal := s.pm.cal.map fun (c : CalSt) => { c with moved := c.moved || far c } } }
  .next (if ps % 65536 > stageLimit gov (fromTwos 16 (s.rd PM_TJ_TJ 0)) then s.faultAssert 195 (ps % 65536) else s.wrA FC_SRC_CAUSE 0 195 0)

/-- Frames committed on the whole device. -/
def State.commits (s : State) : Nat := ((List.range 4).map fun k => s.rd CL_COMMIT_CNT_COUNT k).foldl (· + ·) 0

/-- PACE_CAL: a calibration of 100 ms starts (R718). -/
def execPaceCal (t : Nat) (f : Func) (s : State) : Host.Outcome State Fault Refusal :=
  .next ((s.tick t).pwrCmd f fun s k =>
    if k ≠ s.pwOwner then s.pwrDone k 2 0
    else
      let c : CalSt := { tenant := k, at_ := s.now, commits := s.commits, tj := s.rd PM_TJ_TJ 0, slewed := s.flag PM_STAT_SLEW 0 }
      (({ s with pm := { s.pm with cal := some c } }).put PM_STAT_CAL 0 true).put TEN_PWR_RES_BUSY k true)

/-- PACE_CAL_DONE: the calibration ends with the factor measured, or is rejected (R718). -/
def execPaceCalDone (t factor : Nat) (s : State) : Host.Outcome State Fault Refusal :=
  let s := s.tick t
  match s.pm.cal with
  | none => .next s
  | some c =>
    if s.now < c.at_ + 100 * tqPerMs then .next s
    else
      let frames := (s.commits + 2 ^ 26 - c.commits) % 2 ^ 24
      let why := if frames ≥ 10000 then 1 else if c.slewed then 2 else if c.moved then 3 else 0
      let s := ({ s with pm := { s.pm with cal := none } }).put PM_STAT_CAL 0 false
      let s := if why = 0 then (s.wrA PM_CALF_FACTOR 0 (s.rd PM_STAT_OP 0) factor).refreshEst else s
      .next (s.pwrDone c.tenant (if why = 0 then 0 else 11) why)

/-! ### Segment sleep: rounds (R721-R728) -/

/-- The Anise identifier of a port and a frame of its kind (R721, R723). -/
def State.aniseId (s : State) (p : Nat) : Nat := s.rdA PM_ARD0_ID_L 0 p + s.rdA PM_ARD1_ID_H 0 p * 2 ^ 24
def State.aniseFrame (s : State) (p code : Nat) : Frame :=
  { id := s.aniseId p, ide := s.rdA PM_ARD1_IDE 0 p != 0, rtr := false, fdf := false, brs := false, dlc := 2
    data := [BitVec.ofNat 8 (s.rdA PM_PSLP_ROUND 0 p), BitVec.ofNat 8 code] }

/-- Anise rounds are permitted on the port. -/
def State.aniseOn (s : State) (p : Nat) : Bool := s.rdA PM_ARD1_ANISE_EN 0 p != 0

/-- Why a round of a port cannot start: RESULT 7, 8 or 9 of R709, 0 where it can (R724). -/
def State.roundBar (s : State) (p : Nat) : Nat :=
  if !s.onBus p || s.restricted p then 7 else if s.holding then 8 else if s.roundRuns p then 9 else 0

/-- A round starts (R724): its number advances and the query is submitted. -/
def State.startAnise (s : State) (p : Nat) (fabric : Bool) : State :=
  let s := (s.wrA PM_PSLP_ROUND 0 p (s.rdA PM_PSLP_ROUND 0 p + 1)).bump PM_ROUNDS_COUNT 0
  let s := ((s.wrA PM_ARD4_GOT_L 0 p 0).wrA PM_ARD5_GOT_H 0 p 0).wrA PM_ARD5_REFUSER 0 p 0xFF
  let s := (s.wrA PM_PSLP_ASTATE 0 p 2).setAn p fun _ => { subAt := s.now, fabric := fabric }
  (s.submitDev p .aniseQuery (s.aniseFrame p 1)).1

/-- The queue holds a tenant entry or a reply, queued or in flight (R726). -/
def State.ownTraffic (s : State) (p : Nat) : Bool :=
  (s.queue p).entries.any fun e => match e.src with | .device _ _ => false | _ => true

/-- Every member has consented: the decision of R726. -/
def State.decideRound (s : State) (p : Nat) : State :=
  if s.ownTraffic p then s.endRound p 4
  else ((s.wrA PM_PSLP_ASTATE 0 p 3).submitDev p .aniseCommit (s.aniseFrame p 2)).1

/-- A frame received on a port counts as an Anise answer, or on a holding unit as a commit (R723, R725, R727). -/
def State.aniseReceived (s : State) (p : Nat) (h : Header) (data : List Byte) : State :=
  let id := s.aniseId p
  let plain := !h.rtr && !h.fdf && h.ide == (s.rdA PM_ARD1_IDE 0 p != 0) && decide (h.dlc ≥ 2)
  let b0 := (data.headD 0).toNat
  let b1 := (data[1]?.getD 0).toNat
  if !s.aniseOn p || !plain then s
  else if s.holding && h.id == id && b1 == 2 then s.setAn p fun a => { a with sleepDue := true }
  else
    let m := h.id - id - 1
    if s.rdA PM_PSLP_ASTATE 0 p ≠ 2 ∨ h.id ≤ id ∨ m ≥ 32 ∨ !bitAt (s.memb p) m ∨ b0 ≠ s.rdA PM_PSLP_ROUND 0 p
        ∨ bitAt (s.an p).answered m then s
    else
      let s := s.setAn p fun a => { a with answered := setBitAt a.answered m }
      if b1 = 1 then
        let s := if m < 24 then s.wrA PM_ARD4_GOT_L 0 p (setBitAt (s.rdA PM_ARD4_GOT_L 0 p) m)
          else s.wrA PM_ARD5_GOT_H 0 p (setBitAt (s.rdA PM_ARD5_GOT_H 0 p) (m - 24))
        if s.got p = s.memb p then s.decideRound p else s
      else (s.wrA PM_ARD5_REFUSER 0 p m).endRound p 2

/-- The window of a port's round in tq. -/
def State.aniseWin (s : State) (p : Nat) : Nat := s.rdA PM_ARD1_WIN 0 p * tqPerMs

/-- ANISE_WINDOW_TIMEOUT: the query was not SENT in time, or members are missing (R725). -/
def execAniseWindowTimeout (t p : Nat) (s : State) : Host.Outcome State Fault Refusal :=
  let s := s.tick t
  if s.rdA PM_PSLP_ASTATE 0 p ≠ 2 then .next s
  else match (s.an p).sentAt with
    | some a => .next (if s.now ≥ a + s.aniseWin p then s.endRound p 3 else s)
    | none => .next (if s.now ≥ (s.an p).subAt + s.aniseWin p then (s.withdrawDev p .aniseQuery).settleFaults.endRound p 6 else s)

/-- ANISE_SLEEP_ENTRY: the first boundary without a frame in progress after the commit: ASLEEP (R726, R727, R321). -/
def execAniseSleepEntry (t p : Nat) (s : State) : Host.Outcome State Fault Refusal :=
  let s := s.tick t
  if !(s.an p).sleepDue || (s.port p).cur.isSome || (s.port p).tail || !(s.onBus p || s.fstate p == fbIntegrating) then .next s
  else
    let own := s.rdA PM_PSLP_ASTATE 0 p == 3
    let fsl := (s.an p).fabric
    let s := if own then (s.endRound p 1).wrA PM_PSLP_FSL 0 p (b2n fsl)
      else (s.wrA PM_PSLP_ASTATE 0 p 4).setAn p fun a => { a with sleepDue := false }
    .next (((s.setFstate p fbAsleep).portReturns p 0x4E).settlePort p).settleFaults

/-! ### Wakes (R728-R733) and fabric sleep (R734-R736) -/

/-- ANISE_WAKE to the port's owner. -/
def State.wakeEvent (s : State) (p why : Nat) : State := s.eventLim (s.fbOwner p) 0x0C05 p [BitVec.ofNat 8 why]

/-- A WAKE of a sleeping port (R732): handed back at once; a wake frame follows once it is ACTIVE. -/
def State.wakePort (s : State) (p : Nat) : State :=
  if s.fstate p ≠ fbAsleep then s
  else ((s.handBack p).setAn p fun a => { a with wakeDue := true }).wakeEvent p 2

/-- FABRIC_SLEEP to PWOWNER. -/
def State.fabricEvent (s : State) (what why : Nat) : State := s.eventLim s.pwOwner 0x0C06 0 [BitVec.ofNat 8 what, BitVec.ofNat 8 why]

/-- The node leaves fabric sleep (R736): 1 a CONSENT cell, 2 FABRIC_WAKE, 3 a port's wake. -/
def State.leaveFabricSleep (s : State) (why : Nat) : State :=
  if !s.flag PM_STAT_FSLEPT 0 then s
  else
    let s := s.put PM_STAT_FSLEPT 0 false
    let s := (List.range 64).foldl (fun (s : State) p =>
      if s.rdA PM_PSLP_FSL 0 p = 0 then s else (s.wakePort p).wrA PM_PSLP_FSL 0 p 0) s
    let s := match s.pm.fsTarget with
      | some o =>
        let s := { s with pm := { s.pm with fsTarget := none } }
        if s.rd PM_STAT_OP 0 = o ∧ !s.flag PM_STAT_SLEW 0 then s else s.setOp o
      | none => s
    let s := s.fabricEvent 2 why
    if why = 1 then s else s.beginRound

/-- The node enters fabric sleep on a COMMIT (R735). -/
def State.enterFabricSleep (s : State) : State :=
  if s.flag PM_STAT_FSLEPT 0 then s
  else
    let s := s.put PM_STAT_FSLEPT 0 true
    let s := (List.range 64).foldl (fun (s : State) p =>
      if s.rdA PM_ARD1_FSLEEP 0 p ≠ 0 && s.aniseOn p && s.roundBar p == 0 then s.startAnise p true else s) s
    let s := if s.flag PM_CFG_FSOP 0 then
        let now := s.rd PM_STAT_OP 0
        let lo := s.rd PM_OPLIM_OPLO 0
        let s := { s with pm := { s.pm with fsTarget := some now } }
        if now = lo ∧ !s.flag PM_STAT_SLEW 0 then s else s.setOp lo
      else s
    s.fabricEvent 1 0

/-- The node refuses a CONSENT cell by the sleep conditions (R734). -/
def State.sleepRefused (s : State) : Bool :=
  !s.flag PM_CFG_FSALLOW 0 || s.flag PM_STAT_FSLEPT 0
    || (List.range 64).any fun p => s.rdA PM_ARD1_FSLEEP 0 p != 0 && s.rdA PM_PSLP_VETO 0 p != 0

/-- A wake is handed back (R729, R736). -/
def State.wakeHanded (s : State) (p : Nat) : State :=
  let fsl := s.rdA PM_PSLP_FSL 0 p != 0
  let s := (s.handBack p).wrA PM_PSLP_FSL 0 p 0
  if fsl && s.flag PM_CFG_FWPROP 0 then s.leaveFabricSleep 3 else s

/-- Wakes that wait for the core rail's monitor are handed back while source 188 shows no cause (R729). -/
def State.handWaiting (s : State) : State :=
  if s.rdA FC_SRC_CAUSE 0 188 ≠ 0 then s
  else (List.range 64).foldl (fun (s : State) p =>
    if s.rdA PM_PSLP_ASTATE 0 p = 5 ∧ s.rdA PM_ARD1_WGATE 0 p = 0 then s.wakeHanded p else s) s

/-- WAKE_SIGNAL: the wake detector of a port in STANDBY signals a wake (R261, R262, R729, R733). -/
def execWakeSignal (t p : Nat) (s : State) : Host.Outcome State Fault Refusal :=
  let s := s.tick t
  if s.rd FB_STAT_XCVR p ≠ 1 ∨ !s.flag FB_WAKE_WAKE_EN p ∨ s.rdA PM_PSLP_ASTATE 0 p = 5 then .next s
  else
    let s := ((s.fbEvt p 11).xcvrEvt p 3).bump PM_WAKES_COUNT 0
    if s.fstate p ≠ fbAsleep then .next s
    else
      let gate := s.rdA PM_ARD1_WGATE 0 p != 0
      let s := (s.wrA PM_PSLP_ASTATE 0 p 5).setAn p fun a => { a with wokenAt := s.now }
      .next ((s.wakeEvent p (if gate then 4 else 1)).handWaiting)

/-- WAKE_ANSWER_TIMEOUT: an unanswered wake ends after 50 ms (R730). -/
def execWakeAnswerTimeout (t p : Nat) (s : State) : Host.Outcome State Fault Refusal :=
  let s := s.tick t
  .next (if s.rdA PM_PSLP_ASTATE 0 p = 5 ∧ s.now ≥ (s.an p).wokenAt + 50 * tqPerMs then
      ((s.wrA PM_PSLP_ASTATE 0 p 4).bump PM_WAKE_TMO_COUNT 0).wakeEvent p 3
    else s)

/-- LEVEL_CAUSE_END: a KIND L source deasserts (R668, R670); the core rail's monitor lets waiting wakes through (R729). -/
def execLevelCauseEnd (t src : Nat) (s : State) : Host.Outcome State Fault Refusal :=
  let s := (s.tick t).levelEnd src
  .next (if src = 188 then s.handWaiting else if src < 64 then s.setPort src fun x => { x with txdomHold := false } else s)

/-- A command for a port: judged for its owner, with ANISE_EN 1 (R709, R721); `k` gives the state and the result. -/
def State.portPwr (s : State) (f : Func) (p : Nat) (k : State → State × Nat) : State :=
  s.pwrCmd f fun s t =>
    if p ≥ 64 then s.pwrDone t 1 0
    else if !s.flag FB_OWNER_VALID p || s.fbOwner p != t || !s.aniseOn p then s.pwrDone t 2 0
    else
      let (s, r) := k s
      s.pwrDone t r 0

/-- SLEEP: the owner starts an Anise round (R724). (DEDUCED, log entry 51.) -/
def execSleep (t : Nat) (f : Func) (p : Nat) (s : State) : Host.Outcome State Fault Refusal :=
  .next ((s.tick t).portPwr f p fun s => if s.roundBar p = 0 then (s.startAnise p false, 0) else (s, s.roundBar p))

/-- WAKE: the owner wakes an ASLEEP or WOKEN port (R732). -/
def execWake (t : Nat) (f : Func) (p : Nat) (s : State) : Host.Outcome State Fault Refusal :=
  .next ((s.tick t).portPwr f p fun s =>
    if s.fstate p = fbAsleep then ((s.wakePort p).wrA PM_PSLP_FSL 0 p 0, 0) else (s, 7))

/-- VETO of a port takes a value (R709, R734). -/
def State.setVeto (s : State) (p v : Nat) : State × Nat :=
  if s.rdA PM_PSLP_VETO 0 p = v then (s, 4) else (s.wrA PM_PSLP_VETO 0 p v, 0)

/-- VETO_SET (R734). -/
def execVetoSet (t : Nat) (f : Func) (p : Nat) (s : State) : Host.Outcome State Fault Refusal :=
  .next ((s.tick t).portPwr f p fun s => s.setVeto p 1)

/-- VETO_CLR (R734). -/
def execVetoClr (t : Nat) (f : Func) (p : Nat) (s : State) : Host.Outcome State Fault Refusal :=
  .next ((s.tick t).portPwr f p fun s => s.setVeto p 0)

/-- WAKE_ACK: the owner confirms a wake (R729). -/
def execWakeAck (t : Nat) (f : Func) (p : Nat) (s : State) : Host.Outcome State Fault Refusal :=
  .next ((s.tick t).portPwr f p fun s =>
    if s.rdA PM_PSLP_ASTATE 0 p ≠ 5 then (s, 7)
    else if s.rdA PM_ARD1_WGATE 0 p ≠ 0 then (s.wakeHanded p, 0) else (s, 0))

/-- FABRIC_WAKE: PWOWNER makes the node leave fabric sleep (R736). (DEDUCED, log entry 86.) -/
def execFabricWake (t : Nat) (f : Func) (s : State) : Host.Outcome State Fault Refusal :=
  .next ((s.tick t).pwrCmd f fun s k =>
    if k ≠ s.pwOwner then s.pwrDone k 2 0
    else if !s.flag PM_STAT_FSLEPT 0 then s.pwrDone k 4 0
    else (s.leaveFabricSleep 2).pwrDone k 0 0)

end Sys2Proof.Machine
end

