-- ==== Sys2Proof/Machine/Time.lean ====
section
/-! DEFINITION. The time unit: states, offsets, slew and step, SYNC, PPS, alarms, reference messages (chapter 09). -/

namespace Sys2Proof.Machine

/-! ### Shared -/

/-- Changing the time unit. -/
def State.setTime (s : State) (f : TimeSt → TimeSt) : State := { s with time := f s.time }

/-- The time owner. -/
def State.timeOwner (s : State) : Nat := s.rd TU_CFG_TOWNER 0

/-- FREQ takes a value; the history of the present LOCKED follows (R435). -/
def State.setFreq (s : State) (z : Int) : State :=
  ((s.wr TU_FREQ_FREQ 0 (toTwos 24 (clampAdj z))).setTime fun u => { u with freqs := u.freqs ++ [(u.ivl, clampAdj z)] }).timeMark

/-- The time-weighted sum of the FREQ history from interval count `a0` to `a1`. -/
def freqSum (a0 a1 : Nat) : List (Nat × Int) → Int
  | [] => 0
  | (a, v) :: rest =>
    let stop := match rest with | [] => a1 | (b, _) :: _ => b
    (((min stop a1) - (max a a0) : Nat) : Int) * v + freqSum a0 a1 rest

/-- The holdover frequency (R435): the mean of FREQ over the last 600 s of LOCKED, or over the whole of it. -/
def State.holdoverFreq (s : State) : Int :=
  let from_ := max s.time.lockedAt (s.time.ivl - 600000000000 * ivlNs)
  let d := s.time.ivl - from_
  if d = 0 then s.freq else freqSum from_ s.time.ivl s.time.freqs / (d : Int)

/-- STATE takes a value: TU_EVT and TIME_STATE (R433, R471). -/
def State.setTimeState (s : State) (new why : Nat) : State :=
  let old := s.rd TU_STAT_STATE 0
  if old = new then s
  else
    let count := if old = 2 then s.holdSeconds else s.discSeconds
    let s := if old = 2 then s.wr TU_HOLD_SECONDS 0 s.holdSeconds else s
    let s := (s.wr TU_STAT_STATE 0 new).setTime fun u =>
      if new = 1 then { u with lockedAt := u.ivl, freqs := [(u.ivl, s.freq)] }
      else if new = 2 then { u with holdAt := u.ivl } else u
    (s.evt TU_EVT_EVT 0 (if new = 1 then 0 else if new = 2 then 1 else 2)).eventLim s.timeOwner 0x0501 0
      ([BitVec.ofNat 8 old, BitVec.ofNat 8 new, BitVec.ofNat 8 why] ++ leBytes 3 count)

/-- The reference is lost (R433, R446). -/
def State.loseReference (s : State) : State :=
  if s.rd TU_STAT_STATE 0 ≠ 1 then s
  else
    let s := s.bump TU_LOSS_COUNT 0
    if s.time.ivl - s.time.lockedAt ≥ 10000000000 * ivlNs then
      let z := s.holdoverFreq
      (s.setTimeState 2 1).setFreq z
    else s.setTimeState 0 4

/-! ### Slew and step (R449-R454) -/

/-- The alarm time in 2^-8 ns. -/
def State.alarmTime (s : State) : Nat :=
  (s.rd TU_ALARM0_NS_15_0 0 + s.rd TU_ALARM1_NS_39_16 0 * 2 ^ 16 + s.rd TU_ALARM2_NS_63_40 0 * 2 ^ 40) * 256 + s.rd TU_ALARM0_FRAC 0

/-- The armed alarm fires, late or not (R453). -/
def State.fireAlarm (s : State) (late : Bool) : State :=
  ((s.put TU_ALCTL_ARMED 0 false).put TU_ALCTL_LATE 0 late).evt TU_EVT_EVT 0 5

/-- Fabric time takes a new value (R451): the epoch advances, deadlines passed fire late, the next second boundary sends no pulse. -/
def State.stepTime (s : State) (fab why : Nat) : State :=
  let before := s.ns
  let s := (s.setTime fun u => { u with fab := fab % 2 ^ 96, slewRem := 0 }).put TU_STAT_SLEW 0 false
  let after := s.ns
  let s := (((s.wr TU_EPOCH_EPOCH 0 (s.rd TU_EPOCH_EPOCH 0 + 1)).put TU_STAT_SUPP_PEND 0 true).bump TU_STEPS_COUNT 0).timeMark
  let s := (s.evt TU_EVT_EVT 0 3).eventLim s.timeOwner 0x0502 0
    (leBytes 8 (toTwos 64 ((after : Int) - (before : Int))) ++ leBytes 3 (s.rd TU_EPOCH_EPOCH 0) ++ [BitVec.ofNat 8 why])
  let s := if s.flag TU_ALCTL_ARMED 0 && decide (s.alarmTime ≤ s.time.fab / 2 ^ 24) then s.fireAlarm true else s
  let s := s.setTime fun u => { u with ppsSec := [] }
  let s := (List.range 192).foldl (fun (s : State) l => s.setTime fun u => { u with ppsSec := tset 0 u.ppsSec l ((after - 1) / 1000000000) }) s
  let s := (List.range 64).foldl (fun (s : State) p =>
    if s.rd FB_ROLE_TTROLE p = 1 then s.setTt p fun x => { x with seenNs := after } else s) s
  s.stepSchedules before

/-- An offset (in 2^-8 ns, positive: the node is ahead) is removed: slewed up to 1 ms, else stepped (R450, R451); whether it stepped. -/
def State.removeOffset (s : State) (o : Int) (why : Nat) : State × Bool :=
  if o.natAbs ≤ 1000000 * 256 then
    (((s.setTime fun u => { u with slewRem := -o * 2 ^ 24 }).put TU_STAT_SLEW 0 (o != 0)).timeMark, false)
  else (s.stepTime ((s.time.fab : Int) - o * 2 ^ 24).toNat why, true)

/-- A reference is accepted with its offset (R433, R434, R447, R450). -/
def State.acceptRef (s : State) (o : Int) : State :=
  let first := !s.time.accepted
  let s := s.put TU_STAT_VALID 0 true
  let ns := max (-8388607 : Int) (min 8388607 (o / 256))
  let s := s.wr TU_OFFSET_OFFSET 0 (toTwos 24 ns)
  let s := (s.removeOffset o (if first then 3 else 1)).1
  let s := (s.setTime fun u => { u with accepted := true, offs := (u.ivl, o) :: u.offs }).setTimeState 1 2
  s.setFreq (fromTwos 24 (Config.servoFreq s.time.offs % 2 ^ 24))

/-! ### SYNC (R438-R446, R558) -/

/-- One master is better than another: VALID, then lower TMPRI, then lower node (R438). -/
def betterMaster (v p n v' p' n' : Nat) : Bool :=
  decide (v > v' ∨ (v = v' ∧ (p < p' ∨ (p = p' ∧ n < n'))))

/-- The master of this node changes: TU_EVT and TIME_MASTER (R470, R471). -/
def State.masterEvent (s : State) : State :=
  (s.evt TU_EVT_EVT 0 6).eventLim s.timeOwner 0x0503 0
    [BitVec.ofNat 8 (s.rd TU_MASTER_NODE 0), BitVec.ofNat 8 (s.rd TU_MASTER_TMPRI 0), BitVec.ofNat 8 (s.rd TU_MASTER_HOPS 0),
     BitVec.ofNat 8 (s.rd TU_MASTER_RING 0), BitVec.ofNat 8 (s.rd TU_STAT_MASTER 0)]

/-- The stream heard on a ring. -/
def State.heardOn (s : State) (ring : Nat) : SyncHeard := if ring = 0 then s.time.heardA else s.time.heardB
/-- A SYNC of a stream is heard on a ring. -/
def State.noteHeard (s : State) (ring : Nat) (h : SyncHeard) : State :=
  s.setTime fun u => if ring = 0 then { u with heardA := h } else { u with heardB := h }

/-- A SYNC period in units of 125 µs, on the interval count. -/
def syncSpan (per n : Nat) : Nat := per * 125000 * ivlNs * n

/-- The stream of a master on a ring is current: heard within 4 periods. -/
def State.streamLive (s : State) (ring node : Nat) : Bool :=
  let h := s.heardOn ring
  h.node == node && decide (s.time.ivl < h.at_ + syncSpan s.time.syncPer 4)

/-- A followed master's SYNC on ring `ring`: whether it is taken from that ring, as R444 chooses; 4 smaller hop counts in a row on the other
ring are counted across the present ring's cells. -/
def State.ringTaken (s : State) (ring node hops : Nat) (following : Bool) : State × Bool :=
  let cur := s.rd TU_MASTER_RING 0
  let other := 1 - ring
  if !following then (s, !s.streamLive other node || decide (hops < (s.heardOn other).hops ∨ (hops = (s.heardOn other).hops ∧ ring = 0)))
  else if ring = cur then (s, true)
  else if !s.streamLive cur node then (s, true)
  else if hops < (s.heardOn cur).hops then
    let n := s.time.smaller + 1
    (s.setTime fun u => { u with smaller := if n ≥ 4 then 0 else n }, decide (n ≥ 4))
  else (s.setTime fun u => { u with smaller := 0 }, false)

/-- The outlier judgement of R445: in LOCKED, against the servo's expected offset, which is free; the ninth in a row is accepted. A node that sends
as master accepts a better master's SYNC as a returning reference (R467). -/
def State.isOutlier (s : State) (o : Int) : Bool :=
  s.rd TU_STAT_STATE 0 == 1 && !s.flag TU_STAT_MASTER 0 && decide (s.time.outliers < 8)
    && decide ((o - Config.servoExpected s.time.ivl s.time.offs).natAbs > s.rd TU_SYNC_OUTLIER 0 * 1000 * 256)

/-- An offset is discarded (R445). -/
def State.discardSync (s : State) : State :=
  let n := s.time.outliers + 1
  let s := (s.setTime fun u => { u with outliers := n }).bump TU_OUTLIER_COUNT 0
  if n = 8 then s.evt TU_EVT_EVT 0 10 else s

/-- The SYNC cell fields (R519). -/
def syncPri (c : Cell) : Nat := cellField c 16 1 % 16
def syncValid (c : Cell) : Nat := bitsOf (cellField c 16 1) 4 1
def syncState (c : Cell) : Nat := bitsOf (cellField c 16 1) 5 2

/-- This node stops sending as master (R439, R467). -/
def State.stopMaster (s : State) : State := s.put TU_STAT_MASTER 0 false

/-- A SYNC that arrived on `port`, taken by the time unit from a master it follows from now on (R442, R447). Every SYNC accepted under TMPRI 0 is
a better master's, since such a node is never master (R438). -/
def State.followSync (s : State) (port : Nat) (c : Cell) (following : Bool) : State :=
  let ring := ringOf port
  let o : Int := (s.time.fab / 2 ^ 24 : Nat) - ((cellField c 20 8 * 256 + cellField c 28 1 : Nat) : Int) - syncCorr c
    - (s.rdA TU_LDLY_DELAY 0 port : Int)
  if s.isOutlier o then s.discardSync
  else
    let s := s.stopMaster.bump TU_SYNC_RX_COUNT 0
    let s := (((((s.wr TU_MASTER_NODE 0 c.src).wr TU_MASTER_HOPS 0 (min 255 (c.hops + 1))).wr TU_MASTER_TMPRI 0 (syncPri c)).wr
      TU_MASTER_MSTATE 0 (syncState c)).wr TU_MASTER_MVALID 0 (syncValid c)).wr TU_MASTER_RING 0 ring
    let s := s.setTime fun u => { u with syncAt := u.ivl, syncPer := cellField c 17 1, outliers := 0, smaller := if following then u.smaller else 0 }
    let own := s.rd TU_CFG_TMPRI 0 = 0 ∨ betterMaster (syncValid c) (syncPri c) c.src (s.rd TU_STAT_VALID 0) (s.rd TU_CFG_TMPRI 0) s.node
    let s := if own then s.setTime fun u => { u with betterAt := s.now } else s
    let s := s.acceptRef o
    if following then s else s.masterEvent

/-- The time unit judges a SYNC that arrived with the forward traffic on `port` (R434, R438, R439, R444). -/
def State.judgeSync (s : State) (port : Nat) (c : Cell) : State :=
  let ring := ringOf port
  if c.src = s.node ∨ (s.flag TU_STAT_VALID 0 ∧ syncValid c = 0) then s
  else
    let h : SyncHeard := ⟨c.src, c.hops + 1, s.time.ivl⟩
    if s.flag TU_STAT_MASTER 0 then
      if betterMaster (syncValid c) (syncPri c) c.src (s.rd TU_STAT_VALID 0) (s.rd TU_CFG_TMPRI 0) s.node then
        (s.noteHeard ring h).followSync port c false
      else s
    else
      let m := s.rd TU_MASTER_NODE 0
      let live := s.streamLive 0 m || s.streamLive 1 m
      let following := m == c.src
      if !following && live
          && !betterMaster (syncValid c) (syncPri c) c.src (s.rd TU_MASTER_MVALID 0) (s.rd TU_MASTER_TMPRI 0) m then s
      else
        let (s, take) := s.ringTaken ring c.src (c.hops + 1) (following && live)
        let s := s.noteHeard ring h
        if take then s.followSync port c following else s

/-- A SYNC cell corrected for the link it arrived on and for its way to the lane's queue, which the command gives; its wait there is added where it
leaves (R441, R558). -/
def State.correctSync (s : State) (port : Nat) (c : Cell) (resid : Nat) : Cell :=
  { addCorr c ((s.rdA TU_LDLY_DELAY 0 port : Int) + (resid : Int)) with inAt := some (s.time.fab / 2 ^ 24) }

/-- A SYNC cell on a lane: judged where it joins the forward traffic, forwarded corrected, removed at its source (R558). -/
def State.syncIn (s : State) (port : Nat) (c : Cell) (resid : Nat) : State :=
  let ring := ringOf port
  let x := s.correctSync port c resid
  if !s.isForward port then s.passBack port x
  else if c.src = s.node then s
  else
    let s := s.judgeSync port c
    if c.hops + 1 ≥ 500 then s.hopLimit ring c else s.forward port x

/-- SYNC: a SYNC cell is received with its residence time in this node. -/
def execSyncCell (t port : Nat) (x : SyncCell) (s : State) : Host.Outcome State Fault Refusal :=
  let s := s.tick t
  if x.cell.typ ≠ 3 then .next s
  else
    let (s, ok) := s.accept port x.cell
    .next (if ok then s.syncIn port x.cell x.resid else s)

/-- SYNC_SEND: the master sends one SYNC cell on each ring (R440); its origin time is taken where it leaves. (DEDUCED, log entry 90.) -/
def execSyncSend (t : Nat) (s : State) : Host.Outcome State Fault Refusal :=
  let s := s.tick t
  if !s.flag TU_STAT_MASTER 0 || s.rd TU_CFG_TMPRI 0 == 0 then .next s
  else
    let seq := (s.time.seq + 1) % 65536
    let s := s.setTime fun u => { u with seq := seq }
    let b := s.rd TU_CFG_TMPRI 0 + s.rd TU_STAT_VALID 0 * 16 + s.rd TU_STAT_STATE 0 * 32
    let c := s.broadcast 3 (leBytes 1 b ++ leBytes 1 (s.rd TU_SYNC_SYNCPER 0) ++ leBytes 2 seq ++ leBytes 8 s.ns ++ leBytes 1 s.frac
      ++ [0, 0, 0])
    let rings := [0, 1].filter fun r => s.ringOn r
    .next (rings.foldl (fun (s : State) r => (s.insertCell r c).1) s)

/-- MASTER_TIMEOUT: no better master for 4 + TMPRI periods; the node sends as master and loses the stream it followed (R439). -/
def execMasterTimeout (t : Nat) (s : State) : Host.Outcome State Fault Refusal :=
  let s := s.tick t
  let pri := s.rd TU_CFG_TMPRI 0
  if pri = 0 || s.flag TU_STAT_MASTER 0 || s.noImage
      || decide (s.now < s.time.betterAt + (4 + pri) * s.rd TU_SYNC_SYNCPER 0 * 125 * tqPerUs) then .next s
  else
    let s := s.loseReference.put TU_STAT_MASTER 0 true
    let s := (((((s.wr TU_MASTER_NODE 0 s.node).wr TU_MASTER_HOPS 0 0).wr TU_MASTER_TMPRI 0 pri).wr TU_MASTER_MSTATE 0
      (s.rd TU_STAT_STATE 0)).wr TU_MASTER_MVALID 0 (s.rd TU_STAT_VALID 0)).wr TU_MASTER_RING 0 0
    .next s.masterEvent

/-- REFERENCE_LOSS: no SYNC accepted for 4 periods of the last accepted cell (R446). -/
def execReferenceLoss (t : Nat) (s : State) : Host.Outcome State Fault Refusal :=
  let s := s.tick t
  .next (if !s.flag TU_STAT_MASTER 0 && decide (s.time.ivl ≥ s.time.syncAt + syncSpan s.time.syncPer 4) then s.loseReference else s)

/-- HOLDOVER_TIMEOUT: TU_HOLD reaches HOLDMAX (R433). -/
def execHoldoverTimeout (t : Nat) (s : State) : Host.Outcome State Fault Refusal :=
  let s := s.tick t
  let m := s.rd TU_LIMITS_HOLDMAX 0
  .next (if s.rd TU_STAT_STATE 0 = 2 ∧ m ≠ 0 ∧ s.holdSeconds ≥ m then s.setTimeState 0 3 else s)

/-- SLEW_END: nothing remains to slew (R450). -/
def execSlewEnd (t : Nat) (s : State) : Host.Outcome State Fault Refusal :=
  let s := s.tick t
  .next (if s.time.slewRem = 0 then s.put TU_STAT_SLEW 0 false else s)

/-! ### Link delays (R443, R520, R559) -/

/-- The time base count in 2^-8 ns. -/
def State.timeBase (s : State) : Nat := (s.now - s.time.tb0) * 1600

/-- A DELAY cell of this node to its neighbour. -/
def State.delayMsg (s : State) (port answer t2 t13 : Nat) : Cell :=
  { typ := 7, vc := 0, origin := 3, dst := s.nb port 8 % 256, src := s.node, tenant := 0, tag := 0, op := 0, gaddr := 0
    body := padTo 80 (leBytes 4 answer ++ leBytes 8 t2 ++ [0, 0, 0, 0] ++ leBytes 8 t13) }

/-- DELAY_MEASURE: every 125 ms a port that is UP begins an exchange (R443). -/
def execDelayMeasure (t port : Nat) (s : State) : Host.Outcome State Fault Refusal :=
  let s := s.tick t
  if !isRingPort port ∨ s.lstate port ≠ 4 then .next s
  else .next ((s.sendNow port (s.delayMsg port 0 0 s.timeBase)).setTime fun u => { u with delayT1 := tset none u.delayT1 port (some s.timeBase) })

/-- A DELAY cell from the neighbour: a request is answered, an answer ends the exchange; TU_LDLY is the mean of the last 16 (R443). -/
def State.delayIn (s : State) (port : Nat) (c : Cell) : State :=
  if cellField c 16 1 = 0 then s.sendNow port (s.delayMsg port 1 s.timeBase s.timeBase)
  else match tget none s.time.delayT1 port with
    | none => s
    | some t1 =>
      let d := ((s.timeBase - t1) - (cellField c 32 8 - cellField c 20 8)) / 2
      let l := (d :: tget [] s.time.delays port).take 16
      let s := s.setTime fun u => { u with delayT1 := tset none u.delayT1 port none, delays := tset [] u.delays port l }
      s.wrA TU_LDLY_DELAY 0 port (l.sum / l.length)

/-- DELAY: a DELAY cell, never forwarded (R520). (DESIGN CHOICE, log entry 48.) -/
def execDelayCell (t port : Nat) (c : Cell) (s : State) : Host.Outcome State Fault Refusal :=
  let s := s.tick t
  if c.typ ≠ 7 then .next s
  else
    let (s, ok) := s.accept port c
    .next (if ok then s.delayIn port c else s)

/-! ### References at the master (R448) and fast edges (R503-R505) -/

/-- The offset of an edge timestamp (2^-8 ns) from the nearest whole second, from -500 ms to below +500 ms. -/
def ppsOffset (x : Nat) : Int :=
  let sec := 1000000000 * 256
  let r := x % sec
  if r < sec / 2 then (r : Int) else (r : Int) - sec

/-- A rising edge of PPSIN_LINE with its timestamp in 2^-8 ns (R448). -/
def State.ppsInput (s : State) (stamp : Nat) : State :=
  let ok := match s.time.ppsEdge with
    | none => true
    | some a => decide (s.time.ivl ≥ a + 999500000 * ivlNs ∧ s.time.ivl ≤ a + 1000500000 * ivlNs)
  if !ok then s.setTime fun u => { u with ppsRun := 0 }
  else
    let n := s.time.ppsRun + 1
    let s := s.setTime fun u => { u with ppsEdge := some u.ivl, ppsRun := n }
    let s := if n ≥ 3 then s.put TU_STAT_PPSIN_OK 0 true else s
    if s.flag TU_STAT_PPSIN_OK 0 && s.flag TU_STAT_MASTER 0 then s.acceptRef (ppsOffset stamp) else s

/-- FAST_EDGE: a level change of a CNT or TS line that has held for 16 tq; its time is the first of them (R503, R505). -/
def execFastEdge (t b line : Nat) (rise : Bool) (s : State) : Host.Outcome State Fault Refusal :=
  let s := s.tick t
  let fn := s.lineFn b line
  if !s.bankUp b || (fn != 3 && fn != 4) || (s.bank b).breaking line || bitAt (s.bank b).refDue line
      || bitAt (s.rd DB_IN_LEVEL b) line == rise then .next s
  else
    let s := s.setLevel b line rise
    let at_ := s.stampAgo 16
    let stamp := at_.fab / 2 ^ 24
    let s := if fn = 4 then s.reportEdge b ⟨rise, line, stamp / 256 % 2 ^ 64, stamp % 256, at_.epoch % 256⟩
      else if rise then
        let v := s.rdA DB_CNT_COUNT b line
        let s := (s.wrA DB_CNT_COUNT b line (v + 1)).note (DB_CNT_COUNT.key b line) .count 1
        if v + 1 = 2 ^ 24 then (s.evt DB_CNTOVF_OVF b line).evt DB_EVT_EVT b 5 else s
      else s
    .next (if fn = 4 && rise && s.flag TU_CFG_PPSIN_EN 0 && s.rd TU_PPS_PPSIN_LINE 0 == b * 16 + line then s.ppsInput stamp else s)

/-- PPS_INPUT_LOSS: 2 s without an accepted edge; the master's reference is lost (R432, R448, R469). (DESIGN CHOICE, log entry 47.) -/
def execPpsInputLoss (t : Nat) (s : State) : Host.Outcome State Fault Refusal :=
  let s := s.tick t
  match s.time.ppsEdge with
  | some a =>
    if s.time.ivl < a + 2000000000 * ivlNs then .next s
    else
      let was := s.flag TU_STAT_PPSIN_OK 0
      let s := (s.setTime fun u => { u with ppsEdge := none, ppsRun := 0 }).put TU_STAT_PPSIN_OK 0 false
      if !was then .next s
      else if s.flag TU_STAT_MASTER 0 && s.rd TU_STAT_STATE 0 == 1 then .next s.loseReference
      else .next (s.bump TU_LOSS_COUNT 0)
  | none => .next s

/-! ### Host settings and deadlines (R449, R453) -/

/-- The parts of the TU_SET group as one time in 2^-8 ns. -/
def State.setValue (s : State) : Nat :=
  (s.rd TU_SET0_NS_15_0 0 + s.rd TU_SET1_NS_39_16 0 * 2 ^ 16 + s.rd TU_SET2_NS_63_40 0 * 2 ^ 40) * 256 + s.rd TU_SET0_FRAC 0

/-- What a commit of TU_SET does: the state after it and RESULT (R449); a D of 0, too, replaces the remaining slew (R450, R467). -/
def State.setFabric (s : State) : State × Nat :=
  if !s.flag TU_CFG_HOSTSET 0 then (s, 3)
  else if !s.flag TU_STAT_MASTER 0 then (s, 4)
  else
    let first := s.put TU_STAT_VALID 0 true
    let d : Int := (s.setValue : Int) - ((s.time.fab / 2 ^ 24 : Nat) : Int)
    let sec : Int := 1000000000 * 256
    if s.flag TU_STAT_PPSIN_OK 0 then
      let k := (d + sec / 2) / sec
      if k = 0 then (first, 2) else (first.stepTime ((s.time.fab : Int) + k * sec * 2 ^ 24).toNat 2, 1)
    else
      let (s, stepped) := first.removeOffset (-d) 2
      (s, if d = 0 then 2 else if stepped then 1 else 0)

/-- TU_SET: the write of TU_SET2 commits the group; the time owner's commit sets fabric time on the master (R449). (DEDUCED, log entry 56.) -/
def execTuSet (t : Nat) (f : Func) (v : Nat) (s : State) : Host.Outcome State Fault Refusal :=
  .next ((s.tick t).hostWrite f 0x80048 fun s =>
    let s := s.commitGroup f ⟨.tu, 0, 0, 0x48, false⟩ 0x40 3 v
    if s.tn f ≠ s.timeOwner then s
    else
      let (s, r) := s.setFabric
      let s := (s.wr TU_SETRES_SEQ 0 (s.rd TU_SETRES_SEQ 0 + 1)).wr TU_SETRES_RESULT 0 r
      if r ≤ 2 then s.evt TU_EVT_EVT 0 11 else s)

/-- TU_ALARM: the write of TU_ALARM2 commits the group and arms the alarm; a time already past fires late at once (R453). -/
def execTuAlarm (t : Nat) (f : Func) (v : Nat) (s : State) : Host.Outcome State Fault Refusal :=
  .next ((s.tick t).hostWrite f 0x80038 fun s =>
    let s := (s.commitGroup f ⟨.tu, 0, 0, 0x38, false⟩ 0x30 3 v).put TU_ALCTL_ARMED 0 true
    if s.alarmTime < s.time.fab / 2 ^ 24 then s.fireAlarm true else s)

/-- ALARM_DISARM. -/
def execAlarmDisarm (t : Nat) (f : Func) (s : State) : Host.Outcome State Fault Refusal :=
  .next ((s.tick t).hostWrite f 0x8003C fun s => s.put TU_ALCTL_ARMED 0 false)

/-- ALARM_FIRE: fabric time has reached the armed alarm (R453). -/
def execAlarmFire (t : Nat) (s : State) : Host.Outcome State Fault Refusal :=
  let s := s.tick t
  .next (if s.flag TU_ALCTL_ARMED 0 && decide (s.alarmTime ≤ s.time.fab / 2 ^ 24) then s.fireAlarm false else s)

/-! ### The PPS output (R455-R458) -/

/-- The state of the time unit lets a pulse out (R457). -/
def State.ppsGate (s : State) : Bool :=
  let st := s.rd TU_STAT_STATE 0
  match s.rd TU_CFG_PPS_GATE 0 with
  | 0 => true
  | 1 => st == 1 || st == 2
  | 2 => st == 1
  | _ => false

/-- PPS_ON: fabric time reaches a whole second; the line turns on, but for the first boundary after a step and where the gate stops it. That
boundary clears SUPP_PEND also where the line is no PPS output (R458). (DEDUCED, log entry 112.) -/
def execPpsOn (t line : Nat) (s : State) : Host.Outcome State Fault Refusal :=
  let s := s.tick t
  let b := line / 16
  let j := line % 16
  let sec := s.ns / 1000000000
  if line ≥ 192 || sec ≤ tget 0 s.time.ppsSec line then .next s
  else
    let s := s.setTime fun u => { u with ppsSec := tset 0 u.ppsSec line sec }
    let s := if !s.isPps b j || s.bankForced b then s else s.setBank b fun d => { d with ppsWait := clearBitAt d.ppsWait j }
    if s.flag TU_STAT_SUPP_PEND 0 then
      .next (((s.put TU_STAT_SUPP_PEND 0 false).bump TU_PPS_SUPP_COUNT 0).setTime fun u => { u with suppSec := some sec })
    else if !s.isPps b j ∨ s.time.suppSec = some sec ∨ !s.ppsGate then .next s
    else
      let s := s.setTime fun u => { u with ppsOff := tset 0 u.ppsOff line (u.ivl + s.rd TU_PPS_PPSW 0 * 1000000 * ivlNs) }
      .next ((s.setBank b fun d => { d with pps := setBitAt d.pps j }).refreshDrive b |>.evt TU_EVT_EVT 0 4)

/-- PPS_OFF: PPSW ms of interval count after it turned on (R456). -/
def execPpsOff (t line : Nat) (s : State) : Host.Outcome State Fault Refusal :=
  let s := s.tick t
  let b := line / 16
  let j := line % 16
  if bitAt (s.bank b).pps j && decide (s.time.ivl ≥ tget 0 s.time.ppsOff line) then
    .next ((s.setBank b fun d => { d with pps := clearBitAt d.pps j }).refreshDrive b)
  else .next s

/-! ### ISO 11898-4 (R460-R464) -/

/-- The role of a port (R459): 1 time master, 2 time slave. -/
def State.ttRole (s : State) (p : Nat) : Nat := s.rd FB_ROLE_TTROLE p

/-- RM_ID of a port. -/
def State.rmId (s : State) (p : Nat) : Nat := s.rdA TT_RD1_RM_ID_L 0 p + s.rdA TT_RD2_RM_ID_H 0 p * 2 ^ 24

/-- The reference message of a cycle (R461). -/
def State.refFrame (s : State) (p k : Nat) : Frame :=
  let n := s.rdA TT_RD0_RM_DLC 0 p
  { id := s.rmId p, ide := s.rdA TT_RD0_RM_IDE 0 p != 0, rtr := false, fdf := false, brs := false, dlc := n
    data := padTo n [BitVec.ofNat 8 (k % (s.rdA TT_RD0_CCMAX 0 p + 1))] }

/-- A received frame is a reference message of the port (R460). -/
def State.isReference (s : State) (p : Nat) (h : Header) : Bool :=
  s.ttRole p != 0 && !h.fdf && !h.rtr && decide (h.dlc ≥ 1) && h.ide == (s.rdA TT_RD0_RM_IDE 0 p != 0) && h.id / 8 == s.rmId p / 8

/-- SYNC_OK takes a value: TT_SYNC at a change (R464, R471). -/
def State.setSyncOk (s : State) (p : Nat) (on : Bool) (why : Nat) : State :=
  if (s.rdA TT_RD0_SYNC_OK 0 p != 0) == on then s
  else ((s.wrA TT_RD0_SYNC_OK 0 p (b2n on)).evt TU_EVT_EVT 0 8).eventLim (s.fbOwner p) 0x0505 p [BitVec.ofNat 8 (b2n on), BitVec.ofNat 8 why]

/-- The master's own submission gives way to a reference message of higher priority (R462), also one that lost to it in a gap, whose outcome is
still held. -/
def State.deferRef (s : State) (p : Nat) : State :=
  let lost := (s.port p).heldOut == some .lost
  let mine := (s.queue p).entries.any fun e =>
    (!e.inflight || (lost && !e.expired)) && (match e.src with | .device _ .reference => true | _ => false)
  if mine then
    let s := ((s.withdrawDev p .reference).settleFaults.setActing p false).ttCount TT_RD11_DEFER p
    s.ttMaster p 1
  else s

/-- A reference message received from another node (R462-R464), with the SOF timestamp. -/
def State.refReceived (s : State) (p : Nat) (h : Header) (data : List Byte) (ns frac epoch ivl : Nat) : State :=
  let cc := (data.headD 0).toNat % 64
  let max_ := s.rdA TT_RD0_CCMAX 0 p
  let last := (s.ttSt p).last
  let s := (s.setMark p ns frac epoch ivl cc).setTt p fun x => { x with last := if cc > max_ then none else some cc }
  if s.ttRole p = 1 then (if h.id % 8 < s.rmId p % 8 then s.deferRef p else s)
  else if cc > max_ then s.setSyncOk p false 4
  else match last with
    | none => s
    | some l => if cc = (l + 1) % (max_ + 1) then s.setSyncOk p true 1 else s.setSyncOk p false 3

/-- TT_CYCLE_START: fabric time reaches the start of a cycle of a time master port (R461, R462). -/
def execTtCycleStart (t p : Nat) (s : State) : Host.Outcome State Fault Refusal :=
  let s := s.tick t
  let len := s.rdA TT_RD3_CYC_LEN 0 p * 1000
  let org := s.rdA TT_RD4_ORIGIN 0 p * 1000
  if s.ttRole p ≠ 1 ∨ len = 0 ∨ s.ns < org then .next s
  else
    let k := (s.ns - org) / len
    if org + k * len ≤ (s.ttSt p).seenNs then .next s
    else
      let s := s.setTt p fun x => { x with seenNs := s.ns }
      let waits := (s.queue p).entries.any fun e => match e.src with | .device _ .reference => !e.expired | _ => false
      let s := if waits then ((s.withdrawDev p .reference).settleFaults.ttCount TT_RD11_LATE p).ttMaster p 2 else s
      .next (s.submitDev p .reference (s.refFrame p k)).1

/-- TT_TIMEOUT: RM_TIMEOUT µs after the last mark (R464). -/
def execTtTimeout (t p : Nat) (s : State) : Host.Outcome State Fault Refusal :=
  let s := s.tick t
  if s.ttRole p = 2 ∧ s.rdA TT_RD0_SYNC_OK 0 p ≠ 0 ∧ s.time.ivl ≥ (s.ttSt p).markAt + s.rdA TT_RD5_RM_TIMEOUT 0 p * 1000 * ivlNs then
    .next (((s.setTt p fun x => { x with last := none }).ttCount TT_RD12_TIMEOUT p).setSyncOk p false 2)
  else .next s

/-- TT_CLR: the counts of the selected port become 0. -/
def execTtClr (t : Nat) (f : Func) (s : State) : Host.Outcome State Fault Refusal :=
  .next ((s.tick t).hostWrite f 0x82040 fun s =>
    let p := s.rd TT_SEL_PORT 0
    (((s.clearCount TT_RD11_LATE 0 p).clearCount TT_RD11_DEFER 0 p).clearCount TT_RD11_SKIP 0 p).clearCount TT_RD12_TIMEOUT 0 p)

end Sys2Proof.Machine
end

