-- ==== Sys2Proof/Machine/Cells.lean ====
section
/-! DEFINITION. Cells as they arrive on a lane: routing by type, and the sleep round's CONSENT and COMMIT cells (R515, R542, R561, R562,
R734-R736). -/

namespace Sys2Proof.Machine

/-! ### CONSENT and COMMIT -/

/-- Byte `i` of a cell takes a value (bytes 16 to 95 are its body). -/
def cellPut (c : Cell) (i v : Nat) : Cell := { c with body := c.body.set (i - 16) (BitVec.ofNat 8 v) }

/-- The reason for which this node refuses a CONSENT cell; 0 where it consents (R561, R734). -/
def State.consentReason (s : State) (c : Cell) : Nat :=
  if cellField c 24 3 ≠ s.rd RG_MEPOCH_EPOCH 0 then 1
  else if s.sleepRefused then 2
  else if s.flag RG_STAT_STOP 0 then 3 else 0

/-- The cell after this node: its bit in the visited bitmap, and the first refusal with its reason (R561). -/
def State.consentMark (s : State) (c : Cell) : Cell :=
  let byte := 32 + s.node / 8
  let c' := cellPut c byte (setBitAt (cellField c byte 1) (s.node % 8))
  let why := s.consentReason c
  if cellField c 20 1 ≠ 0 ∨ why = 0 then c' else cellPut (cellPut c' 19 s.node) 20 why

/-- The round's cell has returned to its origin: done, with COMMIT on both rings, refused, or not every member visited (R562).
(DEDUCED, log entry 49.) -/
def State.roundBack (s : State) (c : Cell) : State :=
  match s.ring_.sleep with
  | none => s
  | some r =>
    if cellField c 16 2 ≠ r.round then s
    else if cellField c 20 1 ≠ 0 then s.endSleepRound 2 (cellField c 19 1) (cellField c 20 1)
    else if cellField c 32 32 ≠ s.memberMap then s.endSleepRound 3 0 0
    else if s.now ≥ r.by_ then s.endSleepRound 4 0 0
    else
      let s := s.endSleepRound 1 0 0
      let x := s.broadcast 6 (leBytes 2 r.round)
      ([0, 1].filter fun n => s.ringOn n).foldl (fun (s : State) n => (s.insertCell n x).1) s

/-- A CONSENT cell on a lane (R561, R562): on a forward lane it is marked, and wakes the node from fabric sleep (R736). -/
def State.consentIn (s : State) (n : Nat) (c : Cell) : State :=
  if !s.isForward n then s.passBack n c
  else
    let x := s.consentMark c
    let s := s.leaveFabricSleep 1
    if c.src = s.node then s.roundBack x
    else if c.hops + 1 ≥ 500 then s.hopLimit (ringOf n) c
    else s.forward n x

/-- CONSENT: a CONSENT cell passes the node. -/
def execConsent (t port : Nat) (c : Cell) (s : State) : Host.Outcome State Fault Refusal :=
  let s := s.tick t
  if c.typ ≠ 5 then .next s
  else
    let (s, ok) := s.accept port c
    .next (if ok then s.consentIn port c else s)

/-- A COMMIT cell reaches the node: RG_EVT bit 14, and fabric sleep (R735). -/
def State.takeCommit (s : State) : State := (s.evt RG_EVT_EVT 0 14).enterFabricSleep

/-- COMMIT: a COMMIT cell is received. -/
def execCommit (t port : Nat) (c : Cell) (s : State) : Host.Outcome State Fault Refusal :=
  let s := s.tick t
  if c.typ ≠ 6 then .next s
  else
    let (s, ok) := s.accept port c
    .next (if ok then s.broadcastIn port c State.takeCommit else s)

/-! ### Any cell -/

/-- A request on a lane: passed back, removed at its source, taken by the sink, removed at the hop limit, or forwarded (R515, R539, R542). -/
def State.reqIn (s : State) (n : Nat) (c : Cell) : State :=
  if !s.isForward n then s.passBack n c
  else if c.src = s.node then s.completeCtx c.tag 7 0 0 []
  else if c.dst = s.node then s.sinkReq (ringOf n) c
  else if c.hops + 1 ≥ 500 then s.hopLimit (ringOf n) c
  else s.forward n c

/-- An accepted cell goes by its type. A SYNC cell's residence time, which this command does not give, is a free value (log entry 13). -/
def State.routeCell (s : State) (n : Nat) (c : Cell) : State :=
  match c.typ with
  | 1 => s.reqIn n c
  | 2 => s.rspIn n c
  | 3 => (s.syncIn n c (Config.residence s.fresh)).draw
  | 4 => s.broadcastIn n c fun s => s.heardMember (ringOf n) c
  | 5 => s.consentIn n c
  | 6 => s.broadcastIn n c State.takeCommit
  | _ => s.delayIn n c

/-- CELL_RECEIVE: a cell on a lane is checked, then delivered, forwarded or removed (R515, R522, R542, R546). -/
def execCellReceive (t port : Nat) (c : Cell) (s : State) : Host.Outcome State Fault Refusal :=
  let s := s.tick t
  if isRingPort port then
    let (s, ok) := s.accept port c
    .next (if ok then s.routeCell port c else s)
  else .next s

end Sys2Proof.Machine
end

