-- ==== Sys2Proof/Machine/Pair.lean ====
section
/-! DEFINITION. The pair unit's commands: heartbeats, path loss, contests, mirror records, resync, swaps (chapter 13). -/

namespace Sys2Proof.Machine

/-! ### Heartbeats and paths -/

/-- The HB cell of this unit (R605). -/
def State.ownHeartbeat (s : State) : Heartbeat :=
  { state := s.prState, mseq := s.rd PR_MSEQ_MSEQ 0, epoch := s.rd PR_EPOCH_EPOCH 0, acting := s.flag PR_STAT_ACTING 0
    pref := s.flag PR_CFG_PREFER 0, mirrorOk := s.flag PR_STAT_MIRROR_OK 0
    applied := if s.flag PR_STAT_ACTING 0 then 0 else s.rd PR_MSEQ_MSEQ 0
    schema := s.rd CU_RUN0_SCHEMA 0, digest := s.img.leaseDigest, ns := s.ns, frac := s.frac, timeEpoch := s.rd TU_EPOCH_EPOCH 0
    timeState := s.rd TU_STAT_STATE 0, timeValid := s.flag TU_STAT_VALID 0 }

/-- HB_SEND: one HB cell on each UP pair link, and a ring probe to PNODE (R606). -/
def execHbSend (t : Nat) (s : State) : Host.Outcome State Fault Refusal :=
  let s := s.tick t
  if !s.flag PR_CFG_PAIRED 0 then .next s
  else
    let s := (s.sendPair 4 (.hb s.ownHeartbeat)).1
    let s := (s.sendPair 5 (.hb s.ownHeartbeat)).1
    .next (s.request .probe 3 0 1 (s.rd PR_CFG_PNODE 0 * 2 ^ 24 + 2 * 2 ^ 20) (readBody 1))

/-- On a holding unit without a ring reference the partner's HB time is the reference, as a SYNC of hop count 1 (R612). -/
def State.pairTime (s : State) (h : Heartbeat) : State :=
  let m := s.rd TU_MASTER_NODE 0
  if s.holding && h.timeValid && s.pairLinkUp && !(s.streamLive 0 m || s.streamLive 1 m) && !s.flag TU_STAT_MASTER 0 then
    let o : Int := (s.time.fab / 2 ^ 24 : Nat) - ((h.ns * 256 + h.frac : Nat) : Int)
    let s := ((s.wr TU_MASTER_NODE 0 (s.rd PR_CFG_PNODE 0)).wr TU_MASTER_HOPS 0 1).wr TU_MASTER_MSTATE 0 h.timeState
    (s.setTime fun u => { u with syncAt := u.ivl, syncPer := 2 }).acceptRef o
  else s

/-- HB: a heartbeat on PL0, PL1 or the ring (R607); an HB cell is checked on its lane, counts on its link and may set the time. -/
def execHb (t path : Nat) (c : HbCell) (s : State) : Host.Outcome State Fault Refusal :=
  let s := s.tick t
  let h := c.beat
  if path > 2 ∨ !s.flag PR_CFG_PAIRED 0 then .next s
  else if path = 2 then .next (s.heartbeat 2 (if s.pair.partner.isNone then some h else none))
  else
    let (s, ok) := s.acceptLane (4 + path) c.lane
    .next (if ok then ((s.bump PL_HBRX_COUNT path).heartbeat path (some h)).pairTime h else s)

/-- The last heartbeat on a path. -/
def State.lastHb (s : State) (path : Nat) : Nat := if path = 0 then s.pair.hb0 else if path = 1 then s.pair.hb1 else s.pair.hbR

/-- Pair loss (R607, R609, R627). -/
def State.pairLoss (s : State) : State :=
  let s := s.endSwap 1
  let st := s.prState
  if st = prActive ∨ st = prStandby ∨ st = prSyncing then
    (if s.witnesses.isEmpty then s.role prFenced 3 else s.startContest)
  else s

/-- A heartbeat on a path waits behind the present command at the same instant (R628): an HB cell that its lane will take, or on the ring the
answer of PNODE to a probe. -/
def State.hbNow (s : State) (path : Nat) : Bool := s.pending.any fun
  | .hb t q c => decide (t ≤ s.now) && q == path && (path == 2 || (s.acceptLane (4 + path) c.lane).2)
  | .rsp t _ c => decide (t ≤ s.now) && path == 2 && c.src == s.rd PR_CFG_PNODE 0 && s.ring_.ctx.any fun x => x.tag == c.tag && x.what == .probe
  | _ => false

/-- A path is dead once no heartbeat came for 750 µs (R607). -/
def State.pathDue (s : State) (path : Nat) : Bool := s.flag (pathFlag path) 0 && decide (s.now ≥ s.lastHb path + 750 * tqPerUs)

/-- PATH_TIMEOUT: a path without a heartbeat for 750 µs is not alive; the last one to die is pair loss (R607). A heartbeat of the same instant
acts first (R628). (DEDUCED, log entry 59.) -/
def execPathTimeout (t path : Nat) (s : State) : Host.Outcome State Fault Refusal :=
  let s := s.tick t
  if path > 2 ∨ !s.pathDue path ∨ s.hbNow path then .next s
  else
    let s := ((s.put (pathFlag path) 0 false).bump PR_HBMISS_COUNT 0).prEvt 4
    let s := s.eventLim s.pairOwner 0x0902 path [1]
    .next (if s.anyPath || [0, 1, 2].any s.hbNow then s else s.pairLoss)

/-- JOIN_TIMEOUT: JOIN_TMO passes with no heartbeat on any path (R609). -/
def execJoinTimeout (t : Nat) (s : State) : Host.Outcome State Fault Refusal :=
  let s := s.tick t
  match s.pair.joinBy with
  | some a => .next (if s.prState = prJoining ∧ s.now ≥ a then s.startContest else s)
  | none => .next s

/-- Partner Cloves whose frames end at this instant count before the contest closes (R628). -/
def State.clovesNow (s : State) : State :=
  s.pending.foldl (fun (s : State) c => match c with
    | .eofEvent t p _ =>
      match (s.port p).cur with
      | some x => match x.hdr with
        | some h => if t ≤ s.now ∧ x.own.isNone ∧ h.id / 256 % 4096 = s.partnerSerial % 4096 then s.cloveReceived p h else s
        | none => s
      | none => s
    | _ => s) s

/-- CONTEST_CLOSE: the contest closes at D + 800 µs (R621); a heartbeat or a partner Clove of the same instant acts first (R628). -/
def execContestClose (t : Nat) (s : State) : Host.Outcome State Fault Refusal :=
  let s := s.tick t
  match s.pair.contestD with
  | some d => .next (if s.prState = prContest ∧ s.now ≥ d + 800 * tqPerUs ∧ ¬[0, 1, 2].any s.hbNow then s.clovesNow.closeContest else s)
  | none => .next s

/-- ISOLATION_TIMEOUT: no partner Clove for 30 ms on an isolated STANDBY unit (R624). -/
def execIsolationTimeout (t : Nat) (s : State) : Host.Outcome State Fault Refusal :=
  let s := s.tick t
  .next (if s.prState = prStandby ∧ s.flag PR_STAT_ISOL 0 ∧ s.now ≥ s.pair.cloveSeen + 30 * tqPerMs then s.startContest else s)

/-- CLOVE_PERIODIC: an acting unit with no path alive sends Clove every 10 ms (R624). -/
def execClovePeriodic (t : Nat) (s : State) : Host.Outcome State Fault Refusal :=
  let s := s.tick t
  .next (if s.flag PR_CFG_PAIRED 0 && s.flag PR_STAT_ACTING 0 && !s.anyPath && s.prState != prContest
      && decide (s.now ≥ s.pair.cloveSent + 10 * tqPerMs) then
    (s.setPair fun x => { x with cloveSent := s.now }).sendClove else s)

/-! ### Mirror records and snapshots (R613, R615) -/

/-- A record of a holding unit's mirror is applied. -/
def State.applyRecord (s : State) : MirrorBody → State
  | .entryAdd p key seq cost tenant lease sqn sqIndex tag nocomp fr =>
    let r := tenant * 256 + sqn
    let e : QEntry := { key := key, seq := seq, cost := cost, src := .tenant lease, frame := fr, ring := r, link := s.homeOf r, pos := sqIndex
                        tag := tag, nocomp := nocomp, mirror := true, born := s.now }
    if (s.queue p).entries.any (sameEntry e) then s
    else
      let s := s.setLrt lease fun x => { x with used := x.used + 1 }
      ((s.setEntries p (insertEntry (s.queue p).entries e)).bump PQ_INSERT_COUNT p).refreshHead p
  | .entryTake p seq =>
    s.setEntries p ((s.queue p).entries.map fun e => if e.mirror && e.seq == seq then { e with inflight := true, seen := none } else e)
  | .entryDone p seq outcome _ =>
    ((s.queue p).entries.filter fun e => e.mirror && e.seq == seq).foldl (fun (s : State) (e : QEntry) => s.freeEntry p e (outcome == 1) 0) s
  | .lease l used tokens _ =>
    let own := ((s.img.leases[l]?).map fun x =>
      ((s.queue x.port).entries.filter fun e => !e.mirror && e.src.lease == some l).length).getD 0
    (s.setLrt l fun x => { x with used := used + own }).setTokens l (tokens * 4096)
  | .mbox m a => s.mailArrive m a
  | .dout b state ends => (s.wr DB_OUT_CMD b state).setBank b fun d => { d with ends := ends.map fun x => (x.1, s.now + x.2) }
  | .dcnt line count => s.wrA DB_CNT_COUNT (line / 16) (line % 16) count

/-- Records that are next in MSEQ order are applied, at most `n` (R613). -/
def State.applyNext (s : State) : Nat → State
  | 0 => s
  | n + 1 =>
    let next := (s.rd PR_MSEQ_MSEQ 0 + 1) % 2 ^ 24
    match s.pair.early.find? fun r => r.mseq == next with
    | none => s
    | some r =>
      let s := s.setPair fun x => { x with early := x.early.filter fun y => y.mseq != next }
      ((s.applyRecord r.body).wr PR_MSEQ_MSEQ 0 next).applyNext n

/-- Records arrive: each MSEQ is applied once, in order, whichever link brought it first. (DEDUCED, log entry 61.) -/
def State.takeRecords (s : State) (recs : List MirrorRec) : State :=
  let fresh := recs.filter fun r =>
    let ahead := (r.mseq % 2 ^ 24 + 2 ^ 24 - s.rd PR_MSEQ_MSEQ 0) % 2 ^ 24
    decide (1 ≤ ahead ∧ ahead ≤ 4096) && !s.pair.early.any fun x => x.mseq == r.mseq
  let s := s.setPair fun x => { x with early := x.early ++ fresh }
  s.applyNext s.pair.early.length

/-- The unit holds a mirror: it syncs or stands by, paired. -/
def State.mirrors (s : State) : Bool :=
  s.flag PR_CFG_PAIRED 0 && !s.flag PR_STAT_ACTING 0 && (s.prState == prSyncing || s.prState == prStandby)

/-- A cell on a pair link is checked on its lane (R604); `act` is what it does. -/
def State.pairIn (s : State) (port : Nat) (x : LaneCell) (act : State → State) : State :=
  if isRingPort port ∨ port > 5 then s
  else
    let (s, ok) := s.acceptLane port x
    if ok then act s else s

/-- MIRROR: a MIRROR cell's records (R613). -/
def execMirrorRecs (t : Nat) (c : RecordCell) (s : State) : Host.Outcome State Fault Refusal :=
  .next ((s.tick t).pairIn c.port c.lane fun s => if s.mirrors then s.takeRecords c.recs else s)

/-- The records of a resync are applied; with the last of them the unit stands by (R609, R615). -/
def State.takeSnapshot (s : State) (recs : List MirrorRec) (last : Bool) : State :=
  if !s.mirrors || s.prState != prSyncing then s
  else
    let s := recs.foldl (fun (s : State) (r : MirrorRec) => s.applyRecord r.body) s
    if last then
      let s := (s.put PR_STAT_MIRROR_OK 0 true).prEvt 6
      (s.eventLim s.pairOwner 0x0904 0 (1 :: leBytes 3 (s.rd PR_MSEQ_MSEQ 0))).role prStandby 1
    else s

/-- SNAP: snapshot records of a resync; the last one completes it (R609, R615). (DESIGN CHOICE, log entry 31.) -/
def execSnapRecs (t : Nat) (c : RecordCell) (last : Bool) (s : State) : Host.Outcome State Fault Refusal :=
  .next ((s.tick t).pairIn c.port c.lane fun s => s.takeSnapshot c.recs last)

/-! ### The planned swap (R626) -/

/-- Pair loss falls into this instant: the PATH_TIMEOUT of every path that still is alive waits behind the present command (R628). -/
def State.lossNow (s : State) : Bool :=
  s.anyPath && [0, 1, 2].all fun p => !s.flag (pathFlag p) 0 || (s.pathDue p && s.pending.any fun
    | .pathTimeout t q => decide (t ≤ s.now) && q == p
    | _ => false)

/-- The result of a SWAP command: 0 OK, 8 NOT_ACTIVE, 9 NOT_READY, 10 BUSY, 11 NOT_PAIRED. -/
def State.swapResult (s : State) : Nat :=
  let ready := match s.pair.partner with | some h => h.state == prStandby && h.mirrorOk | none => false
  if !s.flag PR_CFG_PAIRED 0 then 11
  else if s.prState ≠ prActive ∨ s.lossNow then 8
  else if s.pair.swap.isSome then 10
  else if !ready || !s.pairLinkUp then 9 else 0

/-- SWAP: POWNER starts a planned role swap; each port stops presenting at its next boundary. -/
def execSwap (t : Nat) (f : Func) (s : State) : Host.Outcome State Fault Refusal :=
  .next ((s.tick t).hostWrite f 0xB000C fun s =>
    let r := s.swapResult
    let s := (s.wr PR_CMDRES_RESULT 0 r).wr PR_CMDRES_CMD_SEQ 0 (s.rd PR_CMDRES_CMD_SEQ 0 + 1)
    if r ≠ 0 then s
    else
      let w : SwapSt := { round := s.pair.nextSwap, at_ := s.now }
      let s := (s.setPair fun x => { x with swap := some w, nextSwap := (x.nextSwap + 1) % 256 }).put PR_STAT_SWAPPING 0 true
      (List.range 64).foldl (fun (s : State) p => s.settlePort p) s)

end Sys2Proof.Machine
end

