-- ==== Sys2Proof/Machine/Ports.lean ====
section
/-! DEFINITION. The commands of the field bus ports: frames, errors, states, recovery, the transceiver (chapters 05 to 07, R821, R822). -/

namespace Sys2Proof.Machine

/-! ### Frames taken and ended (R239, R244, R255, R315, R352) -/

/-- The bit engine takes part in bus traffic: ACTIVE, PASSIVE, or DRAINING from one of them. -/
def State.running (s : State) (p : Nat) : Bool :=
  (s.onBus p || (s.fstate p == fbDraining && (s.port p).drainFrom != fbIntegrating)) && !(s.port p).reint

/-- The bit engine may start a frame: on the bus, no frame in progress, no suspend transmission, no mode change under way (R244, R253,
R258, R266). -/
def State.mayStart (s : State) (p : Nat) : Bool :=
  let x := s.port p
  s.onBus p && !s.restricted p && x.cur.isNone && !x.tail && !x.suspend && decide (s.now ≥ x.suspEnd) && x.xcvrBy.isNone && !x.reint

/-- The loop delay that an FD frame with bit-rate switch measures once it has won arbitration (R245, R248): a free value below the ceiling of
63 tq, unless that ceiling was reached (R247). -/
def State.measureLoop (s : State) (p : Nat) (h : Header) (sat : Bool) : State :=
  if h.fdf && h.brs && s.flag FB_CFG_TDCE p && !sat then
    (((s.put FB_TDC_VALID p true).put FB_TDC_SAT p false).wr FB_TDC_DELAY p (Config.loopDelay s.fresh % 505)).draw
  else s

/-- The presented head is taken (R244, R308, R316, R613). -/
def State.takeEntry (s : State) (p : Nat) (e : QEntry) : State :=
  let s := match e.src with
    | .tenant l => (s.charge l e.cost).noteLease l
    | .device l _ => s.charge l e.cost
    | .reflex _ => s
  let s := s.setEntry p e fun e => { e with inflight := true }
  let s := match e.src with
    | .tenant _ => s.mirror (.entryTake p e.seq)
    | _ => s
  let recessive := e.frame.fdf && s.fstate p != fbActive
  let s := (s.setQueue p fun q => { q with lastKey := e.key }).setPort p fun x => { x with
    cur := some { own := some e.seq, bank := x.bank, esi := !recessive, cap := s.capWord p }, role := true, taken := some (e.seq, e.mirror) }
  let s := ((s.put FB_STAT_TXING p true).put FB_STAT_RXING p false).put FB_STAT_IDLE p false
  s.emit (.frameStart p e.frame recessive)

/-- FRAME_TAKE: at the decision instant the bit engine takes the presented head and charges its lease (R244, R315). A queue that then finds a
pointer mismatch resets, with the taken frame in flight (R334). -/
def execFrameTake (t p : Nat) (s : State) : Host.Outcome State Fault Refusal :=
  let s := s.tick t
  if !s.mayStart p then .next s
  else
    match s.presented p with
    | some e =>
      let good := (s.queue p).ptrA == (s.queue p).ptrB
      let s := s.takeEntry p e
      .next (if good then s else (s.queueReset p).settleFaults)
    | none => .next (s.checkPtrs p).settleFaults

/-- Who sent the frame in progress (R348). -/
def State.senderOf (s : State) (p : Nat) (c : CurFrame) : Sender :=
  match c.own with
  | none => .foreign
  | some _ => match s.takenEntry p with
    | some e => match e.src with
      | .tenant _ => .tenant (e.ring / 256)
      | .device _ what => .device what
      | .reflex r => .rule r
    | none => .foreign

/-- A mirror entry in flight at the partner is seen on the bus (R618). -/
def State.observe (s : State) (p : Nat) (h : Header) (data : List Byte) (ns : Nat) : State :=
  if !s.holding then s
  else
    let same := fun (f : Frame) => f.id == h.id && f.ide == h.ide && f.rtr == h.rtr && f.fdf == h.fdf && f.brs == h.brs && f.dlc == h.dlc
      && padTo (hdrLen h) f.data == padTo (hdrLen h) data
    s.setEntries p ((s.queue p).entries.map fun e =>
      if e.mirror && e.inflight && e.seen.isNone && same e.frame then { e with seen := some ns } else e)

/-- What a valid frame of another node is to the time unit, the power manager and the pair unit (R463, R723, R620, R618). -/
def State.foreignFrame (s : State) (p : Nat) (h : Header) (data : List Byte) (c : CurFrame) : State :=
  let s := if s.isReference p h then s.refReceived p h data c.ns c.frac c.epoch c.ivl else s
  ((s.aniseReceived p h data).cloveReceived p h).observe p h data c.ns

/-- The device commits the frame, or holds it during a gap: 64 at most (R352, R759, R762). -/
def State.commitOrHold (s : State) (x : RxFrame) (slot : Option Nat) : State :=
  if s.inGap then
    let s := match slot with | some k => s.freeSlot k | none => s
    if (s.port x.port).heldEof.length < 64 then s.setPort x.port fun q => { q with heldEof := q.heldEof ++ [x] }
    else s.setPort x.port fun q => { q with heldLost := q.heldLost + 1 }
  else s.commitFrame x slot true

/-- A valid frame's EOF event: the counters of the port and its lane (FB_TXOK, FB_RXOK, R392). -/
def State.countFrame (s : State) (p : Nat) (own : Bool) : State :=
  let s := ((if own then s.bump FB_TXOK_COUNT p else s.bump FB_RXOK_COUNT p).bump CL_COMMIT_CNT_COUNT (p / 16)).clCount CL_RX_COMMIT_COUNT p
  let s := if own then s.clCount CL_RX_OWN_COUNT p else s
  s.setPort p fun x => { x with rxSeq := (x.rxSeq + 1) % 2 ^ 24 }

/-- EOF_EVENT: a valid frame is committed, steered, fed to its mailbox and handed to the reflex unit (R238, R239, R249, R352). The frame's
suspend transmission follows where the port sent it while PASSIVE (R253). -/
def execEofEvent (t p : Nat) (data : List Byte) (s : State) : Host.Outcome State Fault Refusal :=
  let s := s.tick t
  match (s.port p).cur with
  | none => .next s
  | some c => match c.hdr with
    | none => .next s
    | some h =>
      let own := c.own.isSome
      let sender := s.senderOf p c
      let s := (s.countFrame p own).frameGood p own
      let x : RxFrame := { port := p, hdr := h, data := data, sender := sender, ns := c.ns, frac := c.frac, epoch := c.epoch, bank := c.bank
                           seq := (s.port p).rxSeq, cap := c.cap }
      let s := s.endCur p false
      let s := s.setPort p fun q => { q with suspend := own && s.fstate p == fbPassive }
      let s := if own then s.reportOutcome p (.sent c.ns c.frac c.epoch c.ivl) else s.foreignFrame p h data c
      .next (s.commitOrHold x c.slot).settleFaults

/-- ARBITRATION_LOST: the frame is queued again with its charge refunded; the port receives the winner (R255, R308, R318). -/
def execArbitrationLost (t p : Nat) (s : State) : Host.Outcome State Fault Refusal :=
  let s := s.tick t
  if !s.sending p then .next s
  else
    let s := s.setPort p fun x => { x with cur := x.cur.map fun (c : CurFrame) => { c with own := none }, role := false }
    let s := ((s.put FB_STAT_TXING p false).put FB_STAT_RXING p true).bump FB_ARBLOST_COUNT p
    .next (s.reportOutcome p .lost).settleFaults

/-! ### Errors (R249-R254, R267, R363) -/

/-- The failed frame's capture record, where it is one: a frame in progress that is not already in its error frame. -/
def State.failFrame (s : State) (p : Nat) (e : BusError) : State :=
  let st := s.stampAgo e.partial_.sofAgo
  let c : CurFrame := match (s.port p).cur with
    | some c => if c.hdr.isSome then c else { c with ns := st.ns, frac := st.frac, epoch := st.epoch8 }
    | none => { own := none, ns := st.ns, frac := st.frac, epoch := st.epoch8, cap := s.capWord p }
  let x : RxFrame := { port := p, hdr := e.partial_, data := e.data, sender := s.senderOf p c, ns := c.ns, frac := c.frac, epoch := c.epoch
                       bank := (s.port p).bank, seq := ((s.port p).rxSeq + 1) % 2 ^ 24, cap := c.cap }
  (s.dropTransit p).captureFailed x (errCode e.typ)

/-- An error in restricted operation: nothing is sent or counted in TEC and REC; the frame is dropped until 11 recessive bits (R254, R267). -/
def State.restrictedError (s : State) (p : Nat) (e : BusError) : State :=
  let s := s.recordError p e
  let s := if (s.port p).tail then s else s.failFrame p e
  (s.endCur p true).setPort p fun x => { x with reint := true }

/-- Suspend transmission follows a frame that the port transmitted, where it is PASSIVE by the end of its error frame (R253). -/
def State.noteSuspend (s : State) (p : Nat) : State :=
  s.setPort p fun x => { x with suspend := x.suspend || (x.role && s.fstate p == fbPassive) }

/-- The error frame of an error in or after a frame (R249, R250, R255): recorded and counted, the flag sent, the outcome of an own frame
reported with TEC already updated. -/
def State.errorFrame (s : State) (p : Nat) (e : BusError) : State :=
  let own := s.sending p
  let active := s.actsAs p != fbPassive
  let s := if e.acked && !(s.port p).role then s.frameGood p false else s
  let s := (s.recordError p e).countError p e.case_
  let s := if (s.port p).tail then s else s.failFrame p e
  let s := (s.endCur p true).emit (.errorFlag p active)
  let s := if own then s.reportOutcome p (if s.rd FB_ERRC_TEC p > 255 then .busOff else .error (e.case_ == .ackPassive)) else s
  (s.errState p).noteSuspend p

/-- The bit engine meets the condition: a receiver's error whenever it takes part; a transmitter's while it has that role; the others during an
error or overload frame. -/
def State.errorFits (s : State) (p : Nat) : ErrCase → Bool
  | .receiver => !(s.port p).role
  | .transmitter => (s.port p).role
  | .ackPassive => (s.port p).role && s.sending p && s.actsAs p == fbPassive
  | .stuffArb => (s.port p).role && s.sending p
  | .receiverDominant => (s.port p).tail && !(s.port p).role
  | .flagBit => (s.port p).tail
  | .dominantRun => (s.port p).tail

/-- An error that the bit engine meets, by its case of R249; in restricted operation nothing is sent or counted (R267). -/
def State.busError (s : State) (p : Nat) (e : BusError) : State :=
  if s.restricted p then (if (s.port p).role then s else s.restrictedError p e)
  else if !s.errorFits p e.case_ then s
  else match e.case_ with
    | .receiverDominant => (s.countError p e.case_).errState p
    | .dominantRun => ((s.countError p e.case_).errState p).noteSuspend p
    | .flagBit => (((s.recordError p e).countError p e.case_).errState p).noteSuspend p
    | _ => s.errorFrame p e

/-- FRAME_ERROR: the bit engine detects an error, sends an error flag and updates TEC or REC (R249). (DEDUCED, log entry 63.) -/
def execFrameError (t p : Nat) (e : BusError) (s : State) : Host.Outcome State Fault Refusal :=
  let s := s.tick t
  .next (if s.running p then (s.busError p e).settleFaults else s)

/-- OVERLOAD_FRAME: an overload frame for a bus condition of ISO 11898-1 (R232, R267). -/
def execOverloadFrame (t p : Nat) (_c : OverloadCause) (s : State) : Host.Outcome State Fault Refusal :=
  let s := s.tick t
  .next (if s.running p && !s.restricted p && (s.port p).cur.isNone then
      let s := (s.setPort p fun x => { x with tail := true }).bump FB_OVLD_COUNT p
      ((s.put FB_STAT_RXING p true).put FB_STAT_IDLE p false).emit (.overloadFlag p)
    else s)

/-- PROTOCOL_EXCEPTION: a recessive res bit with PEX 1 sends the bit engine into integration, without error frame or count (R234). -/
def execProtocolException (t p : Nat) (s : State) : Host.Outcome State Fault Refusal :=
  let s := s.tick t
  .next (if s.running p && s.flag FB_CFG_FDOE p && s.flag FB_CFG_PEX p && !s.sending p then
      let s := ((s.dropTransit p).endCur p true).setPort p fun x => { x with reint := true, role := false }
      ((s.bump FB_PXE_CNT_COUNT p).fbEvt p 7).protoEvt p 1 0
    else s)

/-- The port transmits an FD frame with bit-rate switch, whose header has not ended. -/
def State.measures (s : State) (p : Nat) : Bool :=
  s.sending p && (match (s.port p).cur with | some c => c.hdr.isNone | none => false)
    && (match s.takenEntry p with | some e => e.frame.fdf && e.frame.brs | none => false)

/-- TDC_SAT: a loop delay not measured within 63 tq is taken as 63 tq (R247). -/
def execTdcSat (t p : Nat) (s : State) : Host.Outcome State Fault Refusal :=
  let s := s.tick t
  .next (if s.measures p && s.flag FB_CFG_TDCE p then
      let s := s.setPort p fun x => { x with cur := x.cur.map fun (c : CurFrame) => { c with sat := true } }
      let s := ((s.put FB_TDC_VALID p true).put FB_TDC_SAT p true).wr FB_TDC_DELAY p 504
      ((s.bump FB_TDCSAT_CNT_COUNT p).fbEvt p 8).protoEvt p 2 (504 % 256)
    else s)

/-! ### Headers (R240, R345) -/

/-- A header is taken: transit slot, SOF timestamp, classification (R240, R345, R347); an own frame has its loop delay (R245). -/
def State.takeHeader (s : State) (p : Nat) (h : Header) (c : CurFrame) : State :=
  let (s, slot) := s.takeSlot { holders := 1, transit := true }
  let st := s.stampAgo h.sofAgo
  let c : CurFrame := { c with hdr := some h, slot := slot, ns := st.ns, frac := st.frac, epoch := st.epoch8, ivl := st.ivl }
  let s := s.setPort p fun x => { x with cur := some c, tail := false }
  let s := (s.put FB_STAT_RXING p c.own.isNone).put FB_STAT_IDLE p false
  let s := if c.own.isSome then s.measureLoop p h c.sat else s
  s.bump CL_HDR_CNT_COUNT (p / 16)

/-- The port does not permit the format of a received frame (R231, R235): the bit engine meets a form error at its FDF or BRS bit.
(DEDUCED for BRS, log entry 119.) -/
def State.formatError (s : State) (p : Nat) (h : Header) : Bool :=
  h.fdf && (!s.flag FB_CFG_FDOE p || (h.brs && !s.flag FB_CFG_BRSE p))

/-- That form error. -/
def State.formError (s : State) (p : Nat) (h : Header) : State :=
  (s.setPort p fun x => { x with role := false }).draw.busError p
    { typ := .form, case_ := .receiver, dataPhase := false, bitPos := Config.formPos s.fresh, partial_ := { h with fdf := s.flag FB_CFG_FDOE p, brs := false, esi := false, dlc := 0 }, data := [] }

/-- HEADER_EVENT: the assembler takes a transit slot and the header goes to its lane; the frame's SOF timestamp is that of its sample
point (R240, R345). The first event of a frame that the port did not start itself also begins it. (DESIGN CHOICE, log entry 35.) -/
def execHeaderEvent (t p : Nat) (h : Header) (s : State) : Host.Outcome State Fault Refusal :=
  let s := s.tick t
  let running := restrictable (s.fstate p) && s.fstate p != fbIntegrating && !(s.port p).reint
  match (s.port p).cur with
  | some c =>
    if c.hdr.isSome || !running then .next s
    else if c.own.isNone && s.formatError p h then .next (s.formError p h).settleFaults
    else .next (s.takeHeader p h c)
  | none =>
    .next (if !running then s
      else if s.formatError p h then (s.formError p h).settleFaults
      else (s.setPort p fun x => { x with role := false }).takeHeader p h { own := none, bank := (s.port p).bank, cap := s.capWord p })

/-! ### States (R271-R276) -/

/-- The port has integrated: ACTIVE, PASSIVE at once where its kept counters say so; a wake frame that is due is submitted (R273, R732). -/
def State.integrated (s : State) (p : Nat) : State :=
  let s := ((s.setFstate p fbActive).errState p).fbBoundary p
  if (s.an p).wakeDue then
    ((s.setAn p fun a => { a with wakeDue := false }).submitDev p .aniseWake (s.aniseFrame p 3)).1
  else s

/-- INTEGRATION_COMPLETE: 11 consecutive recessive nominal bits (R273, R274). -/
def execIntegrationComplete (t p : Nat) (s : State) : Host.Outcome State Fault Refusal :=
  let s := s.tick t
  .next (if s.fstate p = fbIntegrating ∧ (s.port p).xcvrBy.isNone then s.integrated p else s)

/-- OCCURRENCE: a port in BUS_OFF or RECOVERING counts a run of 11 recessive bits, once no mode change of its transceiver runs; the bus is idle
(R274, R279, R282). (DEDUCED, log entry 64.) -/
def execOccurrence (t p : Nat) (s : State) : Host.Outcome State Fault Refusal :=
  let s := s.tick t
  .next (if (s.fstate p = fbBusOff ∨ s.fstate p = fbRecovering) ∧ (s.port p).xcvrBy.isNone then (s.put FB_STAT_IDLE p true).wr FB_BOSUP_OCC p (min 32767 (s.rd FB_BOSUP_OCC p + 1)) else s)

/-- The seconds until the oldest automatic clear leaves the window, rounded up (R289). -/
def State.windowLeft (s : State) (p : Nat) : Nat :=
  match s.recentClears p with
  | [] => 0
  | a :: _ => (a + 3600 * tqPerS - s.now + tqPerS - 1) / tqPerS

/-- AUTO_CLEAR: the supervisor's judgement at K × 128 occurrences (R281, R282, R284). -/
def execAutoClear (t p : Nat) (s : State) : Host.Outcome State Fault Refusal :=
  let s := s.tick t
  if s.fstate p ≠ fbBusOff ∨ !s.flag FB_AR_EN p ∨ s.flag FB_BOSUP_HELD p ∨ s.rd FB_BOSUP_OCC p ≠ s.rd FB_AR_K p * 128 then .next s
  else if (s.recentClears p).length < s.rd FB_AR_LIMIT p then
    let s := (s.setPort p fun x => { x with autoClears := s.recentClears p ++ [s.now] }).bump FB_AUTOCLR_CNT_COUNT p
    .next (s.clearBusOff p 1)
  else
    .next (((s.put FB_BOSUP_HELD p true).fbEvt p 5).event (s.fbOwner p) 0x0104 p
      (BitVec.ofNat 8 (s.rd FB_AR_LIMIT p) :: leBytes 2 (s.windowLeft p)))

/-- RECOVERED: the 128th occurrence after a clear makes the port ACTIVE with both counters 0 (R273, R280). -/
def execRecovered (t p : Nat) (s : State) : Host.Outcome State Fault Refusal :=
  let s := s.tick t
  .next (if s.fstate p = fbRecovering ∧ s.rd FB_BOSUP_OCC p ≥ 128 then
      let s := (((s.zeroErrors p).put FB_STAT_BOMEM p false).wr FB_BOSUP_OCC p 0).setFstate p fbActive
      ((s.fbEvt p 4).event (s.fbOwner p) 0x0103 p (BitVec.ofNat 8 (s.port p).clearCause :: leBytes 2 (s.port p).occBefore)).fbBoundary p
    else s)

/-- The ENABLE command (R272, R273). -/
def State.cmdEnable (s : State) (p : Nat) : State × Nat :=
  let st := s.fstate p
  if st = fbDisabled then s.enableDisabled p
  else if st = fbDraining ∧ !s.flag FB_STAT_PEND_EN p then (s.put FB_STAT_PEND_EN p true, 0)
  else (s, 3)

/-- The DISABLE command. -/
def State.cmdDisable (s : State) (p : Nat) : State × Nat :=
  let st := s.fstate p
  if st = fbDisabled ∨ (st = fbDraining ∧ !s.flag FB_STAT_PEND_EN p) then (s, 3) else (s.disablePort p, 0)

/-- The CLR_BO command (R280). -/
def State.cmdClear (s : State) (p : Nat) : State × Nat := if s.fstate p = fbBusOff then (s.clearBusOff p 0, 0) else (s, 4)

/-- A write of FB_CMD with its three bits (R269, R272): bit 0 ENABLE, 1 DISABLE, 2 CLR_BO. Where an image has left the port out, RESULT 7 (R273). -/
def State.fbCommand (s : State) (p bits : Nat) : State :=
  let b := bits % 8
  let (s, r) := if s.fstate p = fbAbsent ∨ (s.port p).leaving then (s, 7)
    else if b = 1 then s.cmdEnable p
    else if b = 2 then s.cmdDisable p
    else if b = 4 then s.cmdClear p
    else (s, 2)
  (((s.wr FB_CMDRES_RESULT p r).wr FB_CMDRES_CMD_SEQ p (s.rd FB_CMDRES_CMD_SEQ p + 1)).settlePort p).settleFaults

/-- Offset of a register on page 0 of an FB port. -/
def fbOff (p o : Nat) : Nat := if p < 64 then 0x100000 + p * 0x4000 + o else absentOff

/-- ENABLE: the owner writes FB_CMD with ENABLE (R273). -/
def execEnable (t : Nat) (f : Func) (p bits : Nat) (s : State) : Host.Outcome State Fault Refusal :=
  .next ((s.tick t).hostWrite f (fbOff p 8) fun s => s.fbCommand p bits)

/-- DISABLE: the owner writes FB_CMD with DISABLE (R273). -/
def execDisable (t : Nat) (f : Func) (p bits : Nat) (s : State) : Host.Outcome State Fault Refusal :=
  .next ((s.tick t).hostWrite f (fbOff p 8) fun s => s.fbCommand p bits)

/-- CLR_BO: the owner writes FB_CMD with CLR_BO (R280). -/
def execClrBo (t : Nat) (f : Func) (p bits : Nat) (s : State) : Host.Outcome State Fault Refusal :=
  .next ((s.tick t).hostWrite f (fbOff p 8) fun s => s.fbCommand p bits)

/-- DRAIN_END: the frame in progress has ended, with its EOF or its error or overload delimiter (R265, R273, R276): a DRAINING port drains no
longer; for a port in another state the frame is over before its boundary. (DESIGN CHOICE, log entry 104.) -/
def execDrainEnd (t p : Nat) (s : State) : Host.Outcome State Fault Refusal :=
  let s := s.tick t
  .next (if (s.port p).cur.isSome then s
    else if s.fstate p = fbDraining then (s.endDrain p).settleFaults
    else if (s.port p).tail ∧ !(s.port p).reint then (s.setPort p fun x => { x with tail := false }).put FB_STAT_RXING p false
    else s)

/-- DRAIN_LIMIT: 1,200 nominal bit times after the DISABLE (R276). (DESIGN CHOICE, log entry 5.) -/
def execDrainLimit (t p : Nat) (s : State) : Host.Outcome State Fault Refusal :=
  let s := s.tick t
  .next (if s.fstate p = fbDraining ∧ s.now ≥ (s.port p).drainAt then (s.endDrain p).settleFaults else s)

/-! ### The transceiver (R258-R260, R821, R822) -/

/-- TRANSCEIVER_MODE_DONE: a mode change completes (R258, R274). -/
def execTransceiverModeDone (t p : Nat) (s : State) : Host.Outcome State Fault Refusal :=
  let s := s.tick t
  match (s.port p).xcvrBy with
  | some _ => .next ((s.setPort p fun x => { x with xcvrBy := none }).setXcvr p (s.port p).xcvrTo)
  | none => .next s

/-- TXDOM: the driver, dominant for more than 1.0 ms, is released (R259); the port's fault source asserts (R670). -/
def execTxdom (t p : Nat) (s : State) : Host.Outcome State Fault Refusal :=
  let s := s.tick t
  .next (if s.rd FB_STAT_XCVR p = 3 then
      let s := ((s.setPort p fun x => { x with txdomHold := true }).fbEvt p 10).bump FB_TXDOM_CNT_COUNT p
      (s.xcvrEvt p 2).faultAssert p (2 ^ 16 + p)
    else s)

/-- BUSDOM: the receiver sees the bus dominant for more than 1.0 ms, or no longer (R260). -/
def execBusdom (t p : Nat) (on : Bool) (s : State) : Host.Outcome State Fault Refusal :=
  let s := s.tick t
  let was := s.flag FB_STAT_BUSDOM p
  let on := on && decide (s.rd FB_STAT_XCVR p ≥ 2)
  let s := s.put FB_STAT_BUSDOM p on
  .next (if on && !was then (s.fbEvt p 9).xcvrEvt p 1 else s)

/-- TERM_ARM_DISCONNECT: an arm above 150 mA for more than 1 ms disconnects itself and asserts the thermal cause (R821, R670). -/
def execTermArmDisconnect (t p arm : Nat) (s : State) : Host.Outcome State Fault Refusal :=
  let s := s.tick t
  .next (if (s.port p).term && decide (arm < 2) && !(s.port p).armOff.contains arm then
      (s.setPort p fun x => { x with armOff := x.armOff ++ [arm] }).faultAssert p (2 * 2 ^ 16 + p)
    else s)

/-- TERM_ARM_RECONNECT: the arm reconnects 100 ms after its voltage returned below 10 V (R821). -/
def execTermArmReconnect (t p arm : Nat) (s : State) : Host.Outcome State Fault Refusal :=
  .next ((s.tick t).setPort p fun x => { x with armOff := x.armOff.filter (· != arm) })

/-- THERMAL_SHUTDOWN: above 165 °C the transceiver forces its driver recessive (R822). -/
def execThermalShutdown (t p : Nat) (s : State) : Host.Outcome State Fault Refusal :=
  let s := s.tick t
  .next (if p < 64 ∧ !(s.port p).hot then (s.setPort p fun x => { x with hot := true }).faultAssert p (2 * 2 ^ 16 + p) else s)

/-- THERMAL_RECOVERY: below 150 °C the driver follows the bit engine again; the cause ends unless a dominant time-out holds it (R822). -/
def execThermalRecovery (t p : Nat) (s : State) : Host.Outcome State Fault Refusal :=
  let s := s.tick t
  if p < 64 ∧ (s.port p).hot then
    let s := s.setPort p fun x => { x with hot := false }
    .next (if (s.port p).txdomHold then s else s.levelEnd p)
  else .next s

/-! ### Queues and the frame store (R310, R328, R391) -/

/-- TOKENS: a lease's bucket reaches the cost of its first entry; the presented head follows (R310, R336). -/
def execTokens (t lease : Nat) (s : State) : Host.Outcome State Fault Refusal :=
  let s := s.tick t
  match s.img.leases[lease]? with
  | some x => .next (s.refreshHead x.port)
  | none => .next s

/-- An entry is a reflex reply. -/
def QEntry.isReply (e : QEntry) : Bool := match e.src with
  | .reflex _ => true
  | _ => false

/-- REPLY_EXPIRY: a reply whose lifetime has passed is withdrawn and freed, or marked where it is in flight (R328). The lifetime counts nominal bit
times of the bit timing in force at the expiry. (DESIGN CHOICE, log entry 105.) -/
def execReplyExpiry (t p seq : Nat) (s : State) : Host.Outcome State Fault Refusal :=
  let s := ((s.tick t).checkPtrs p).settleFaults
  let life := s.rd PQ_CFG_RLIFE p * 16 * s.nbt p
  match (s.queue p).entries.find? fun e => e.isReply && e.seq == seq with
  | some e =>
    if life = 0 ∨ s.now < e.born + life then .next s
    else if e.inflight then .next (s.setEntry p e fun e => { e with expired := true })
    else .next ((s.freeEntry p e false 0).bump PQ_RSV_EXPIRED_COUNT p)
  | none => .next s

/-- LOWCLR: FS_LOW takes the present FREE (R391). -/
def execLowclr (t : Nat) (f : Func) (s : State) : Host.Outcome State Fault Refusal :=
  .next ((s.tick t).hostWrite f 0x2C0014 fun s => s.wr FS_LOW_LOW 0 (s.rd FS_FREE_FREE 0))

end Sys2Proof.Machine
end

