-- ==== Sys2Proof/Machine/Tx.lean ====
section
/-! DEFINITION. Descriptor rings: arming, doorbells, fetch, submission descriptors, payload slots and admission
(R153-R230, R296-R299, R331-R333). -/

namespace Sys2Proof.Machine

/-! ### Submission descriptors (R178-R189) -/

/-- `n` bytes of a descriptor from byte `off`, as a number. -/
def descField (raw : List Byte) (off n : Nat) : Nat := leNat ((raw.drop off).take n)

/-- A range of a descriptor's bytes is 0. -/
def descZero (raw : List Byte) (off n : Nat) : Bool := descField raw off n == 0

def descOp (raw : List Byte) : Nat := descField raw 0 1
def descGen (raw : List Byte) : Nat := bitsOf (descField raw 1 1) 0 1
def descNocomp (raw : List Byte) : Bool := bitAt (descField raw 1 1) 1
def descPsrc (raw : List Byte) : Nat := bitsOf (descField raw 1 1) 2 2
def descTag (raw : List Byte) : Nat := descField raw 8 4
def descHandle (raw : List Byte) : Nat := descField raw 12 3

/-- The frame of a TX_FRAME, without its data (R180). -/
def descFrame (raw : List Byte) : Frame :=
  let b := descField raw 3 1
  { id := descField raw 4 4 % 2 ^ 29, ide := bitAt b 4, rtr := bitAt b 5, fdf := bitAt b 6, brs := bitAt b 7, dlc := bitsOf b 0 4, data := [] }

/-- The number of data bytes a descriptor names: L of R181, LEN of R185, else 0. -/
def descLen (raw : List Byte) : Nat :=
  let f := descFrame raw
  if descOp raw = 1 then dataLen f.fdf f.rtr f.dlc else if descOp raw = 3 ∨ descOp raw = 5 then descField raw 3 1 else 0

/-- The bytes that follow PSRC are in order (R180, R185): with inline data the rest of bytes 16-31 is 0, with a host address bytes 24-31. -/
def payloadClean (raw : List Byte) : Bool :=
  match descPsrc raw with
  | 0 => descZero raw (16 + min 16 (descLen raw)) (16 - min 16 (descLen raw))
  | 1 => descZero raw 24 8
  | _ => true

/-- Reserved bytes and bits are 0 (R178, R180, R182, R183, R185-R187, R217); step 3 of R189. -/
def descClean (raw : List Byte) : Bool :=
  descField raw 1 1 / 16 == 0 && match descOp raw with
  | 1 => decide (descField raw 4 4 < 2 ^ 29)
      && (descPsrc raw == 3 || (descZero raw 15 1 && payloadClean raw
        && (if descPsrc raw = 2 then decide (descHandle raw < 2 ^ 21) else descHandle raw == 0)))
  | 2 => decide (descField raw 3 1 ≤ 1) && descZero raw 4 4 && descZero raw 16 16 && (descField raw 3 1 == 0 || descZero raw 12 4)
  | 3 => descZero raw 2 1 && descZero raw 4 4 && descZero raw 12 4 && payloadClean raw
  | 4 => descZero raw 2 1 && descZero raw 4 4 && decide (descHandle raw < 2 ^ 21) && descZero raw 15 1 && descZero raw 16 16
  | 5 => descZero raw 2 1 && descZero raw 4 4 && decide (descHandle raw < 2 ^ 21) && descZero raw 15 1 && payloadClean raw
  | _ => descZero raw 2 6 && descZero raw 12 20

/-- Fields are in range (R182, R183, R185-R187); step 4 of R189. -/
def descInRange (raw : List Byte) : Bool :=
  let f := descFrame raw
  let p := descPsrc raw
  let l := descLen raw
  match descOp raw with
  | 1 => decide (descField raw 2 1 ≤ 63) && (f.ide || decide (f.id ≤ 0x7FF)) && !(f.rtr && f.fdf) && !(f.brs && !f.fdf) && p != 3
      && !(p == 0 && decide (l > 16)) && !(f.rtr && p != 0)
  | 2 => decide (descField raw 2 1 ≤ 63) && p == 0
  | 3 => decide (l ≤ 64) && decide (p ≤ 1) && !(p == 0 && decide (l > 16))
  | 4 => descField raw 3 1 == 0 && p == 0
  | 5 => decide (1 ≤ l ∧ l ≤ 64) && decide (p ≤ 1) && !(p == 0 && decide (l > 16))
  | _ => p == 0

/-- An opcode of R179. -/
def opKnown (op : Nat) : Bool := decide (1 ≤ op ∧ op ≤ 7)

/-- The status with which a descriptor fails steps 2 to 4 of R189; `none` where it passes. (DEDUCED, log entry 65.) -/
def descStatus (raw : List Byte) : Option Nat :=
  if !opKnown (descOp raw) then some 1 else if !descClean raw then some 2 else if !descInRange raw then some 3 else none

/-- The payload a descriptor still needs from host memory: none where it failed its checks, or carries its data, or names none. -/
def payloadOf (raw : List Byte) : Payload :=
  if (descStatus raw).isSome then .ready []
  else if descPsrc raw = 1 ∧ descLen raw > 0 then .wanted
  else .ready ((raw.drop 16).take (descLen raw))

/-! ### Host reads (R224) -/

/-- A read tag that no outstanding request holds, from `nextTag` on; `none` while all 256 are in use (R228). -/
def LinkSt.freeTag (l : LinkSt) : Option Nat :=
  if l.reads.length ≥ 256 then none
  else ((List.range 257).map fun k => (l.nextTag + k) % 1024).find? fun x => !l.reads.any fun y => y.tag == x

/-- A read request leaves the link for a tenant. -/
def State.issueRead (s : State) (link tenant tag addr len : Nat) (what : ReadFor) : State :=
  (s.setLink link fun l => { l with nextTag := (tag + 1) % 1024, reads := l.reads ++ [(⟨tag, what, s.now, false⟩ : HostRead)] }).emit
    (.hostRead link (s.rid tenant link) addr len tag)

/-- The outstanding reads that `p` picks are discarded when their completions arrive. -/
def State.killReads (s : State) (link : Nat) (p : ReadFor → Bool) : State :=
  s.setLink link fun l => { l with reads := l.reads.map fun x => if p x.what then { x with dead := true } else x }

/-- A read ends: it is no longer outstanding. -/
def State.endRead (s : State) (link tag : Nat) : State :=
  s.setLink link fun l => { l with reads := l.reads.filter fun x => x.tag != tag }

/-- The outstanding read with a tag. -/
def State.readOf (s : State) (link tag : Nat) : Option HostRead := (s.link link).reads.find? fun x => x.tag == tag

/-! ### The SQ pipeline (R189-R191, R208, R226-R230) -/

/-- Credits return to the CQ bound to an SQ. -/
def State.giveCredits (s : State) (r n : Nat) : State :=
  s.wr RC_OUTST_COUNT (s.cqOf r) (s.rd RC_OUTST_COUNT (s.cqOf r) - n)

/-- The SQ head stands at the first descriptor whose payload is not held, else at the first position not yet absorbed (R191). -/
def State.moveHead (s : State) (r : Nat) : State :=
  let g := s.ring r
  let open_ := fun (w : Work) => match w.payload with
    | .wanted => true
    | .reading => true
    | _ => false
  match g.work.find? open_ with
  | some w => s.setCons r w.pos
  | none => match g.reads with
    | x :: _ => s.setCons r x.start
    | [] => s.setCons r g.fetchPos

/-- Every descriptor read of an SQ from the one that starts at `pos` on is discarded, and its credits return (R190, R224). -/
def State.cutReads (s : State) (r pos : Nat) : State :=
  let gone := (s.ring r).reads.dropWhile fun x => x.start != pos
  let s := s.setRing r fun g => { g with reads := g.reads.takeWhile (fun x => x.start != pos), fetchPos := pos }
  let s := s.killReads (s.homeOf r) fun w => match w with
    | .desc r' start _ => r' == r && gone.any fun x => x.start == start
    | _ => false
  s.giveCredits r ((gone.map (·.n)).foldl (· + ·) 0)

/-- A fresh descriptor is taken (R189): counted, outstanding, next in SQ order. -/
def State.takeDesc (s : State) (r pos : Nat) (raw : List Byte) : State :=
  let q := (s.ring r).nextSeq
  let s := s.setRing r fun g => { g with
    nextSeq := q + 1
    live := g.live ++ [q]
    work := g.work ++ [(⟨q, pos, raw, payloadOf raw⟩ : Work)] }
  (s.bump RC_OUTST_COUNT r).bump HP_FETCH_CNT_COUNT (s.homeOf r)

/-- The descriptors of one read, from composite index `pos` on; at a stale one the fetch stops and the rest is discarded (R190). A descriptor is
judged when its read is absorbed, although descriptors before it may still wait for their payload. (DESIGN CHOICE, log entry 97.) -/
def State.absorbList (s : State) (r pos : Nat) : List (List Byte) → State × Bool
  | [] => (s, true)
  | d :: rest =>
    if descGen d ≠ s.genBit r pos then
      (((s.giveCredits r (rest.length + 1)).setRing r fun g => { g with fetchPos := pos }).put RC_STAT_STALE r true, false)
    else (s.takeDesc r pos d).absorbList r ((pos + 1) % (2 * s.ringN r)) rest

/-- Completed reads are absorbed in SQ order (R208); at most `n` of them. None is during a warm-restart gap (R759). -/
def State.absorb (s : State) (r : Nat) : Nat → State
  | 0 => s
  | n + 1 =>
    if s.inGap then s
    else match (s.ring r).reads with
    | [] => s
    | x :: rest => match x.data with
      | none => s
      | some ds =>
        let s := s.setRing r fun g => { g with reads := rest }
        let (s, fresh) := s.absorbList r x.start ds
        if fresh then s.absorb r n
        else
          -- R190: reads behind the stale position are discarded too
          match rest with
          | [] => s
          | y :: _ =>
            let at_ := (s.ring r).fetchPos
            (s.cutReads r y.start).setRing r fun g => { g with fetchPos := at_ }

/-- The payload read of the first descriptor is issued while a tag is free (R230). -/
def State.pushPayload (s : State) (r : Nat) : State :=
  match (s.ring r).work with
  | [] => s
  | w :: rest =>
    let link := s.homeOf r
    if w.payload ≠ .wanted || s.inGap || !s.active (r / 256) link then s
    else match (s.link link).freeTag with
      | none => s
      | some tag =>
        (s.setRing r fun g => { g with work := { w with payload := .reading } :: rest }).issueRead link (r / 256) tag
          (descField w.raw 16 8) (descLen w.raw) (.payload r w.seq)

/-- The first descriptor is passed on. -/
def State.popWork (s : State) (r : Nat) : State := s.setRing r fun g => { g with work := g.work.drop 1 }

/-- A descriptor's completion becomes final. -/
def State.finishDesc (s : State) (r : Nat) (w : Work) (status result : Nat) : State :=
  s.complete ⟨r, w.seq, w.pos % s.ringN r, descOp w.raw, descTag w.raw, status, result, 0⟩ (descNocomp w.raw)

/-- Fetched descriptors of an SQ that is being disarmed complete with DISARMED, in order (R166). A descriptor whose read is still outstanding, or
arrived behind an outstanding one, does not count as fetched: it is discarded, and its credit returns. (DESIGN CHOICE, log entry 96.) -/
def State.disarmWork (s : State) (r : Nat) : State :=
  let ws := (s.ring r).work
  let s := match (s.ring r).reads with
    | x :: _ => s.cutReads r x.start
    | [] => s
  let s := s.killReads (s.homeOf r) fun w => match w with
    | .payload r' _ => r' == r
    | _ => false
  let s := s.setRing r fun g => { g with work := [] }
  ws.foldl (fun (s : State) (w : Work) => s.finishDesc r w 7 0) s

/-! ### Arming and disarming (R161-R166) -/

/-- The register offset of descriptor ring control (R159). -/
def rcOff (k o : Nat) : Nat := 0x8000 + k / 32 * 0x1000 + k % 32 * 0x40 + o

/-- ERRCODE of a command, with RING_ARM_FAIL where the table says so (R163, R206). -/
def State.armCode (s : State) (r code : Nat) (tell : Bool) : State :=
  let s := s.wr RC_STAT_ERRCODE r code
  if tell then s.event (r / 256) 0x0003 (r % 256) [BitVec.ofNat 8 code] else s

/-- The checks of R164: the ERRCODE of the first that fails, 0 where all pass. -/
def State.armCheck (s : State) (r : Nat) : Nat :=
  let lg := s.rd RC_CTL_LOG2N r
  if r % 256 ≥ s.rd TEN_RINGS_COUNT (r / 256) then 3
  else if lg < 4 ∨ lg > 16 then 1
  else if s.baseAddr r + s.ringN r * entrySize (s.rd RC_CTL_TYPE r) > 2 ^ 64 then 2
  else if r / 256 = 0 ∧ !s.bearing (s.homeOf r) then 7
  else if s.rd RC_CTL_TYPE r = 0 ∧ !(s.armedAs (s.cqOf r) 1 && s.homeOf (s.cqOf r) == s.homeOf r) then 4
  else 0

/-- A ring that passes its checks is armed: both indices 0, NOTIFY 0 (R163). -/
def State.armRing (s : State) (r : Nat) : State :=
  let s := ((s.setProd r 0).setCons r 0).put RC_STAT_NOTIFY r false
  let s := (s.put RC_STAT_STALE r false).setRing r fun g =>
    { g with fetchPos := 0, reads := [], work := [], dropTold := false, latched := none }
  s.wr RC_STAT_STATE r rcArmed

/-- A ring becomes IDLE; CAUSE is cleared. -/
def State.idleRing (s : State) (r : Nat) : State :=
  ((s.wr RC_STAT_STATE r rcIdle).wr RC_STAT_CAUSE r 0).put RC_STAT_STALE r false

/-- An SQ that is not IDLE is bound to a CQ (R163). -/
def State.cqBound (s : State) (q : Nat) : Bool :=
  (List.range 256).any fun k =>
    let r := q / 256 * 256 + k
    s.rd RC_CTL_TYPE r == 0 && s.rd RC_STAT_STATE r != rcIdle && s.cqOf r == q

/-- A CQ is disarmed: the entries that still wait for it are discarded with their credits, so that no later arming of it can overflow (R195, R214).
(DESIGN CHOICE, log entry 95.) -/
def State.dropComps (s : State) (q : Nat) : State :=
  let s := s.setLink (s.homeOf q) fun l => { l with waiting := l.waiting.filter fun p => match p with | .cq c => c.cq != q | _ => true }
  { (s.wr RC_OUTST_COUNT q 0) with
    host := { s.host with heldComps := s.host.heldComps.filter fun c => c.cq != q }
    pair := { s.pair with waitCq := s.pair.waitCq.filter fun c => c.cq != q } }

/-- A DISARM that succeeds (R163, R165): an SQ with work in flight drains; any other ring is IDLE at once, and an RQ drops its records. -/
def State.disarmRing (s : State) (r : Nat) : State :=
  let typ := s.rd RC_CTL_TYPE r
  if typ = 0 then
    let busy := s.rd RC_OUTST_COUNT r != 0
    let s := s.wr RC_STAT_STATE r rcDraining
    let s := s.disarmWork r
    if busy then s else s.idleRing r
  else
    let s := s.idleRing r
    if typ = 2 then s.purge (fun d => d.ring == r) 5 else if typ = 1 then s.dropComps r else s

/-- A write of RC_CMD with ARM (R162-R164). -/
def State.armCmd (s : State) (r : Nat) (both : Bool) : State :=
  if both then s.armCode r 9 false
  else if s.rd RC_STAT_STATE r ≠ rcIdle then s.armCode r 6 false
  else if s.armCheck r ≠ 0 then s.armCode r (s.armCheck r) true
  else (s.armRing r).armCode r 0 false

/-- A write of RC_CMD with DISARM (R162, R163). -/
def State.disarmCmd (s : State) (r : Nat) (both : Bool) : State :=
  let st := s.rd RC_STAT_STATE r
  if both then s.armCode r 9 false
  else if st = rcIdle ∨ st = rcDraining then s.armCode r 6 false
  else if st = rcArmed ∧ s.rd RC_CTL_TYPE r = 1 ∧ s.cqBound r then s.armCode r 5 true
  else (s.armCode r 0 false).disarmRing r

/-- CU_FALLBACK of the last boot is queued once an EQ of the activation owner can take it (R754, R771). -/
def State.tellFallback (s : State) : State :=
  match s.cu.fallback with
  | none => s
  | some (slot, code) =>
    let t := if s.noImage then 0 else s.rd CU_CFG_ACTOWNER 0
    let r := t * 256 + s.rd TEN_EQ_RING t
    if s.flag TEN_EQ_VALID t && s.armedAs r 3 && s.active t (s.homeOf r) && s.fill r != s.ringN r then
      ({ s with cu := { s.cu with fallback := none } }).eventLim t 0x0D04 (s.rd CU_STAT_ACTSLOT 0) [BitVec.ofNat 8 slot, BitVec.ofNat 8 code]
    else s

/-- ARM: a write of ARM in RC_CMD. -/
def execArm (t : Nat) (f : Func) (k : Nat) (both : Bool) (s : State) : Host.Outcome State Fault Refusal :=
  let s := s.tick t
  .next (if k ≥ 256 then s else s.hostWrite f (rcOff k 0x10) fun s => (s.armCmd (s.tn f * 256 + k) both).tellFallback)

/-- DISARM: a write of DISARM in RC_CMD. -/
def execDisarm (t : Nat) (f : Func) (k : Nat) (both : Bool) (s : State) : Host.Outcome State Fault Refusal :=
  let s := s.tick t
  .next (if k ≥ 256 then s else s.hostWrite f (rcOff k 0x10) fun s => s.disarmCmd (s.tn f * 256 + k) both)

/-- RING_DRAIN_END: a DRAINING ring with nothing in flight becomes IDLE (R163). -/
def execRingDrainEnd (t ring : Nat) (s : State) : Host.Outcome State Fault Refusal :=
  let s := s.tick t
  .next (if s.rd RC_STAT_STATE ring = rcDraining ∧ s.rd RC_OUTST_COUNT ring = 0 then s.idleRing ring else s)

/-! ### Doorbells (R167-R177) -/

/-- The composite index a doorbell value names. -/
def State.dbIndex (s : State) (r v : Nat) : Nat := bitsOf v 16 1 * s.ringN r + bitsOf v 0 16

/-- A doorbell on an armed ring is valid (R170). -/
def State.dbValid (s : State) (r v : Nat) : Bool :=
  let p := s.prod r
  let c := s.cons r
  let x := s.dbIndex r v
  bitsOf v 18 6 == 0 && decide (bitsOf v 0 16 < s.ringN r) &&
    (if s.rd RC_CTL_TYPE r = 0 then decide (s.dist r x c ≤ s.ringN r ∧ s.dist r x p ≤ s.dist r x c)
     else decide (s.dist r x c ≤ s.dist r p c))

/-- A valid doorbell takes effect (R170, R172, R174): an SQ's tail moves and a stale fetch starts again; another ring's head moves, then
notification is armed, and what waited for room is written. -/
def State.dbApply (s : State) (r v : Nat) : State :=
  let x := s.dbIndex r v
  if s.rd RC_CTL_TYPE r = 0 then (s.setProd r x).put RC_STAT_STALE r false
  else
    let s := s.setCons r x
    let s := if bitAt v 17 then
        let s := s.put RC_STAT_NOTIFY r true
        if s.prod r ≠ x then s.noteEntry r else s
      else s
    match s.rd RC_CTL_TYPE r with
    | 1 => s.drainWaitCq s.pair.waitCq.length
    | 2 => s.drainHeld r (s.ring r).held.length
    | _ => s

/-- An invalid doorbell (R171, R206): RC_BADDB, DOORBELL_INVALID, nothing else. -/
def State.dbInvalid (s : State) (r v : Nat) : State :=
  (s.bump RC_BADDB_COUNT r).event (r / 256) 0x0002 (r % 256) (leBytes 4 (v % 2 ^ 24)
    ++ leBytes 3 (s.rd RC_PROD_WRAP r * 65536 + s.rd RC_PROD_INDEX r) ++ leBytes 3 (s.rd RC_CONS_WRAP r * 65536 + s.rd RC_CONS_INDEX r))

/-- A doorbell of a function (R68, R73, R169-R171); during a warm-restart gap a valid one is latched, and the last wins (R759).
(DEDUCED, log entry 68.) -/
def State.doorbell (s : State) (f : Func) (k v : Nat) : State :=
  let t := s.tn f
  let r := t * 256 + k
  let st := s.rd RC_STAT_STATE r
  if s.homeOf r ≠ f.link then s.bump TEN_VIOL_COUNT t
  else if st = rcIdle then s.bump TEN_VIOL_COUNT t
  else if st ≠ rcArmed then s.bump RC_BADDB_COUNT r
  else if !s.dbValid r v then s.dbInvalid r v
  else
    let s := s.bump HP_DB_CNT_COUNT f.link
    if s.inGap then s.setRing r fun g => { g with latched := some v } else s.dbApply r v

/-- DOORBELL: a doorbell write on doorbell page k of BAR2; with the DMA domain of the link off there is none (R703). -/
def execDoorbell (t : Nat) (f : Func) (k v : Nat) (s : State) : Host.Outcome State Fault Refusal :=
  let s := s.tick t
  .next (if !s.answers f || s.quiet f || decide (k ≥ 256) || !s.domOn (134 + f.link) then s else s.doorbell f k v)

/-! ### Fetch (R224, R226-R230) -/

/-- An SQ of a link has fetchable work (R226, R195, R69): tail ahead, a credit, no STALE and no FENCE. -/
def State.fetchable (s : State) (link r : Nat) : Bool :=
  s.armedAs r 0 && s.homeOf r == link && s.active (r / 256) link && !s.flag RC_STAT_STALE r && s.prod r != (s.ring r).fetchPos
    && decide (s.credits (s.cqOf r) > 0) && !(s.ring r).work.any fun w => descOp w.raw == 6

/-- The descriptors of one read request (R227). (PRESUMED, log entry 11.) -/
def State.fetchLen (s : State) (link r : Nat) : Nat :=
  let p := (s.ring r).fetchPos
  let n := s.ringN r
  min 8 (min (s.dist r (s.prod r) p) (min (n - p % n) (min (s.credits (s.cqOf r)) (min ((s.link link).mrrs / 32)
    ((4096 - s.entryAddr r p % 4096) / 32)))))

/-- The ARMED and ERROR SQs, ascending: a ring that is not IDLE has its state listed among the registers. -/
def State.sqs (s : State) : List Nat :=
  (s.regs.filterMap fun e =>
    let r := e.1 / 4096 % 1048576
    if e.1 = RC_STAT_STATE.key r 0 then some r else none).filter fun r =>
      (s.rd RC_STAT_STATE r == rcArmed || s.rd RC_STAT_STATE r == rcError) && s.rd RC_CTL_TYPE r == 0

/-- The next SQ of the link's rotation with fetchable work (R226). -/
def State.nextSq (s : State) (link : Nat) : Option Nat :=
  let l := s.sqs.filter fun r => s.fetchable link r
  match l.find? fun r => decide (r > (s.link link).rot) with
  | some r => some r
  | none => l.head?

/-- One read request for an SQ: its credits are taken, and the fetch position moves on. -/
def State.fetchFor (s : State) (link r tag : Nat) : State :=
  let n := s.fetchLen link r
  let p := (s.ring r).fetchPos
  let s := s.wr RC_OUTST_COUNT (s.cqOf r) (s.rd RC_OUTST_COUNT (s.cqOf r) + n)
  let s := s.setRing r fun g => { g with
    fetchPos := (p + n) % (2 * s.ringN r)
    reads := g.reads ++ [({ tag := tag, start := p, n := n } : DescRead)] }
  let s := s.setLink link fun l => { l with rot := r }
  s.issueRead link (r / 256) tag (s.entryAddr r p) (n * 32) (.desc r p n)

/-- The next read of a pull leaves: whole words within Max Read Request Size and one 4 KiB page, one read at a time, with the tenant's
Routing ID (R70, R227, R749). -/
def State.pushPull (s : State) : State :=
  match s.cu.pull with
  | none => s
  | some p =>
    let l := s.link p.link
    let a := p.addr + 4 * p.done
    let n := max 4 (min (4 * (p.len - p.done)) (min l.mrrs (4096 - a % 4096)) / 4 * 4)
    if p.done ≥ p.len || (l.reads.any fun x => x.what == .pull && !x.dead) || !s.active p.tenant p.link then s
    else match l.freeTag with
      | none => s
      | some tag => s.issueRead p.link p.tenant tag a n .pull

/-- FETCH_REQUEST: payload reads and a pull's read that waited for a tag leave first, then the rotation's next SQ gets one read request. -/
def execFetchRequest (t link : Nat) (s : State) : Host.Outcome State Fault Refusal :=
  let s := s.tick t
  if s.inGap || !s.domOn (134 + link) then .next s
  else
    let s := ((s.sqs.filter fun r => s.homeOf r == link).foldl (fun (s : State) r => s.pushPayload r) s).pushPull
    match s.nextSq link, (s.link link).freeTag with
    | some r, some tag => .next (if s.fetchLen link r = 0 then s else s.fetchFor link r tag)
    | _, _ => .next s

/-- The 32-byte descriptors of a read's data. -/
def splitDescs (n : Nat) (bytes : List Byte) : List (List Byte) := (List.range n).map fun k => padTo 32 (bytes.drop (32 * k))

/-- A descriptor read fails (R224): the SQ enters ERROR, the head stays at the failed read, and everything behind it is discarded. -/
def State.fetchError (s : State) (link r start cause : Nat) : State :=
  let s := s.bump HP_RDERR_COUNT link
  let s := s.cutReads r start
  let s := if s.rd RC_STAT_STATE r = rcArmed then
      ((s.wr RC_STAT_STATE r rcError).wr RC_STAT_CAUSE r cause).event (r / 256) 0x0004 (r % 256)
        (BitVec.ofNat 8 cause :: leBytes 2 (start % s.ringN r))
    else s
  s.moveHead r

/-- A descriptor read ends. -/
def State.descRead (s : State) (link tag r start n : Nat) (res : ReadResult) : State :=
  match res with
  | .err cause => s.fetchError link r start cause
  | .ok bytes =>
    let s := s.setRing r fun g => { g with reads := g.reads.map fun x =>
      if x.tag = tag ∧ x.start = start then { x with data := some (splitDescs n bytes) } else x }
    ((s.absorb r (s.ring r).reads.length).moveHead r).pushPayload r

/-- FETCH_COMPLETION: the completion of a descriptor read arrives (R189, R224); a discarded one only counts its error. -/
def execFetchCompletion (t link tag : Nat) (r : ReadResult) (s : State) : Host.Outcome State Fault Refusal :=
  let s := s.tick t
  match s.readOf link tag with
  | some ⟨_, .desc ring start n, _, dead⟩ =>
    let s := s.endRead link tag
    .next (if dead then (match r with | .err _ => s.bump HP_RDERR_COUNT link | .ok _ => s) else s.descRead link tag ring start n r)
  | _ => .next s

/-- The payload of the descriptor with sequence number `seq` is in hand, or failed. -/
def State.setPayload (s : State) (r seq : Nat) (p : Payload) : State :=
  s.setRing r fun g => { g with work := g.work.map fun w => if w.seq = seq then { w with payload := p } else w }

/-- A payload read ends (R224, R230): the descriptor has its bytes, or completes PAYLOAD_DMA. (DEDUCED, log entry 67.) -/
def State.payloadRead (s : State) (link r seq : Nat) (res : ReadResult) : State :=
  match res with
  | .ok bytes =>
    match (s.ring r).work.find? fun w => w.seq == seq with
    | some w => (s.setPayload r seq (.ready (padTo (descLen w.raw) bytes))).moveHead r
    | none => s
  | .err _ =>
    let s := ((s.bump HP_RDERR_COUNT link).setPayload r seq .failed).moveHead r
    match (s.ring r).work with
    | w :: _ => if w.seq = seq && !s.inGap then ((s.popWork r).finishDesc r w 6 0).pushPayload r else s
    | [] => s

/-- PAYLOAD_READ_DONE: the payload read of a descriptor with PSRC 0b01 completes. -/
def execPayloadReadDone (t link tag : Nat) (r : ReadResult) (s : State) : Host.Outcome State Fault Refusal :=
  let s := s.tick t
  match s.readOf link tag with
  | some ⟨_, .payload ring seq, _, dead⟩ =>
    let s := s.endRead link tag
    .next (if dead then (match r with | .err _ => s.bump HP_RDERR_COUNT link | .ok _ => s) else s.payloadRead link ring seq r)
  | _ => .next s

/-! ### Execution of descriptors (R178-R188, R208) -/

/-- The first descriptor of an SQ is passed on if its opcode is one of those `sel` picks and its payload is in hand: it completes with the
status of a failed check, or `k` acts on it. Admission stands still during a gap (R759). (DEDUCED, log entry 66.) -/
def State.runDesc (s : State) (r : Nat) (sel : Nat → Bool) (k : State → Work → List Byte → State) : State :=
  match (s.ring r).work with
  | [] => s
  | w :: _ =>
    if s.inGap || !sel (descOp w.raw) then s
    else match descStatus w.raw with
      | some st => ((s.popWork r).finishDesc r w st 0).pushPayload r
      | none => match w.payload with
        | .ready bytes => (k (s.popWork r) w bytes).pushPayload r
        | .failed => ((s.popWork r).finishDesc r w 6 0).pushPayload r
        | _ => s

/-- DESC_OPCODE: a descriptor with an unknown opcode completes with DESC_OPCODE (R179). -/
def execDescOpcode (t ring : Nat) (s : State) : Host.Outcome State Fault Refusal :=
  .next ((s.tick t).runDesc ring (fun op => !opKnown op) fun s w _ => s.finishDesc ring w 1 0)

/-- NOP: completes with OK (R179). -/
def execNop (t ring : Nat) (s : State) : Host.Outcome State Fault Refusal :=
  .next ((s.tick t).runDesc ring (· == 7) fun s w _ => s.finishDesc ring w 0 0)

/-- Some earlier descriptor of the first one's SQ has not completed. -/
def Ring.behind (g : Ring) : Bool :=
  match g.work with
  | w :: _ => g.live.any fun q => decide (q < w.seq)
  | [] => false

/-- FENCE: completes once every earlier descriptor of its SQ has completed (R188); one that fails its checks does not wait. -/
def execFence (t ring : Nat) (s : State) : Host.Outcome State Fault Refusal :=
  let s := s.tick t
  match (s.ring ring).work with
  | w :: _ =>
    .next (if descStatus w.raw = none ∧ (s.ring ring).behind then s
      else s.runDesc ring (· == 6) fun s w _ => s.finishDesc ring w 0 0)
  | [] => .next s

/-! ### Payload slots (R215-R223) -/

/-- A payload slot. -/
def State.paySlot (s : State) (link n : Nat) : PaySlot := tget {} (s.link link).slots n

/-- Changing a payload slot. -/
def State.setPaySlot (s : State) (link n : Nat) (f : PaySlot → PaySlot) : State :=
  s.setLink link fun l => { l with slots := tupd {} l.slots n f }

/-- The slots a tenant holds on a link. -/
def State.slotsHeld (s : State) (link tenant : Nat) : Nat := ((s.link link).slots.filter fun x => x.2.owner == some tenant).length

/-- The check of a HANDLE (R219): the reason it fails, 0 where it passes. -/
def State.handleReason (s : State) (link tenant h : Nat) : Nat :=
  let x := s.paySlot link (bitsOf h 0 12)
  if bitsOf h 12 1 ≠ link then 1
  else match x.owner with
    | none => 2
    | some t => if t ≠ tenant then 3 else if bitsOf h 13 8 ≠ x.use then 4 else 0

/-- A failed check (R220): BAD_HANDLE, TEN_BADHDL and one event, and no other effect. -/
def State.badHandle (s : State) (r : Nat) (w : Work) (reason : Nat) : State :=
  let t := r / 256
  let s := (s.bump TEN_BADHDL_COUNT t).event t 0x0005 (r % 256)
    (leBytes 3 (descHandle w.raw) ++ [BitVec.ofNat 8 (descOp w.raw), BitVec.ofNat 8 reason])
  s.finishDesc r w 5 0

/-- The free slots of a link's store, ascending. -/
def State.freeSlots (s : State) (link : Nat) : List Nat :=
  (List.range 4096).filter fun n => !(s.link link).slots.any fun x => x.1 == n && x.2.owner.isSome

/-- The free slot that the free choice picks, if one is free (R218 does not say which). -/
def State.pickSlot (s : State) (link : Nat) : Option Nat := (s.freeSlots link)[Config.slotPick s.fresh % (s.freeSlots link).length]?

/-- ALLOC on its home link (R218): a free slot, which one the spec leaves open, with its USE advanced and the fill in its first bytes. -/
def State.alloc (s : State) (r : Nat) (w : Work) (bytes : List Byte) : State :=
  let link := s.homeOf r
  let t := r / 256
  let s := s.draw
  match s.pickSlot link with
  | none => s.finishDesc r w 4 0
  | some n =>
    if s.slotsHeld link t ≥ s.rd TEN_TXPOOL_POOL t then s.finishDesc r w 4 0
    else
      let use := ((s.paySlot link n).use + 1) % 256
      (s.setPaySlot link n fun _ => ⟨use, some t, padTo 64 bytes⟩).finishDesc r w 0 (use * 2 ^ 13 + link * 2 ^ 12 + n)

/-- ALLOC: takes a free payload slot and returns its HANDLE. -/
def execAlloc (t ring : Nat) (s : State) : Host.Outcome State Fault Refusal :=
  .next ((s.tick t).runDesc ring (· == 3) fun s w bytes => s.alloc ring w bytes)

/-- A descriptor that names a HANDLE: `k` acts where its check passes. -/
def State.withHandle (s : State) (r : Nat) (w : Work) (k : State → State) : State :=
  let why := s.handleReason (s.homeOf r) (r / 256) (descHandle w.raw)
  if why ≠ 0 then s.badHandle r w why else k s

/-- FREE: returns a payload slot (R219); its USE stays. -/
def execFreeSlot (t ring : Nat) (s : State) : Host.Outcome State Fault Refusal :=
  .next ((s.tick t).runDesc ring (· == 4) fun s w _ => s.withHandle ring w fun s =>
    (s.setPaySlot (s.homeOf ring) (bitsOf (descHandle w.raw) 0 12) fun x => { x with owner := none, data := [] }).finishDesc ring w 0 0)

/-- WRITE_SLOT: overwrites the first LEN bytes of a slot (R185). -/
def execWriteSlot (t ring : Nat) (s : State) : Host.Outcome State Fault Refusal :=
  .next ((s.tick t).runDesc ring (· == 5) fun s w bytes => s.withHandle ring w fun s =>
    (s.setPaySlot (s.homeOf ring) (bitsOf (descHandle w.raw) 0 12) fun x => { x with data := padTo 64 (bytes ++ x.data.drop bytes.length) }).finishDesc
      ring w 0 0)

/-! ### Admission (R296-R299) and cancellation (R331-R333) -/

/-- A refusal at admission: counted, shown in HP_LASTREF, and the frame completes with its status. -/
def State.refuseTx (s : State) (r : Nat) (w : Work) (status : Nat) : State :=
  let link := s.homeOf r
  let s := (((s.bump HP_REFUSE_CNT_COUNT link).wr HP_LASTREF_STATUS link status).wr HP_LASTREF_PORT link (descField w.raw 2 1)).wr
    HP_LASTREF_TENANT link (r / 256)
  s.finishDesc r w status 0

/-- The queue entry of an admitted frame (R311). -/
def State.txEntry (s : State) (r : Nat) (w : Work) (l : Nat) (f : Frame) : QEntry :=
  { key := frameKey f, seq := 0, cost := s.frameCost (descField w.raw 2 1) f, src := .tenant l, frame := f, ring := r, link := s.homeOf r
    pos := w.pos % s.ringN r, wseq := w.seq, tag := descTag w.raw, nocomp := descNocomp w.raw }

/-- An admitted frame reaches its queue (R298, R299, R335): LV_USED counts it; a resetting queue completes it QUEUE_RESET. -/
def State.insertTx (s : State) (r : Nat) (w : Work) (l : Nat) (f : Frame) : State :=
  let p := descField w.raw 2 1
  let s := ((s.bump HP_ADM_CNT_COUNT (s.homeOf r)).checkPtrs p).settleFaults
  if s.flag PQ_STAT_RESETTING p then s.finishDesc r w 0x4D 0
  else
    let e := s.txEntry r w l f
    let seq := (s.queue p).freeSeq
    let s := (s.setLrt l fun x => { x with used := x.used + 1 }).addEntry p e
    (s.mirror (.entryAdd p e.key seq e.cost (r / 256) l (r % 256) e.pos e.tag e.nocomp f)).noteLease l

/-- A TX_FRAME at the admission checker: lease, port, quota, in this order (R296). -/
def State.admitFrame (s : State) (r : Nat) (w : Work) (bytes : List Byte) : State :=
  let p := descField w.raw 2 1
  let f := { descFrame w.raw with data := bytes }
  match s.txLease (r / 256) p f with
  | none => s.refuseTx r w 0x40
  | some l =>
    match s.refuses p with
    | some st => s.refuseTx r w st
    | none =>
      if (s.lrt l).used ≥ ((s.img.leases[l]?).map (·.quota)).getD 0 ∨ s.queueFull p then s.refuseTx r w 0x41 else s.insertTx r w l f

/-- TX_FRAME: a frame is admitted and inserted, or refused; with PSRC 0b10 its data are the slot's bytes now (R219, R222). -/
def execTxFrame (t ring : Nat) (s : State) : Host.Outcome State Fault Refusal :=
  .next ((s.tick t).runDesc ring (· == 1) fun s w bytes =>
    if descPsrc w.raw = 2 then
      s.withHandle ring w fun s =>
        s.admitFrame ring w (padTo (descLen w.raw) (s.paySlot (s.homeOf ring) (bitsOf (descHandle w.raw) 0 12)).data)
    else s.admitFrame ring w bytes)

/-- A queue entry that a CANCEL names (R331). -/
def State.named (s : State) (r : Nat) (w : Work) (e : QEntry) : Bool :=
  !e.orphan && !e.mirror && e.ring / 256 == r / 256 && e.link == s.homeOf r
    && (match e.src with | .tenant _ => true | _ => false) && (descField w.raw 3 1 == 1 || e.tag == descField w.raw 12 4)

/-- A CANCEL at the admission checker (R331-R334): queued entries complete CANCELLED and are counted, those in flight are marked. -/
def State.cancelFrames (s : State) (r : Nat) (w : Work) : State :=
  let p := descField w.raw 2 1
  let s := (s.checkPtrs p).settleFaults
  let hit := (s.queue p).entries.filter fun e => s.named r w e
  let queued := hit.filter fun e => !e.inflight
  let s := queued.foldl (fun (s : State) (e : QEntry) => (s.returnEntry p e 0x48).countCancel e) s
  let s := (hit.filter fun e => e.inflight && e.mark.isNone).foldl (fun (s : State) (e : QEntry) =>
    s.setEntry p e fun e => { e with mark := some 0x48 }) s
  s.finishDesc r w 0 queued.length

/-- CANCEL: withdraws the tenant's named frames of a port. (DEDUCED, log entry 69.) -/
def execCancel (t ring : Nat) (s : State) : Host.Outcome State Fault Refusal :=
  .next ((s.tick t).runDesc ring (· == 2) fun s w _ => s.cancelFrames ring w)

/-! ### Posted-write credit (R374) -/

/-- The rings whose records wait for room. -/
def State.heldRings (s : State) (link : Nat) : List Nat :=
  (s.host.rings.filter fun x => !x.2.held.isEmpty && s.homeOf x.1 == link).map (·.1)

/-- What waits on a link leaves in order. -/
def State.drainLink (s : State) (link : Nat) : State :=
  let s := s.drainPosts link (s.link link).waiting.length
  (s.heldRings link).foldl (fun (s : State) r => s.drainHeld r (s.ring r).held.length) s

/-- POSTED_CREDIT_RETURN: posted-write credit returns, and what waited leaves in order (R374, R791). -/
def execPostedCreditReturn (t link n : Nat) (s : State) : Host.Outcome State Fault Refusal :=
  let s := s.tick t
  .next ((s.setLink link fun l => { l with credit := l.credit.map (· + n) }).drainLink link)

/-- LEASE_RECORD_PERIODIC: the acting unit mirrors each transmit lease whose bucket is not full (R613). -/
def execLeaseRecordPeriodic (t : Nat) (s : State) : Host.Outcome State Fault Refusal :=
  let s := s.tick t
  .next ((s.img.leases.zipIdx).foldl (fun (s : State) (x : Lease × Nat) =>
    if x.1.tx && decide (s.tokens x.2 < x.1.burst * 160 * 4096) then s.noteLease x.2 else s) s)

end Sys2Proof.Machine
end

