-- ==== Sys2Proof/Machine/Image.lean ====
section
/-! DEFINITION. The configuration unit's commands and the transfer of objects (R747-R751, R755, R757, R769-R771). -/

namespace Sys2Proof.Machine

/-! ### Owners and results (R769) -/

/-- ACTOWNER; tenant 0 acts as it while no image runs (R785). -/
def State.actOwner (s : State) : Nat := if s.noImage then 0 else s.rd CU_CFG_ACTOWNER 0

/-- A carrier that CU_CAR0 or CU_CAR1 names (R748). -/
def State.carrier (s : State) (t : Nat) : Bool :=
  (s.flag CU_CAR0_V0 0 && s.rd CU_CAR0_CAR0 0 == t) || (s.flag CU_CAR0_V1 0 && s.rd CU_CAR0_CAR1 0 == t)
    || (s.flag CU_CAR1_V2 0 && s.rd CU_CAR1_CAR2 0 == t) || (s.flag CU_CAR1_V3 0 && s.rd CU_CAR1_CAR3 0 == t)

/-- A command completes: RESULT, REASON, SEQ, BUSY 0. -/
def State.cuDone (s : State) (result reason : Nat) : State :=
  (((s.wr CU_RES_RESULT 0 result).wr CU_RES_REASON 0 reason).wr CU_RES_SEQ 0 (s.rd CU_RES_SEQ 0 + 1)).put CU_RES_BUSY 0 false

/-- A write of CU_CMD: ignored with OVR while BUSY, else judged by `k` for the writer's tenant (R768, R769). -/
def State.cuCmd (s : State) (f : Func) (k : State → Nat → State) : State :=
  s.hostWrite f 0x38004 fun s =>
    if s.flag CU_RES_BUSY 0 then s.put CU_RES_OVR 0 true else k (s.put CU_RES_OVR 0 false) (s.tn f)

/-- The slot that a session writes and an activation names: the one that does not run, or that BOOTSEL does not name (R747, R786). -/
def State.spareSlot (s : State) : Nat := 1 - (if s.noImage then s.rd CU_STAT_BOOTSEL 0 else s.rd CU_STAT_ACTSLOT 0)

/-- A slot holds the base of the running delta (R747). -/
def State.holdsBase (s : State) (k : Nat) : Bool :=
  !s.noImage && decide (k ≠ s.rd CU_STAT_ACTSLOT 0) && (s.nvm (1 - k)).kind == 2 && s.baseUsable (1 - k)

/-- A transfer session is open for a tenant (R748). -/
def State.sessionOf (s : State) (t : Nat) : Bool := s.flag CU_STAT_SESSION 0 && s.rd CU_STAT_SESSTEN 0 == t

/-- CU_XFER to the session tenant (R771). -/
def State.xferEvent (s : State) (result : Nat) : State :=
  s.eventLim (s.rd CU_STAT_SESSTEN 0) 0x0D01 s.spareSlot
    (BitVec.ofNat 8 result :: leBytes 3 (s.rdA SL_PROG_WORDS 0 s.spareSlot))

/-! ### OPEN (R747, R748) -/

/-- A slot is erased for a session. -/
def State.beginErase (s : State) (k t : Nat) : State :=
  let s := s.setNvm k fun x => { st := slEmpty, closed := false, words := [], erases := satTo 14 (x.erases + 1) }
  let s := ((s.wrA SL_PROG_WORDS 0 k 0).put CU_STAT_SESSION 0 true).wr CU_STAT_SESSTEN 0 t
  (s.setCu fun c => { c with erasing := true }).put CU_RES_BUSY 0 true

/-- OPEN: ACTOWNER or a carrier opens a transfer session on the slot that does not run. (DEDUCED, log entry 70.) -/
def execSessionOpen (t : Nat) (f : Func) (force : Bool) (s : State) : Host.Outcome State Fault Refusal :=
  .next ((s.tick t).cuCmd f fun s k =>
    let b := s.spareSlot
    if k ≠ s.actOwner ∧ !s.carrier k then s.cuDone 2 0
    else if s.flag CU_STAT_SESSION 0 then s.cuDone 3 0
    else if s.holdsBase b ∧ !force then s.cuDone 5 0
    else
      let s := if s.holdsBase b then s.put CU_STAT_NOFALLBACK 0 true else s
      s.beginErase b k)

/-- ERASE_DONE: the slot is OPEN, and the command completes; a session that has ended in the meantime leaves the slot EMPTY. -/
def execEraseDone (t : Nat) (s : State) : Host.Outcome State Fault Refusal :=
  let s := s.tick t
  if !s.cu.erasing then .next s
  else
    let s := s.setCu fun c => { c with erasing := false }
    let s := if s.flag CU_STAT_SESSION 0 then s.setNvm s.spareSlot fun x => { x with st := slOpen } else s
    .next (s.cuDone 0 0)

/-! ### Programming (R749, R750) -/

/-- An object word is programmed, at most once in a session and below 16 MiB; whether it was. -/
def State.program (s : State) (k i v : Nat) : State × Bool :=
  if i ≥ slotWords ∨ (tget none (s.nvm k).words i).isSome then (s, false)
  else
    ((s.setNvm k fun x => { x with words := tset none x.words i (some (v % 2 ^ 32)) }).wrA SL_PROG_WORDS 0 k (s.rdA SL_PROG_WORDS 0 k + 1), true)

/-- Successive object words are programmed; whether all of them were. -/
def State.programAll (s : State) (k : Nat) : Nat → List Nat → State × Bool
  | _, [] => (s, true)
  | i, v :: vs =>
    let (s, ok) := s.program k i v
    let (s, ok') := s.programAll k (i + 1) vs
    (s, ok && ok')

/-- The session's slot takes words: the session is open and its erase has ended. -/
def State.slotTakes (s : State) : Bool := s.flag CU_STAT_SESSION 0 && (s.nvm s.spareSlot).st == slOpen

/-- A write or pull that programs nothing for a word is counted once. -/
def State.xferRej (s : State) : State := s.bump CU_XFER_REJ_COUNT 0

/-- WINDOW_WRITE: a write of DWORDs at byte offset `off` of the image transfer window. -/
def execWindowWrite (t : Nat) (f : Func) (off : Nat) (data : List Nat) (s : State) : Host.Outcome State Fault Refusal :=
  let s := s.tick t
  let a : Access := ⟨f, 0, 0x1000000 + off, true, data.length, off % 4 == 0, 0⟩
  if !s.answers f || s.quiet f then .next s
  else match s.refusal a with
    | some r => .next (s.refuse a r)
    | none =>
      if s.inGap || !s.sessionOf 0 || !s.slotTakes then .next s.xferRej
      else
        let (s, ok) := s.programAll s.spareSlot (off / 4) data
        .next (if ok then s else s.xferRej)

/-- A pull ends (R749). -/
def State.pullDone (s : State) (result : Nat) : State :=
  let s := s.setCu fun c => { c with pull := none }
  ((s.wr CU_PULL_RES_RESULT 0 result).wr CU_PULL_RES_SEQ 0 (s.rd CU_PULL_RES_SEQ 0 + 1)).put CU_PULL_RES_BUSY 0 false

/-- PULL_GO: a write of 1 to CU_PULL_GO. (DEDUCED, log entry 71.) -/
def execPullGo (t : Nat) (f : Func) (s : State) : Host.Outcome State Fault Refusal :=
  .next ((s.tick t).hostWriteOr f 0x3A014 (fun s => s.xferRej) fun s =>
    let k := s.tn f
    let off := s.rd CU_PULL_OFF_WORD 0
    let len := s.rd CU_PULL_LEN_WORDS 0
    if !s.sessionOf k || !s.slotTakes then s.pullDone 1
    else if s.flag CU_PULL_RES_BUSY 0 then s.wr CU_PULL_RES_RESULT 0 5
    else if len = 0 ∨ len > 1048576 then (s.pullDone 2).xferEvent 2
    else if off ≥ slotWords then (s.xferRej.pullDone 2).xferEvent 2
    else
      let n := min len (slotWords - off)
      let addr := s.rd CU_PULL_A0_ADDR 0 + s.rd CU_PULL_A1_ADDR 0 * 2 ^ 24 + s.rd CU_PULL_A2_ADDR 0 * 2 ^ 48
      let p : Pull := { link := f.link, tenant := k, addr := addr, off := off, len := n, met := if n < len then 2 else 0 }
      ((s.setCu fun c => { c with pull := some p }).put CU_PULL_RES_BUSY 0 true).pushPull)

/-- The 32-bit words of a read's bytes. -/
def wordsOf (n : Nat) (bytes : List Byte) : List Nat := (List.range n).map fun i => leNat ((bytes.drop (4 * i)).take 4)

/-- A read of the running pull ends (R749, R750). -/
def State.pullRead (s : State) (r : ReadResult) : State :=
  match s.cu.pull with
  | none => s
  | some p =>
    match r with
    | .err _ => (s.pullDone 4).xferEvent 4
    | .ok bytes =>
      let n := min (bytes.length / 4) (p.len - p.done)
      let (s, ok) := s.programAll s.spareSlot (p.off + p.done) (wordsOf n bytes)
      let p := { p with done := p.done + n, met := if p.met = 0 ∧ !ok then 3 else p.met }
      if p.done ≥ p.len then
        let s := if p.met = 0 then s else s.xferRej
        (s.pullDone p.met).xferEvent p.met
      else (s.setCu fun c => { c with pull := some p }).pushPull

/-- PULL_DONE: the completion of a host read of a pull arrives; a discarded one ends nothing. -/
def execPullDone (t link tag : Nat) (r : ReadResult) (s : State) : Host.Outcome State Fault Refusal :=
  let s := s.tick t
  match s.readOf link tag with
  | some x =>
    if x.what ≠ .pull then .next s
    else
      let s := s.endRead link tag
      .next (if x.dead then s else s.pullRead r)
  | none => .next s

/-- COMPLETION_TIMEOUT: an outstanding read ends without its completion, as one with cause 3 (R224, R749). -/
def execCompletionTimeout (t link tag : Nat) (s : State) : Host.Outcome State Fault Refusal :=
  let s := s.tick t
  match s.readOf link tag with
  | none => .next s
  | some x =>
    if s.now < x.at_ + (s.link link).ctoMin then .next s
    else
      let s := s.endRead link tag
      .next (if x.dead then (match x.what with | .pull => s | _ => s.bump HP_RDERR_COUNT link)
        else match x.what with
          | .desc r start n => s.descRead link tag r start n (.err 3)
          | .payload r seq => s.payloadRead link r seq (.err 3)
          | .pull => s.pullRead (.err 3))

/-! ### The end of a session (R748, R751) -/

/-- The session closes; a pull that runs ends with it. -/
def State.endSession (s : State) : State :=
  let s := (s.put CU_STAT_SESSION 0 false).wr CU_STAT_SESSTEN 0 0
  match s.cu.pull with
  | some p => (s.killReads p.link fun w => w == .pull).pullDone 1
  | none => s

/-- A session ends without CLOSE: the slot is EMPTY. -/
def State.abortSession (s : State) : State :=
  (s.setNvm s.spareSlot fun x => { x with st := slEmpty, closed := false, words := [] }).endSession

/-- The result for a tenant that may not end the session: no session, or another tenant's. -/
def State.noSession (s : State) (k : Nat) : State :=
  s.cuDone (if !s.flag CU_STAT_SESSION 0 ∧ (k = s.actOwner ∨ s.carrier k) then 3 else 2) 0

/-- CLOSE: the header and the words programmed are checked; nothing is decrypted. -/
def execSessionClose (t : Nat) (f : Func) (s : State) : Host.Outcome State Fault Refusal :=
  .next ((s.tick t).cuCmd f fun s k =>
    if !s.sessionOf k then s.noSession k
    else
      let b := s.spareSlot
      let ok := (s.nvm b).headerOk && (s.nvm b).complete
      let s := s.setNvm b fun x => { x with st := if ok then slStored else slBad, closed := ok }
      ((s.xferEvent (if ok then 0 else 4)).endSession).cuDone (if ok then 0 else 4) (if ok then 0 else 1))

/-- ABORT: the slot is left EMPTY. -/
def execSessionAbort (t : Nat) (f : Func) (s : State) : Host.Outcome State Fault Refusal :=
  .next ((s.tick t).cuCmd f fun s k => if !s.sessionOf k then s.noSession k else s.abortSession.cuDone 0 0)

/-! ### ACTIVATE, ACTIVATE_COLD, ROLLFWD (R755, R757, R767, R786) -/

/-- The spare slot can be activated: STORED or GOOD, and no session is open. -/
def State.activatable (s : State) : Bool :=
  let st := (s.nvm s.spareSlot).st
  (st == slStored || st == slGood) && !s.flag CU_STAT_SESSION 0

/-- ACTIVATE: the check of a warm restart begins. -/
def execActivate (t : Nat) (f : Func) (s : State) : Host.Outcome State Fault Refusal :=
  .next ((s.tick t).cuCmd f fun s k =>
    if k ≠ s.actOwner then s.cuDone 2 0
    else if s.noImage || !s.activatable then s.cuDone 3 0
    else (s.wr CU_STAT_PHASE 0 phCheck).put CU_RES_BUSY 0 true)

/-- ACTIVATE_COLD: BOOTSEL names the slot, and the command reset follows 10 µs later (R775). -/
def execActivateCold (t : Nat) (f : Func) (s : State) : Host.Outcome State Fault Refusal :=
  .next ((s.tick t).cuCmd f fun s k =>
    if k ≠ s.actOwner then s.cuDone 2 0
    else if !s.activatable then s.cuDone 3 0
    else
      let s := (s.wr CU_STAT_BOOTSEL 0 s.spareSlot).put CU_RES_BUSY 0 true
      s.setCu fun c => { c with coldAt := some (s.now + 10 * tqPerUs) })

/-- On a paired unit, the partner is known to run another image (R767). -/
def State.partnerDiffers (s : State) : Bool :=
  s.flag PR_CFG_PAIRED 0 && (s.mem (s.rd PR_CFG_PNODE 0)).hash != s.img.hash

/-- ROLLFWD: the OTP rollback counter is to take the running image's SECVER. (DEDUCED, log entry 72.) -/
def execRollfwd (t : Nat) (f : Func) (s : State) : Host.Outcome State Fault Refusal :=
  .next ((s.tick t).cuCmd f fun s k =>
    let v := s.rd CU_RUN1_SECVER 0
    if k ≠ s.actOwner then s.cuDone 2 0
    else if s.noImage || s.partnerDiffers then s.cuDone 3 0
    else if v ≤ s.cu.otp.roll then s.cuDone 6 0
    else (s.setCu fun c => { c with otpWrites := c.otpWrites ++ [.roll v] }).put CU_RES_BUSY 0 true)

/-- The OTP after a write: the counter never decreases, the owner's anchor and key are programmed once (R755, R770). -/
def Otp.write (o : Otp) : OtpWrite → Otp
  | .roll v => { o with roll := max o.roll v }
  | .enroll anchor key => if o.owner.isSome then o else { o with owner := some (anchor, key) }

/-- OTP_WRITE_DONE: the oldest OTP write in progress completes. -/
def execOtpWriteDone (t : Nat) (s : State) : Host.Outcome State Fault Refusal :=
  let s := s.tick t
  match s.cu.otpWrites with
  | [] => .next s
  | w :: rest =>
    let s := s.setCu fun c => { c with otp := c.otp.write w, otpWrites := rest }
    .next (match w with
      | .roll _ => if s.flag CU_RES_BUSY 0 then s.cuDone 0 0 else s
      | .enroll _ _ => s)

end Sys2Proof.Machine
end

