-- ==== Sys2Proof/Machine/Check.lean ====
section
/-! DEFINITION. What the configuration unit refuses in an image: capacities, leases, tables, settings (R60, R93, R752 and the rules it names). -/

namespace Sys2Proof.Machine

/-- Where a check fails: the section, and the entry where the section's layout gives one (R752). -/
abbrev Finding := Nat × Option Nat

/-- A condition that a section must meet. -/
def need (ok : Bool) (sec : Nat) : Option Finding := if ok then none else some (sec, none)

/-- A condition that entry `i` of the LEASE section must meet. -/
def needLease (ok : Bool) (i : Nat) : Option Finding := if ok then none else some (3, some i)

/-- The first finding of a list of checks. -/
def firstOf (l : List (Option Finding)) : Option Finding := l.findSome? id

/-! ### Values of an image -/

/-- Image sections (R740). -/
def secHost : Nat := 1
def secTenant : Nat := 2
def secLease : Nat := 3
def secPort : Nat := 4
def secSteer : Nat := 5
def secMbox : Nat := 6
def secReflex : Nat := 7
def secTime : Nat := 8
def secRing : Nat := 9
def secGather : Nat := 10
def secPair : Nat := 11
def secIrq : Nat := 12
def secFault : Nat := 13
def secPower : Nat := 14
def secEnroll : Nat := 16

/-- A field of instance `i`. -/
def Image.v (m : Image) (f : Fld) (i : Nat) : Nat := m.val f i 0

/-- The image enables an FB port, an SP port, a port of a lease. -/
def Image.fbOn (m : Image) (p : Nat) : Bool := m.v FB_CFG_PRESENT p != 0
def Image.spOn (m : Image) (n : Nat) : Bool := m.v SP_CFG_PRESENT n != 0
def Image.portOn (m : Image) (p : Nat) : Bool := if p < 64 then m.fbOn p else p < 88 && m.spOn (p - 64)

/-- The link of a tenant other than 0 (R65), and whether a tenant has a function on a link (R65, R67). -/
def Image.hasLink (m : Image) (t link : Nat) : Bool :=
  if t = 0 then (if link = 0 then m.bearing0 else m.bearing1) else if t ≤ m.split then link == 0 else link == 1

/-- The leases with their indices. -/
def Image.leaseList (m : Image) : List (Lease × Nat) := m.leases.zipIdx

/-- The leases of a tenant's lease view, in its order (R94). -/
def Image.viewOf (m : Image) (t : Nat) : List Lease := m.leases.filter fun l => l.tenant == t

/-- The sum of a list. -/
def sumOf (l : List Nat) : Nat := l.foldl (· + ·) 0

/-! ### Step 9: capacities (R59, R60) -/

/-- The numbers of a table's entries are below a bound and differ. -/
def numbered (n : Nat) (ks : List Nat) : Bool := ks.all (· < n) && decide ks.Nodup

/-- A steering entry names a set and a mailbox that exist (R59). -/
def Steer.inRange (x : Steer) : Bool := decide (x.dset < 4096) && (match x.mbx with | some k => decide (k < 8192) | none => true)

/-- The limits of R351: at most 16 destinations, each of its number; for each frame kind at most 8, and no tenant twice. -/
def DestSet.fits (x : DestSet) : Bool :=
  numbered 16 (x.dests.map (·.num)) && (List.range 4).all fun k =>
    let mine := (x.dests.filter fun d => bitAt d.kinds k).map (·.tenant)
    decide (mine.length ≤ 8) && decide mine.Nodup

/-- R60: the capacities of R59 that a section can exceed. -/
def Image.capacity (m : Image) : Option Finding :=
  firstOf [
    need (decide (sumOf ((List.range 256).map fun t => m.v TEN_RINGS_COUNT t) ≤ 4096)
      && (List.range 256).all fun t => decide (m.v TEN_RINGS_COUNT t ≤ 256)) secTenant,
    need (decide (m.leases.length ≤ 16384)) secLease,
    need ((m.steer.ternary.all fun g => decide (g.1 < 8 ∧ g.2.length ≤ 1024) && numbered 1024 (g.2.map (·.index))
        && g.2.all fun e => e.steer.inRange) && numbered 131072 (m.steer.base.map (·.1)) && m.steer.base.all (fun x => x.2.inRange)
      && m.steer.sets.all fun x => decide (x.1 < 16384) && x.2.fits && (x.1 % 4096 != 0 || x.2.dests.isEmpty)) secSteer,
    need (m.clear.all fun k => decide (k < 8192)) secMbox,
    need (numbered 4096 (m.steer.rules.map (·.1))) secReflex,
    need (numbered 1024 (m.groups.map (·.1))) secGather,
    need (numbered 512 (m.targets.map (·.1))) secIrq]

/-! ### Step 10: leases (R93, R216, R367, R483) -/

/-- Two transmit leases overlap (R88). -/
def Lease.overlaps (a b : Lease) : Bool :=
  a.tx && b.tx && a.port == b.port && a.fmt == b.fmt && decide (a.lo ≤ b.hi ∧ b.lo ≤ a.hi)

/-- The largest identifier of a format. -/
def fmtMax (fmt : Nat) : Nat := if fmt = 0 then 0x7FF else if fmt = 1 then 0x1FFFFFFF else 0xFF

/-- Bit times of an FB port under an image (R241). -/
def Image.nbt (m : Image) (p : Nat) : Nat := 1 + m.v FB_NBTA_NSEG1 p + m.v FB_NBTB_NSEG2 p
def Image.dbt (m : Image) (p : Nat) : Nat := 1 + m.v FB_DBT_DSEG1 p + m.v FB_DBT_DSEG2 p

/-- The cost of a frame under an image (R304). -/
def Image.cost (m : Image) (p : Nat) (f : Frame) : Nat :=
  let (nb, db) := frameBits f
  if f.fdf && f.brs then nb * m.nbt p + db * m.dbt p else (nb + db) * m.nbt p

/-- The longest frame of each kind in a format. -/
def longest (ide : Bool) (kind : Nat) : Frame :=
  { id := 0, ide := ide, rtr := kind == 1, fdf := decide (kind ≥ 2), brs := kind == 3
    dlc := if kind = 0 then 8 else if kind = 1 then 0 else 15, data := [] }

/-- The largest cost of one frame that a lease's KINDS permit on its port. -/
def Image.maxCost (m : Image) (l : Lease) : Nat :=
  ((List.range 4).map fun k => if bitAt l.kinds k then m.cost l.port (longest (l.fmt == 1) k) else 0).foldl max 0

/-- Items 2 to 6 and 8 of R93 of one lease, and R483 of a serial lease. -/
def Image.leaseOk (m : Image) (l : Lease) : Bool :=
  let sp := l.fmt == 2
  let n := l.port - 64
  decide (l.tenant ≤ devTenant) && decide (l.lo ≤ l.hi ∧ l.hi ≤ fmtMax l.fmt) && decide (l.fmt ≤ 2)
    && (if sp then decide (64 ≤ l.port ∧ l.port < 88) && l.kinds == 0 else decide (l.port < 64) && l.kinds != 0)
    && m.portOn l.port
    && (if sp && m.v SP_CFG_ADDRM n == 0 then l.lo == 0 && l.hi == 0xFF else true)
    && (if l.tx then decide (1 ≤ l.share ∧ l.share ≤ 4096 ∧ m.maxCost l ≤ l.burst * 160) else l.share == 0 && l.burst == 0)
    && (if l.tenant = devTenant then l.tx && decide (l.port < 64) else true)
    && (if sp then decide (l.quota ≤ 32) && (!l.tx || decide ((65 * 13 * m.v SP_BLMAX_BITLEN n + 7) / 8 ≤ l.burst * 160)) else true)

/-- The quotas of a port's leases in one direction. -/
def Image.quotas (m : Image) (p : Nat) (tx : Bool) : Nat :=
  sumOf ((m.leases.filter fun l => l.port == p && l.tx == tx).map (·.quota))

/-- The checks of step 10. -/
def Image.leaseCheck (m : Image) : Option Finding :=
  firstOf (
    (m.leaseList.map fun x => needLease (m.leaseOk x.1 && !(m.leases.take x.2).any x.1.overlaps) x.2)
    ++ [
      need ((List.range 64).all fun p => decide (m.quotas p true + m.v PQ_CFG_RSV p ≤ 512)) secLease,
      need ((List.range 24).all fun n => decide (m.quotas (64 + n) false ≤ 32 ∧ m.quotas (64 + n) true ≤ 32)) secLease,
      need ((List.range 24).all fun n => m.v SP_CFG_ADDRM n != 0
        || decide ((m.leases.filter fun l => l.tx && l.port == 64 + n).length ≤ 1)) secLease,
      need ((List.range 257).all fun t => decide ((m.viewOf t).length ≤ 4096)) secLease,
      need (decide (sumOf ((m.leases.filter fun l => !l.tx && l.port < 64).map (·.quota)) ≤ 28160)) secLease,
      need ([0, 1].all fun link =>
        decide (sumOf (((List.range 256).filter fun t => m.hasLink t link).map fun t => m.v TEN_TXPOOL_POOL t) ≤ 4096)) secTenant])

/-! ### Step 11: steering (R354, R355) -/

/-- A frame of a kind and identifier, as a header. -/
def headerOf (ide : Bool) (id kind : Nat) : Header :=
  { id := id, ide := ide, rtr := kind == 1, fdf := decide (kind ≥ 2), brs := kind == 3, esi := false, dlc := 0, sofAgo := 0 }

/-- The tenants whose receive leases cover a frame: the port owner first, then in ascending number (R355). -/
def Image.receivers (m : Image) (p : Nat) (h : Header) (kind : Nat) : List Nat :=
  let ts := (m.leases.filter fun l => !l.tx && l.covers p (b2n h.ide) kind h.id).map (·.tenant)
  let owner := m.v FB_OWNER_TENANT p
  let named := m.v FB_OWNER_VALID p != 0 && ts.contains owner
  (if named then [owner] else []) ++ (List.range 256).filter fun t => ts.contains t && !(named && t == owner)

/-- The destinations that the image's tables give a frame. -/
def Image.steered (m : Image) (p : Nat) (h : Header) (kind : Nat) : List Dest :=
  (m.steer.set (p / 16) (m.steer.lookup p h).dset).listed.filter fun d => bitAt d.kinds kind

/-- A frame is delivered to exactly the tenants it is due to, each by its lowest-indexed covering lease. -/
def Image.steerOk (m : Image) (p : Nat) (h : Header) (kind : Nat) : Bool :=
  let ds := m.steered p h kind
  let due := (m.receivers p h kind).take 8
  decide (ds.length = due.length) && due.all (fun t => ds.any fun d => d.tenant == t)
    && ds.all fun d => (m.viewOf d.tenant).findIdx? (fun l => !l.tx && l.covers p (b2n h.ide) kind h.id) == some d.lease

/-- R354: the meaning of the tables against the leases, and their limits. -/
def Image.steering (m : Image) : Bool :=
  ((List.range 64).filter m.fbOn).all (fun p => (List.range 4).all fun k =>
      (List.range 0x800).all (fun id => m.steerOk p (headerOf false id k) k)
        && (List.range 0x20000000).all fun id => m.steerOk p (headerOf true id k) k)
    && (List.range 4).all (fun lane => decide ((m.steer.sets.filter fun x => x.1 / 4096 == lane && !x.2.dests.isEmpty).length ≤ 4095))

/-! ### Step 11: reflex rules (R419) -/

/-- More than `k` of the patterns (value, mask) hold together with what is fixed so far. -/
def jointly : Nat → List (Nat × Nat) → Nat × Nat → Bool
  | 0, _, _ => true
  | _, [], _ => false
  | k + 1, r :: rs, a =>
    jointly (k + 1) rs a
      || (((r.1 ^^^ a.1) &&& r.2 &&& a.2) == 0 && jointly k rs ((r.1 &&& r.2) ||| (a.1 &&& a.2), r.2 ||| a.2))

/-- The header part of a rule as value and mask (R395), in the layout of `matchBits`. -/
def rulePattern (ws : List Nat) : Nat × Nat := (ruleBits (ruleW ws 0) (ruleW ws 1), ruleBits (ruleW ws 2) (ruleW ws 3))

/-- The headers that exist: base or extended, each kind; a base identifier compares as 0 above bit 10 (R397). -/
def headerKinds : List (Bool × Nat) := [false, true].flatMap fun ide => (List.range 4).map fun k => (ide, k)

/-- What format and kind fix of a header's bits. -/
def kindPattern (ide : Bool) (kind : Nat) : Nat × Nat :=
  (matchBits 0 (headerOf ide 0 kind), 0xF * 2 ^ 34 + if ide then 0 else (2 ^ 29 - 2 ^ 11))

/-- The ports of a rule's half that its header part can match. -/
def rulePorts (r : Nat) (ws : List Nat) : List Nat :=
  ((List.range 32).filter fun q => ((q ^^^ bitsOf (ruleW ws 1) 5 5) &&& bitsOf (ruleW ws 3) 5 5) == 0).map fun q => r / 2048 * 32 + q

/-- Item 3 for one port: one receive lease of the rule's tenant covers every frame the header part can match there, or the tenant owns the
port. -/
def Image.ruleCovered (m : Image) (t p : Nat) (ws : List Nat) : Bool :=
  let pat := rulePattern ws
  (m.v FB_OWNER_VALID p != 0 && m.v FB_OWNER_TENANT p == t) || m.leases.any fun l =>
    !l.tx && l.tenant == t && l.port == p && headerKinds.all fun x =>
      let k := kindPattern x.1 x.2
      let top := 2 ^ (if x.1 then 29 else 11) - 1
      let lo := pat.1 &&& pat.2 &&& top
      ((pat.1 ^^^ k.1) &&& pat.2 &&& k.2) != 0
        || (l.fmt == b2n x.1 && bitAt l.kinds x.2 && decide (l.lo ≤ lo ∧ lo + (top - (pat.2 &&& top)) ≤ l.hi))

/-- The reply of a rule as a frame. -/
def replyShape (ws : List Nat) : Frame :=
  let w := ruleW ws 10
  { id := ruleW ws 9 % 2 ^ 24 + bitsOf w 0 5 * 2 ^ 24, ide := bitAt w 11, rtr := bitAt w 12, fdf := bitAt w 13, brs := bitAt w 14
    dlc := bitsOf w 15 4, data := [] }

/-- Item 4: a reply is covered by the transmit lease named. -/
def Image.replyOk (m : Image) (t : Nat) (ws : List Nat) : Bool :=
  let f := replyShape ws
  let p := bitsOf (ruleW ws 10) 5 6
  let leased := match (m.viewOf t)[bitsOf (ruleW ws 7) 8 12]? with
    | some l => l.tx && l.covers p (b2n f.ide) (frameKind f.rtr f.fdf f.brs) f.id
    | none => false
  leased && m.v PQ_CFG_RSV p != 0 && decide (dataLen f.fdf f.rtr f.dlc ≤ 16) && !(!f.fdf && f.brs) && !(f.rtr && f.fdf)

/-- A latch of a half belongs to a tenant. -/
def Image.latchOf (m : Image) (half n t : Nat) : Bool := m.steer.latches.any fun x => x.1 == half * 256 + n && x.2 == t

/-- Items 5 and 10: a substitution. -/
def Image.subOk (m : Image) (half t sub : Nat) : Bool :=
  let arg := bitsOf sub 0 8
  let src := bitsOf sub 8 3
  let dst := bitsOf sub 11 4
  let len := bitsOf sub 15 3 + 1
  sub / 2 ^ 18 == 0 && (match src with
    | 0 => arg == 0 && dst == 0 && len == 1
    | 1 => decide (dst + len ≤ 16 ∧ arg + len ≤ 64)
    | 2 => decide (dst + len ≤ 16) && m.latchOf half arg t
    | 3 => decide (dst + len ≤ 16 ∧ arg + len ≤ 8)
    | 4 => decide (dst + len ≤ 16 ∧ arg + len ≤ 3)
    | _ => false)

/-- The image grants a line of a bank to a tenant as an output. -/
def Image.outputOf (m : Image) (b line t : Nat) : Bool :=
  bitAt (m.v DB_PERMOUT_LINES b) line && bitAt (m.v DB_GRANTV_VALID b) line
    && bitsOf (m.val DB_GRANT_TENANT b (line / 3)) (8 * (line % 3)) 8 == t

/-- The owner of an interrupt source under an image (R634). -/
def Image.sourceOwner (m : Image) (k : Nat) : Option Nat :=
  if k < 512 then (if m.v FB_OWNER_VALID (k / 8) != 0 then some (m.v FB_OWNER_TENANT (k / 8)) else none)
  else if k < 608 then (if m.v SP_OWNER_VALID ((k - 512) / 4) != 0 then some (m.v SP_OWNER_TENANT ((k - 512) / 4)) else none)
  else if k < 704 then (if m.v DB_CFG_PRESENT ((k - 608) / 8) != 0 then some (m.v DB_OWNER_TENANT ((k - 608) / 8)) else none)
  else if k < 720 then some (m.v RG_CFG_RGOWNER 0)
  else if k < 728 then some (m.v PR_CFG_POWNER 0)
  else if k < 736 then some (m.v TU_CFG_TOWNER 0)
  else if k < 752 then (m.groups.find? fun g => g.2.valid && g.2.srcen && g.2.srci == k - 736).map fun g => g.2.tenant
  else if k < 768 then some (m.val FC_GCFG_GOWNER 0 (k - 752))
  else if k < 1024 then some (k - 768) else none

/-- A remote grant of the image covers a request (R534). -/
def Image.grants? (m : Image) (src tenant origin cls obj : Nat) (write : Bool) : Bool :=
  m.grants.any fun g =>
    decide (g.snodeLo ≤ src ∧ src ≤ g.snodeHi) && (g.stany || g.stenant == tenant) && bitAt g.origins origin
      && g.cls == cls && decide (g.objLo ≤ obj ∧ obj ≤ g.objHi) && (if write then g.w else g.r)

/-- Item 8: the mailbox write of a rule. -/
def Image.rmbxOk (m : Image) (t : Nat) (ws : List Nat) : Bool :=
  let node := bitsOf (ruleW ws 14) 0 8
  let own := m.v RG_CFG_NODE 0
  if node = 0 ∨ node = own then m.grants? own t 1 1 (bitsOf (ruleW ws 14) 8 13) true else decide (node ≤ 250)

/-- Reserved fields of a rule (R395), item 11. -/
def ruleReserved (ws : List Nat) : Bool :=
  let w := ruleW ws
  bitsOf (w 1) 20 4 == 0 && bitsOf (w 3) 18 6 == 0 && bitsOf (w 6) 23 1 == 0 && bitsOf (w 7) 20 4 == 0 && bitsOf (w 8) 22 2 == 0
    && bitsOf (w 10) 19 5 == 0 && bitsOf (w 11) 22 2 == 0 && bitsOf (w 12) 16 8 == 0 && bitsOf (w 13) 20 4 == 0
    && bitsOf (w 14) 21 3 == 0 && bitsOf (w 15) 17 7 == 0 && bitsOf (w 21) 8 16 == 0

/-- Items 2 to 11 of R419 of one rule. -/
def Image.ruleOk (m : Image) (r : Nat) (ws : List Nat) : Bool :=
  let w := ruleW ws
  let t := bitsOf (w 7) 0 8
  let half := r / 2048
  let act := bitsOf (w 8) 0 6
  let on := bitAt (w 1) 19
  let b := bitsOf (w 11) 0 4
  ((rulePorts r ws).all fun p => m.fbOn p && (!on || m.ruleCovered t p ws))
    && (!bitAt act 0 || m.replyOk t ws)
    && m.subOk half t (w 22) && m.subOk half t (w 23)
    && (!bitAt act 1 || (bitsOf (w 11) 4 2 != 3 && !(bitsOf (w 11) 4 2 == 2 && bitsOf (w 12) 0 16 == 0) && decide (b < 12)
        && (List.range 16).all fun n => !bitAt (bitsOf (w 11) 6 16) n || m.outputOf b n t))
    && (!bitAt act 2 || m.sourceOwner (bitsOf (w 13) 0 10) == some t)
    && (!bitAt act 3 || m.rmbxOk t ws)
    && (!bitAt act 4 || m.groups.any fun g => g.1 == bitsOf (w 13) 10 10 && g.2.valid && g.2.tenant == t && g.2.grant 2)
    && (!bitAt act 5 || m.latchOf half (bitsOf (w 15) 0 8) t)
    && ruleReserved ws && !(on && act == 0)

/-- Item 1 of R419: in neither half can some header match more than four rules. -/
def Image.fourAtMost (m : Image) : Bool :=
  [0, 1].all fun half =>
    let ps := (m.steer.rules.filter fun r => r.1 / 2048 == half && bitAt (ruleW r.2 1) 19).map fun r => rulePattern r.2
    headerKinds.all fun x => !jointly 5 ps (kindPattern x.1 x.2)

/-! ### Step 11: gather groups (R575) -/

/-- The words and bits that a KIND of element may name. -/
def elemRange (d : GtDef) (e : Nat) : Bool :=
  let top := bitsOf (d.word (5 + 2 * e)) 8 5 + bitsOf (d.word (5 + 2 * e)) 3 5
  let wd := d.wordNo e
  bitsOf (d.word (5 + 2 * e)) 19 5 == 0 && decide (d.node e ≤ 250) && (match d.kind e with
    | 1 => decide (1 ≤ wd ∧ wd ≤ 30 ∧ top ≤ 23)
    | 2 => decide (d.object e ≤ 191) && wd == 0 && decide (top ≤ 15)
    | 3 => decide (d.object e ≤ 11 ∧ top ≤ 23)
    | _ => false)

/-- Item 5: a local element is granted to the group's tenant for reading; a bank on all of its 16 lines (R535). -/
def Image.elemGranted (m : Image) (d : GtDef) (e : Nat) : Bool :=
  let own := m.v RG_CFG_NODE 0
  if d.node e ≠ 0 ∧ d.node e ≠ own then true
  else if d.kind e = 3 then (List.range 16).all fun n => m.grants? own d.tenant 2 4 (16 * d.object e + n) false
  else m.grants? own d.tenant 2 (gtClass (d.kind e)) (d.object e) false

/-- The group with a number, if it has VALID 1. -/
def Image.group (m : Image) (g : Nat) : Option GtDef := (m.groups.find? fun x => x.1 == g && x.2.valid).map (·.2)

/-- The chain from a group comes back to it (item 9): at most `n` more links. -/
def Image.chained (m : Image) (start : Nat) : Nat → Nat → Bool
  | 0, _ => false
  | n + 1, g =>
    match m.group g with
    | none => false
    | some d => d.nexten && (d.next == start || m.chained start n d.next)

/-- R575 of one group. -/
def Image.groupOk (m : Image) (g : Nat) (d : GtDef) : Bool :=
  decide (d.op ≤ 5) && decide (1 ≤ d.nel ∧ d.nel ≤ 16)
    && (List.range 16).all (fun e =>
      if e < d.nel then elemRange d e && (d.op == 1 || d.shift e == 0) && m.elemGranted d e
      else d.word (4 + 2 * e) == 0 && d.word (5 + 2 * e) == 0)
    && (d.period == 0 || decide (100 ≤ d.period ∧ d.phase < d.period)) && !(d.grant 1 && d.period == 0)
    && decide (d.resring < m.v TEN_RINGS_COUNT d.tenant)
    && (!d.nexten || (match m.group d.next with | some x => x.tenant == d.tenant | none => false))
    && !m.chained g 1025 g
    && (!d.srcen || m.groups.all fun x => !x.2.valid || !x.2.srcen || x.2.srci != d.srci || x.2.tenant == d.tenant)

/-- The checks of step 11. -/
def Image.tables (m : Image) : Option Finding :=
  firstOf [
    need m.steering secSteer,
    need (m.fourAtMost && m.steer.rules.all fun r => m.ruleOk r.1 r.2) secReflex,
    need (m.groups.all fun x => !x.2.valid || m.groupOk x.1 x.2) secGather]

/-! ### Step 12: settings -/

/-- R241 and R293 of an FB port, and RSV (R325). -/
def Image.portSettings (m : Image) (p : Nat) : Bool :=
  let n1 := m.v FB_NBTA_NSEG1 p
  let n2 := m.v FB_NBTB_NSEG2 p
  let d1 := m.v FB_DBT_DSEG1 p
  let d2 := m.v FB_DBT_DSEG2 p
  let fd := m.v FB_CFG_FDOE p != 0
  let brs := m.v FB_CFG_BRSE p != 0
  decide (160 ≤ m.nbt p ∧ m.nbt p ≤ 16000) && decide (1 ≤ n1 ∧ n1 ≤ 15997) && decide (2 ≤ n2 ∧ n2 ≤ 4000)
    && decide (1 ≤ m.v FB_NBTB_NSJW p ∧ m.v FB_NBTB_NSJW p ≤ min n1 n2)
    && decide (20 ≤ m.dbt p ∧ m.dbt p ≤ 160 ∧ m.dbt p ≤ m.nbt p) && decide (1 ≤ d1 ∧ d1 ≤ 158) && decide (2 ≤ d2 ∧ d2 ≤ 80)
    && decide (1 ≤ m.v FB_DBT_DSJW p ∧ m.v FB_DBT_DSJW p ≤ min d1 d2) && decide (m.v FB_TDCO_TDCO p ≤ 1279)
    && decide (2 ≤ m.v FB_WAKE_WFILT p ∧ m.v FB_WAKE_WFILT p ≤ 20)
    && (m.v FB_AR_EN p == 0 || (m.v FB_AR_K p != 0 && m.v FB_AR_LIMIT p != 0)) && !(brs && !fd)
    && m.leases.all fun l => l.port != p || ((fd || l.kinds / 4 % 4 == 0) && (brs || !bitAt l.kinds 3))

/-- A device lease covers an identifier as a classic data frame. -/
def Image.devCovers (m : Image) (p fmt id : Nat) : Bool := m.leases.any fun l => l.tx && l.tenant == devTenant && l.covers p fmt 0 id

/-- The image gives a field of page 2 of the time unit a value for port `p`. -/
def Image.sets (m : Image) (f : Fld) (p : Nat) : Bool := m.rwi.any fun x => x.1 == f && x.2.1 == 0 && x.2.2.1 == p

/-- R466 of an FB port, whatever its role and whether it is present: what the image sets for it; a port with a role needs every setting. -/
def Image.timePort (m : Image) (p : Nat) : Bool :=
  let role := m.v FB_ROLE_TTROLE p
  let set := fun (f : Fld) => role != 0 || m.sets f p
  let cyc := m.val TT_RD3_CYC_LEN 0 p
  let dlc := m.val TT_RD0_RM_DLC 0 p
  let ide := m.val TT_RD0_RM_IDE 0 p
  let id := m.val TT_RD1_RM_ID_L 0 p + m.val TT_RD2_RM_ID_H 0 p * 2 ^ 24
  let frame : Frame := { id := id, ide := ide != 0, rtr := false, fdf := false, brs := false, dlc := dlc, data := [] }
  role != 3 && [0, 1, 3, 7, 15, 31, 63].contains (m.val TT_RD0_CCMAX 0 p)
    && (!set TT_RD3_CYC_LEN || decide (100 ≤ cyc ∧ cyc ≤ 1000000 ∧ 2 * m.cost p frame ≤ cyc * 160))
    && (!set TT_RD4_ORIGIN || decide (m.val TT_RD4_ORIGIN 0 p < cyc)) && (!set TT_RD0_RM_DLC || decide (1 ≤ dlc ∧ dlc ≤ 8))
    && (role != 1 || m.devCovers p ide id) && (role != 2 || decide (cyc ≤ m.val TT_RD5_RM_TIMEOUT 0 p))

/-- A function's tenant under the image. -/
def Image.tenantOf (m : Image) (f : Func) : Option Nat :=
  if f.link > 1 then none
  else if f.fn = 0 then (if m.hasLink 0 f.link then some 0 else none)
  else if f.link = 0 then (if f.fn ≤ m.split then some f.fn else none)
  else if m.split + f.fn ≤ 255 then some (m.split + f.fn) else none

/-- A page that several tenants may write: the per-tenant pages, the groups' registers of the fault collector, and the command and pull pages of the
configuration unit, which its carriers share. -/
def sharedPage (page : Nat) : Bool := decide (page < 0x14) || page == 0x21 || page == 0x38 || page == 0x3A || page == 0x91 || page == 0xC3

/-- The fixed entries of the access filter (R76, R386): a port's pages open for write only to its owner, mailbox pages to one tenant and for
read only, and no page for write to two tenants but those that each tenant has for itself. (DEDUCED, log entry 100.) -/
def Image.filter (m : Image) : Bool :=
  let who := fun (p : PageOpen) => m.tenantOf ⟨p.link, p.fn⟩
  let ownFb := fun (n : Nat) (p : PageOpen) => m.fbOn n && who p == some (m.v FB_OWNER_TENANT n)
  m.pages.all fun p =>
    let mail := decide (0x400 ≤ p.page ∧ p.page < 0x600)
    (!p.write || (if 0x100 ≤ p.page ∧ p.page < 0x200 then ownFb ((p.page - 0x100) / 4) p
      else if 0x200 ≤ p.page ∧ p.page < 0x230 then m.spOn ((p.page - 0x200) / 2) && who p == some (m.v SP_OWNER_TENANT ((p.page - 0x200) / 2))
      else if 0x280 ≤ p.page ∧ p.page < 0x2C0 then ownFb (p.page - 0x280) p
      else !mail))
    && m.pages.all fun q => q.page != p.page || who q == who p || (!mail && (!(p.write && q.write) || sharedPage p.page))

/-- R466 of the time unit: its own settings, and page 0 open for write only to TOWNER. -/
def Image.timeUnit (m : Image) : Bool :=
  let line := m.v TU_PPS_PPSIN_LINE 0
  let fn := bitsOf (m.v (if line % 16 < 8 then DB_FUNC0_FUNC else DB_FUNC1_FUNC) (line / 16)) (3 * (line % 8)) 3
  decide (1 ≤ m.v TU_SYNC_SYNCPER 0 ∧ m.v TU_SYNC_SYNCPER 0 ≤ 80) && m.v TU_SYNC_OUTLIER 0 != 0
    && decide (1 ≤ m.v TU_LIMITS_SLEWMAX 0 ∧ m.v TU_LIMITS_SLEWMAX 0 ≤ 100) && decide (1 ≤ m.v TU_PPS_PPSW 0 ∧ m.v TU_PPS_PPSW 0 ≤ 999)
    && (m.v TU_CFG_PPSIN_EN 0 == 0 || (decide (line < 192) && fn == 4))
    && !(m.v TU_CFG_HOSTSET 0 != 0 && m.v TU_CFG_TMPRI 0 == 0)
    && m.pages.all fun p => !(p.page == 0x80 && p.write) || m.tenantOf ⟨p.link, p.fn⟩ == some (m.v TU_CFG_TOWNER 0)

/-- R569. -/
def Image.ringSettings (m : Image) : Bool :=
  let rate := fun (f : Fld) => decide (1 ≤ m.v f 0 ∧ m.v f 0 ≤ 111)
  decide (1 ≤ m.v RG_CFG_NODE 0 ∧ m.v RG_CFG_NODE 0 ≤ 250) && decide (10 ≤ m.v RG_RTMO_RTMO 0 ∧ m.v RG_RTMO_RTMO 0 ≤ 10000)
    && rate RG_RATE_A_RATE_REQ && rate RG_RATE_A_RATE_RSP && rate RG_RATE_B_RATE_REQ && rate RG_RATE_B_RATE_RSP
    && (List.range 4).all (fun n => decide (10 ≤ m.v RL_CFG_RETRY n ∧ m.v RL_CFG_RETRY n ≤ 10000))
    && decide (m.grants.length ≤ 2048)
    && m.grants.all fun g => decide (g.snodeLo ≤ g.snodeHi ∧ g.objLo ≤ g.objHi ∧ 1 ≤ g.cls ∧ g.cls ≤ 5 ∧ g.origins < 8)
      && !(g.w && (g.cls == 2 || g.cls == 3 || g.cls == 5))

/-- R634 to R636 and R74: targets and default targets. -/
def Image.irqSettings (m : Image) : Bool :=
  m.targets.all (fun x => (m.tenantOf x.2).isSome)
    && (m.targets.map (·.2)).all (fun f => decide ((m.targets.filter fun x => x.2 == f).length ≤ 64))
    && [0, 1].all (fun link => (List.range 256).all fun fn =>
      (m.tenantOf ⟨link, fn⟩).isNone || m.targets.any fun x => x.2 == (⟨link, fn⟩ : Func))
    && (List.range 1024).all fun k => match m.sourceOwner k with
      | none => true
      | some t => match m.targets.find? fun x => x.1 == tget 0 m.defTargets k with
        | some x => m.tenantOf x.2 == some t
        | none => false

/-- R676 and R700: fault sources and cascades. -/
def Image.faultSettings (m : Image) : Bool :=
  let casc := fun g h => bitAt (m.val FC_GCFG_CASCADE 0 g) h
  (List.range 256).all (fun k =>
      let en := m.val FC_SCFG_EN 0 k != 0
      !(en && m.val FC_SCFG_THRESH 0 k == 0) && !(k == 187 && m.val FC_SCFG_THRESH 0 k != 1) && !(en && faultReserved k)
        && (k < 240 || m.val FC_SCFG_GROUP 0 k == k - 240))
    && (List.range 16).all fun g => (List.range 16).all fun h => (List.range 16).all fun k =>
      !(casc g h && casc h k) || casc g k

/-- R722 of an FB port. -/
def Image.aniseSettings (m : Image) (p : Nat) : Bool :=
  let v := fun (f : Fld) => m.val f 0 p
  let id := v PM_ARD0_ID_L + v PM_ARD1_ID_H * 2 ^ 24
  let fmt := v PM_ARD1_IDE
  if v PM_ARD1_ANISE_EN = 0 then v PM_ARD1_FSLEEP == 0
  else m.v FB_WAKE_WAKE_EN p != 0 && m.v FB_ROLE_WITNESS p == 0 && (v PM_ARD2_MEMB_L != 0 || v PM_ARD3_MEMB_H != 0)
    && decide (1 ≤ v PM_ARD1_WIN ∧ v PM_ARD1_WIN ≤ 1000) && decide (id + 32 ≤ fmtMax fmt) && m.devCovers p fmt id
    && m.leases.all fun l => !(l.tx && l.tenant != devTenant && l.port == p && l.fmt == fmt && decide (l.lo ≤ id + 32 ∧ id + 1 ≤ l.hi))

/-- The Clove of an FB port: an extended classic data frame without data (R603, R617). -/
def Image.cloveCost (m : Image) (p : Nat) : Nat :=
  m.cost p { id := 0, ide := true, rtr := false, fdf := false, brs := false, dlc := 0, data := [] }

/-- R603: a paired image. -/
def Image.pairSettings (m : Image) : Bool :=
  let lo := m.v PR_CLVPFX_PFX 0 * 2 ^ 21
  m.v PR_CFG_PAIRED 0 == 0
    || (decide (1 ≤ m.v PR_CFG_PNODE 0 ∧ m.v PR_CFG_PNODE 0 ≤ 250) && m.v PR_CFG_PNODE 0 != m.v RG_CFG_NODE 0
      && m.v PR_PSER0_SERIAL 0 % 2 ^ 12 != Config.serial % 2 ^ 12
      && decide (10 ≤ m.v PR_JOIN_JOIN_TMO 0 ∧ m.v PR_JOIN_JOIN_TMO 0 ≤ 10000)
      && ((List.range 64).filter fun p => m.fbOn p && m.v FB_ROLE_WITNESS p != 0).all fun p =>
        (m.leases.any fun l => l.tx && l.tenant == devTenant && l.port == p && l.fmt == 1 && bitAt l.kinds 0
          && decide (l.lo ≤ lo ∧ lo + 0x1FFFFF ≤ l.hi ∧ m.cloveCost p ≤ l.burst * 160))
        && (m.leases.filter fun l => l.tx && l.port == p).all fun l => decide (m.maxCost l + 2 * m.cloveCost p ≤ 56000))

/-- The checks of step 12 (a PF bears tenant 0, R67), those of R241 and R293 for the ports with PRESENT 1 (DESIGN CHOICE, log entry 109); `dir` says that the section directory holds (R740), `signer` who signed the object (R770). -/
def Image.settings (m : Image) (dir : Bool) (signer : Nat) : Option Finding :=
  firstOf [
    need dir 0,
    need (m.filter && (m.bearing0 || m.bearing1)) secHost,
    need ((List.range 64).all fun p => (!m.fbOn p || m.portSettings p) && decide (m.v PQ_CFG_RSV p ≤ 64)) secPort,
    need (m.timeUnit && (List.range 64).all m.timePort) secTime,
    need m.ringSettings secRing,
    need m.pairSettings secPair,
    need m.irqSettings secIrq,
    need m.faultSettings secFault,
    need ((List.range 64).all m.aniseSettings) secPower,
    need (m.enroll.isNone || signer == 2) secEnroll]

end Sys2Proof.Machine
end

