-- ==== Sys2Proof/Machine/Handover.lean ====
section
/-! DEFINITION. The handover record: what the writer puts into it, and when its reader refuses it (R764-R766). -/

namespace Sys2Proof.Machine

/-! ### CRC-32 (R518, R764) -/

/-- One bit of the CRC-32 of IEEE 802.3, least significant bit first. -/
def crcBit (c : Nat) : Nat := if c % 2 = 1 then (c / 2) ^^^ 0xEDB88320 else c / 2

/-- One byte. -/
def crcByte (c : Nat) (b : Byte) : Nat := (List.range 8).foldl (fun c _ => crcBit c) (c ^^^ b.toNat)

/-- The CRC-32 of IEEE 802.3 of a string of bytes. -/
def crc32 (l : List Byte) : Nat := l.foldl crcByte 0xFFFFFFFF ^^^ 0xFFFFFFFF

/-! ### Entries (R764) -/

/-- An entry: TYPE, 0, the length of its body, its body. -/
def hoEntry (typ : Nat) (body : List Byte) : List Byte := leBytes 1 typ ++ [0] ++ leBytes 2 body.length ++ body

/-- The key of a lease: TENANT, PORT, DIR in bit 0 and FMT in bit 1, LO, HI. -/
def leaseKey (l : Lease) : List Byte :=
  leBytes 1 l.tenant ++ leBytes 1 l.port ++ leBytes 1 (b2n l.tx + l.fmt % 2 * 2) ++ leBytes 4 l.lo ++ leBytes 4 l.hi

/-- FBPORT of the ports with PRESENT 1. -/
def State.hoPorts (s : State) : List (List Byte) :=
  ((List.range 64).filter s.img.fbOn).map fun p =>
    let ages := s.recentClears p
    hoEntry 1 (leBytes 1 p ++ leBytes 1 (s.fstate p) ++ leBytes 2 (s.rd FB_ERRC_TEC p) ++ leBytes 1 (s.rd FB_ERRC_REC p)
      ++ leBytes 1 (s.rd FB_STAT_BOMEM p + s.rd FB_BOSUP_HELD p * 2) ++ leBytes 2 (s.rd FB_BOSUP_OCC p) ++ leBytes 3 (s.port p).rxSeq
      ++ leBytes 1 ages.length ++ ages.flatMap fun a => leBytes 4 ((s.now - a) / tqPerMs))

/-- SPPORT of the ports with PRESENT 1. -/
def State.hoSerial (s : State) : List (List Byte) :=
  ((List.range 24).filter s.img.spOn).map fun n =>
    hoEntry 2 (leBytes 1 n ++ leBytes 1 (s.spState n) ++ leBytes 3 (s.spt n).seq ++ leBytes 1 (b2n (s.spt n).rec_.isSome))

/-- LEASE of each lease, in index order. -/
def State.hoLeases (s : State) : List (List Byte) :=
  s.img.leases.zipIdx.map fun x => hoEntry 3 (leaseKey x.1 ++ leBytes 2 (s.lrt x.2).used ++ leBytes 4 (s.tokens x.2 / 4096))

/-- QENTRY of a queue entry. -/
def State.hoQueued (s : State) (p : Nat) (e : QEntry) : List Byte :=
  let key := fun (l : Nat) => match s.img.leases[l]? with
    | some x => leaseKey x
    | none => List.replicate 11 0
  let src := match e.src with
    | .tenant l => leBytes 1 0 ++ key l
    | .reflex r => leBytes 1 1 ++ leBytes 2 r
    | .device l _ => leBytes 1 2 ++ key l
  let f := e.frame
  hoEntry 4 (leBytes 1 p ++ src ++ leBytes 4 e.seq ++ leBytes 4 e.cost ++ leBytes 1 (b2n e.inflight) ++ leBytes 1 (e.ring % 256) ++ leBytes 2 e.pos
    ++ leBytes 4 e.tag ++ leBytes 1 (b2n e.nocomp) ++ leBytes 4 f.id
    ++ leBytes 1 (b2n f.ide + b2n f.rtr * 2 + b2n f.fdf * 4 + b2n f.brs * 8) ++ leBytes 1 f.dlc ++ f.data)

/-- BANK of the banks with PRESENT 1. -/
def State.hoBanks (s : State) : List (List Byte) :=
  ((List.range 12).filter fun b => s.img.v DB_CFG_PRESENT b != 0).map fun b =>
    let d := s.bank b
    let left := fun (j : Nat) => ((d.ends.find? fun x => x.1 == j).map fun x => (x.2 - s.now) / tqPerUs).getD 0
    hoEntry 5 (leBytes 1 b ++ leBytes 2 (s.rd DB_OUT_CMD b) ++ leBytes 2 (s.rd DB_IN_LEVEL b)
      ++ ((List.range 16).flatMap fun j => leBytes 3 (left j)) ++ ((List.range 16).flatMap fun j => leBytes 1 (tget {} d.runs j).count)
      ++ ((List.range 16).flatMap fun j => leBytes 3 (s.rdA DB_CNT_COUNT b j)) ++ leBytes 1 d.fifo.length
      ++ d.fifo.flatMap fun e => (List.range 4).flatMap fun k => leBytes 3 (tsWord e k))

/-- TIME: the items of R431. -/
def State.hoTime (s : State) : List Byte :=
  let stat := s.rd TU_STAT_STATE 0 * 2 ^ 22 + b2n (s.flag TU_STAT_SLEW 0) * 2 ^ 21 + b2n (s.flag TU_STAT_VALID 0) * 2 ^ 19
    + b2n (s.flag TU_STAT_MASTER 0) * 2 ^ 18 + b2n (s.flag TU_STAT_SUPP_PEND 0) * 2 ^ 17
  let master := s.rd TU_MASTER_NODE 0 * 2 ^ 16 + s.rd TU_MASTER_HOPS 0 * 2 ^ 8 + s.rd TU_MASTER_TMPRI 0 * 2 ^ 4 + s.rd TU_MASTER_MSTATE 0 * 4
    + s.rd TU_MASTER_MVALID 0 * 2 + s.rd TU_MASTER_RING 0
  let alarm := [s.rd TU_ALARM0_NS_15_0 0 * 256 + s.rd TU_ALARM0_FRAC 0, s.rd TU_ALARM1_NS_39_16 0, s.rd TU_ALARM2_NS_63_40 0]
  hoEntry 6 (([stat, s.rd TU_FREQ_FREQ 0, toTwos 24 s.holdoverFreq, s.discSeconds, s.holdSeconds, toTwos 24 (-(s.time.slewRem / 2 ^ 32)), master]
    ++ alarm ++ [b2n (s.flag TU_ALCTL_ARMED 0) * 2 ^ 23 + b2n (s.flag TU_ALCTL_LATE 0) * 2 ^ 22]).flatMap fun v => leBytes 3 v)

/-- IRQ of the sources that an image assigns, each with its target. -/
def State.hoIrq (s : State) : List (List Byte) :=
  ((List.range 1024).filter fun k => (s.img.sourceOwner k).isSome).map fun k =>
    let g := s.rdA IC_SRC_TARGET 0 k
    let w := tget none s.ic.win g
    hoEntry 7 (leBytes 2 k ++ leBytes 1 (s.rdA IC_SRC_P 0 k + s.rdA IC_SRC_STATE 0 k * 2 + tget 0 s.ic.cpri k * 16) ++ leBytes 2 g
      ++ leBytes 1 (s.rd IC_TSTAT_ARMED g + ((w.map (·.count)).getD 0) * 2)
      ++ leBytes 2 ((w.map fun x => (s.time.ivl - x.at_) / (1000 * ivlNs)).getD 0))

/-- RULE of each rule of the bank in force, LATCH of each latch assigned, GROUP of each gather group. -/
def State.hoRules (s : State) : List (List Byte) :=
  let b := s.img.steer
  (b.rules.map fun r => hoEntry 8 (leBytes 2 r.1 ++ leBytes 1 (ruleW r.2 7) ++ leBytes 3 (s.rdA RU_FCNT_COUNT 0 r.1)
      ++ leBytes 8 (tget 0 s.ru.fired r.1)))
    ++ (b.latches.map fun x =>
      let l := s.latchSt x.1
      hoEntry 9 (leBytes 1 (x.1 / 256) ++ leBytes 1 x.1 ++ padTo 8 (l.recent.foldl (fun v y => storeOver v y.2.2) l.base)))
    ++ (s.img.groups.filter fun x => x.2.valid).map fun x =>
      let g := s.grp x.1
      hoEntry 10 (leBytes 2 x.1 ++ leBytes 1 x.2.tenant ++ leBytes 3 g.seq ++ leBytes 1 (b2n g.satStk + b2n g.done * 2))

/-- ANISE of the ports with ANISE_EN 1. -/
def State.hoAnise (s : State) : List (List Byte) :=
  ((List.range 64).filter s.aniseOn).map fun p =>
    hoEntry 11 (leBytes 1 p ++ leBytes 1 (s.rdA PM_PSLP_ASTATE 0 p) ++ leBytes 1 (s.rdA PM_PSLP_ROUND 0 p)
      ++ leBytes 1 (s.rdA PM_PSLP_VETO 0 p + s.rdA PM_PSLP_FSL 0 p * 2))

/-! ### The record (R764, R766) -/

/-- A record of entries, END after them. (DESIGN CHOICE, log entry 114.) -/
def hoRecord (schema writer reader : Nat) (entries : List (List Byte)) : List Byte :=
  let all := entries ++ [hoEntry 15 []]
  let body := all.flatten
  leBytes 2 schema ++ [0, 0] ++ leBytes 4 all.length ++ leBytes 4 (32 + body.length) ++ leBytes 8 writer ++ leBytes 8 reader
    ++ leBytes 4 (crc32 body) ++ body

/-- The entries that a warm restart hands over. -/
def State.hoEntries (s : State) : List (List Byte) :=
  s.hoPorts ++ s.hoSerial ++ s.hoLeases ++ ((List.range 64).flatMap fun p => (s.queue p).entries.map (s.hoQueued p)) ++ s.hoBanks ++ [s.hoTime]
    ++ s.hoIrq ++ s.hoRules ++ s.hoAnise

/-- The record of a warm restart (R758, R764), in the lower SCHEMA of the two images (R756). -/
def State.handover (s : State) (l : Loaded) : List Byte :=
  hoRecord (min (s.rd CU_RUN0_SCHEMA 0) (l.ver[2]?.getD 0)) s.img.hash l.img.hash s.hoEntries

/-- The record of a planned swap: the header and END only (R766), for the image that the partner's heartbeat and identity tell of. -/
def State.swapRecord (s : State) : List Byte :=
  let theirs := (s.pair.partner.map (·.schema)).getD 0
  hoRecord (min (s.rd CU_RUN0_SCHEMA 0) theirs) s.img.hash (quad (s.nb (if s.lstate 4 = 4 then 4 else 5)) 4) []

/-- The reader refuses a record (R765): its CRC fails, its SCHEMA is out of the range given, or the reader's hash is another. -/
def recordRefused (schemaMin schema hash : Nat) (r : List Byte) : Bool :=
  let at_ := fun (off n : Nat) => leNat ((r.drop off).take n)
  r.length < 32 || crc32 (r.drop 32) != at_ 28 4 || decide (at_ 0 2 < schemaMin ∨ schema < at_ 0 2) || at_ 20 8 != hash % 2 ^ 64

/-- SWAP_PORTS_STOPPED: every port has stopped presenting; the handover record, a header and END, and the SWAP cell are sent (R626, R766). -/
def execSwapPortsStopped (t : Nat) (s : State) : Host.Outcome State Fault Refusal :=
  let s := s.tick t
  match s.pair.swap with
  | some w =>
    if w.sent ∨ w.stopped.length < 64 then .next s
    else
      let item := PairItem.swap ((s.rd PR_MSEQ_MSEQ 0 + 2 ^ 24 - 1) % 2 ^ 24) w.round
      let ho := PairItem.handover s.swapRecord
      let (s, a) := (s.sendPair 4 ho).1.sendPair 4 item
      let (s, b) := (s.sendPair 5 ho).1.sendPair 5 item
      .next (if a || b then s.setPair fun x => { x with swap := some { w with sent := true } } else s)
  | none => .next s

end Sys2Proof.Machine
end

