-- ==== Sys2Proof/Machine/Activate.lean ====
section
/-! DEFINITION. The image check, what crosses an activation, and the end of a warm-restart gap (R752-R763, R707, R658, R695). -/

namespace Sys2Proof.Machine

/-! ### The check (R752) -/

/-- What a check ends with: the image, or the CODE of the step that failed and where. -/
inductive Verdict where
  | pass (l : Loaded)
  | fail (code : Nat) (at_ : Finding)
  deriving DecidableEq, Repr

/-- Two images by MAJOR, MINOR, SCHEMA and SCHEMA_MIN are compatible (R756). -/
def compatible (a b : List Nat) : Bool :=
  let at_ := fun (l : List Nat) (i : Nat) => l[i]?.getD 0
  at_ a 0 == at_ b 0 && decide (at_ a 1 ≤ at_ b 1 + 1 ∧ at_ b 1 ≤ at_ a 1 + 1)
    && (if at_ a 2 ≤ at_ b 2 then decide (at_ a 2 ≥ at_ b 3) else decide (at_ b 2 ≥ at_ a 3))

/-- MAJOR, MINOR, SCHEMA, SCHEMA_MIN and SECVER of an object. -/
def SlotSt.version (x : SlotSt) : List Nat := [x.major, x.minor, x.schema, x.schemaMin, x.secver]

/-- The same of the running image. -/
def State.runVersion (s : State) : List Nat :=
  [s.rd CU_RUN0_MAJOR 0, s.rd CU_RUN0_MINOR 0, s.rd CU_RUN0_SCHEMA 0, s.rd CU_RUN1_SCHEMA_MIN 0, s.rd CU_RUN1_SECVER 0]

/-- MSI-X Table Size of a function: its targets (R635). -/
def Image.tableSize (m : Image) (f : Func) : Nat := (m.targets.filter fun x => x.2 == f).length

/-- Step HOST_LAYOUT: the parts of the HOST section that a warm restart cannot change. -/
def Image.sameHost (a b : Image) : Bool :=
  a.split == b.split && a.bearing0 == b.bearing0 && a.bearing1 == b.bearing1 && a.ssvid == b.ssvid && a.ssid == b.ssid
    && [0, 1].all fun link => (List.range 256).all fun fn => a.tableSize ⟨link, fn⟩ == b.tableSize ⟨link, fn⟩

/-- The plaintext of a slot's object: the CODE of step DECRYPT or TARGET where it fails (R743, R744). -/
def State.plaintext (s : State) (k : Nat) : Except Nat (List Byte) :=
  let x := s.nvm k
  match s.payload k with
  | none => .error 7
  | some p =>
    let plain : Except Nat (List Byte) := if x.kind = 2 then
        match s.payload (1 - k) with
        | none => .error 7
        | some base => match runDelta base x.targetLen (p.length + 1) p [] with
          | some out => .ok out
          | none => .error 8
      else .ok p
    match plain with
    | .ok out => if Config.sha384 out == x.targetHash then .ok out else .error 8
    | .error c => .error c

/-- The check of the object in slot `k`: the first step that fails (R752). A boot skips steps 5 and 13; `nvm` says that an NVM read failed. -/
def State.checkSlot (s : State) (k : Nat) (boot nvm : Bool) : Verdict :=
  let x := s.nvm k
  let no := fun (c : Nat) => Verdict.fail c (0, none)
  let anchored := match s.anchor x.signer with
    | some a => Config.sha384 x.pubkey == a
    | none => false
  if !x.closed || !x.headerOk || !x.complete then no 1
  else if !anchored || (s.cu.otp.owner.isSome && x.signer == 2) then no 2
  else if !x.signed then no 3
  else if x.secver < s.cu.otp.roll then no 4
  else if !boot && !compatible x.version s.runVersion then no 5
  else if x.kind == 2 && !s.baseUsable k then no 6
  else match s.plaintext k with
    | .error c => no c
    | .ok plain =>
      let m := imageOf plain
      match m.capacity with
      | some f => .fail 9 f
      | none => match m.leaseCheck with
        | some f => .fail 10 f
        | none => match m.tables with
          | some f => .fail 11 f
          | none => match m.settings (directoryOk plain) x.signer with
            | some f => .fail 12 f
            | none =>
              if !boot && !m.sameHost s.img then no 13
              else if nvm then no 14 else .pass ⟨m, x.version⟩

/-- A check ends: CU_LAST0, CU_LAST1, SL_CHK; a failure makes the slot BAD and is counted (R752, R754, R757). -/
def State.noteCheck (s : State) (k : Nat) (v : Verdict) : State :=
  let code := match v with | .pass _ => 0 | .fail c _ => c
  let (sec, entry) := match v with
    | .fail c (sec, at_) => if c < 9 ∨ 12 < c then (0, 0) else (sec, at_.getD (Config.checkEntry s.fresh))
    | .pass _ => (0, 0)
  let s := ((s.draw.wr CU_LAST0_CODE 0 code).wr CU_LAST0_SLOT 0 k).wr CU_LAST0_OUTCOME 0 (if code = 0 then 1 else 2)
  let s := ((s.wr CU_LAST1_SECTION 0 sec).wr CU_LAST1_ENTRY 0 entry).wrA SL_CHK_CODE 0 k code
  let s := s.wrA SL_CHK_OUTCOME 0 k (if code = 0 then 1 else 2)
  if code = 0 then s.setNvm k fun x => { x with st := slGood }
  else (s.setNvm k fun x => { x with st := slBad }).bump CU_CHKFAIL_COUNT 0

/-- CU_CHECK to ACTOWNER (R771): the slot, the CODE of its failed check, where it was made, and the section and entry of the failure. -/
def State.checkEvent (s : State) (k code where_ sec entry : Nat) : State :=
  s.eventLim s.actOwner 0x0D03 k ([BitVec.ofNat 8 code, BitVec.ofNat 8 where_, BitVec.ofNat 8 sec] ++ leBytes 2 entry)

/-- CU_GAP to every active tenant (R771). -/
def State.gapEvent (s : State) (detail : List Byte) : State :=
  (List.range 256).foldl (fun (s : State) t => if s.activeAny t then s.event t 0x0D02 0 detail else s) s

/-- CHECK_DONE: the check of an ACTIVATE ends. A failure leaves the running image; else BOOTSEL names the slot and the gap begins: Anise
rounds fail (R725), CU_GAP is queued, the handover record is written, and nothing leaves the delivery engines from then on (R757-R759). (DEDUCED, log entry 73.) -/
def execCheckDone (t : Nat) (nvm : Bool) (s : State) : Host.Outcome State Fault Refusal :=
  let s := s.tick t
  if s.rd CU_STAT_PHASE 0 ≠ phCheck then .next s
  else
    let k := s.spareSlot
    let v := s.checkSlot k false nvm
    let s := s.noteCheck k v
    match v with
    | .fail c _ => .next (((s.wr CU_STAT_PHASE 0 phRun).cuDone 4 c).checkEvent k c 1 (s.rd CU_LAST1_SECTION 0) (s.rd CU_LAST1_ENTRY 0))
    | .pass l =>
      let s := (s.wr CU_STAT_BOOTSEL 0 k).setCu fun x => { x with next := some l, gapAt := s.now }
      let s := (List.range 64).foldl (fun (s : State) p => s.failRound p 7) s
      .next (((s.gapEvent [1]).setCu fun x => { x with record := s.handover l }).wr CU_STAT_PHASE 0 phGap)

/-! ### Domains (R707, R781) -/

/-- The domains of what an image enables. -/
def Image.domains (m : Image) : List Nat :=
  (List.range 64).filter m.fbOn ++ ((List.range 24).filter m.spOn).map (64 + ·)
    ++ ((List.range 12).filter fun b => m.v DB_CFG_PRESENT b != 0).map (88 + ·)
    ++ (if m.v RG_CFG_ENA 0 != 0 then [100, 101] else []) ++ (if m.v RG_CFG_ENB 0 != 0 then [102, 103] else [])
    ++ (if m.v PR_CFG_PAIRED 0 != 0 then [104, 105] else [])

/-- Domains are switched on where they are off; a switch of one in progress ends. -/
def State.powerUp (s : State) (ds : List Nat) : State :=
  ds.foldl (fun (s : State) d =>
    if s.domReady d then s
    else
      let s := { s with pm := { s.pm with switches := s.pm.switches.filter fun x => x.domain != d } }
      if s.domOn d then s else s.domUp d) s

/-! ### Registers (R12, R134) -/

/-- What a field's key says of its field. -/
def keyField (k : Nat) : Nat := k / 2 ^ 32

/-- Every block. -/
def allBlks : List Blk :=
  [.ten, .rc, .ic, .fc, .pm, .cu, .tu, .ge, .gt, .ru, .pr, .pl, .rg, .rl, .fb, .sp, .db, .pq, .fs, .cl, .hp, .pg]

/-- The RWI fields that take a new image's values at the activation itself: all but those of FB and SP ports (R292, R479). -/
def rwiNow : List Fld := allBlks.flatMap fun b =>
  if b == .fb || b == .sp then [] else b.fields.filter fun f => f.acc == .rwi

/-- Fields of other access codes whose reset is IMG and that no boundary awaits (R12). -/
def imgNow : List Fld :=
  [TT_RD0_CCMAX, TT_RD0_RM_DLC, TT_RD0_RM_IDE, TT_RD1_RM_ID_L, TT_RD2_RM_ID_H, TT_RD3_CYC_LEN, TT_RD4_ORIGIN, TT_RD5_RM_TIMEOUT,
   PM_ARD0_ID_L, PM_ARD1_WIN, PM_ARD1_WGATE, PM_ARD1_FSLEEP, PM_ARD1_ANISE_EN, PM_ARD1_IDE, PM_ARD1_ID_H, PM_ARD2_MEMB_L, PM_ARD3_MEMB_H,
   RL_CFG_TXEQ, RL_CFG_RETRY, PL_CFG_TXEQ]

/-- Registers and tables take the image's values in all three copies; staged copies take the active ones, PEND 0 (R12, R134). -/
def State.loadImage (s : State) (m : Image) : State :=
  let fs := rwiNow ++ imgNow
  let codes := fs.map fun f => keyField (f.key 0 0)
  let pend := keyField (PG_STAT_PEND.key 0 0)
  let s := { s with
    img := m
    regs := s.regs.filter fun e => !(codes.contains (keyField e.1) || keyField e.1 == pend)
    staged := [], noMajStaged := []
    noMaj := s.noMaj.filter fun k => !codes.contains (keyField k)
    copies := s.copies.filter fun e => !codes.contains (keyField e.1), copiesStaged := [] }
  m.rwi.foldl (fun (s : State) (x : Fld × Nat × Nat × Nat) => if fs.contains x.1 then s.wrA x.1 x.2.1 x.2.2.1 x.2.2.2 else s) s

/-! ### Leases (R97, R763) -/

/-- The index that an item in flight keeps when its lease is discarded: no image holds as many leases (R59). -/
def lostLease : Nat := 2 ^ 20

/-- The use and tokens of a new image's leases: kept, the tokens capped, or from the start, as all are where the record is refused (R765). -/
def State.carryLeases (s : State) (kept : Bool) (new : List Lease) : Tbl LeaseRt :=
  new.zipIdx.foldl (fun (t : Tbl LeaseRt) (x : Lease × Nat) =>
    let cap := x.1.burst * 160 * 4096
    let r : LeaseRt := match (if kept then s.img.leases.findIdx? (sameLease x.1) else none) with
      | some i => { used := (s.lrt i).used, tokens := if x.1.tx then min cap (s.tokens i) else 0, tokAt := s.ivlTq }
      | none => { used := 0, tokens := if x.1.tx then cap else 0, tokAt := s.ivlTq }
    tset {} t x.2 r) []

/-- A queue entry under the new lease numbers; one in flight whose lease is discarded is marked. -/
def moveEntry (f : Nat → Option Nat) (e : QEntry) : QEntry :=
  let lost := fun (src : EntrySrc) => { e with src := src, mark := if e.inflight then some (e.mark.getD 0x48) else e.mark }
  match e.src with
  | .tenant l => match f l with
    | some j => { e with src := .tenant j }
    | none => lost (.tenant lostLease)
  | .device l w => match f l with
    | some j => { e with src := .device j w }
    | none => lost (.device lostLease w)
  | .reflex _ => e

/-- The entries of a queue that the activation takes from it. -/
def State.lostEntries (s : State) (p : Nat) : List QEntry :=
  (s.queue p).entries.filter fun e => e.src.lease == some lostLease && !e.inflight

/-- A tenant's entry. -/
def QEntry.ofTenant (e : QEntry) : Bool := match e.src with | .tenant _ => true | _ => false

/-- Entries without their lease complete CANCELLED, device frames are freed (R763). -/
def State.dropLost (s : State) (p : Nat) : State :=
  (s.lostEntries p).foldl (fun (s : State) (e : QEntry) =>
    let s := s.returnEntry p e 0x48
    if e.ofTenant && !e.mirror && !e.orphan then s.countCancel e else s) s

/-- Replies of a queue whose record was refused are freed without completion (R763, R765). -/
def State.dropReplies (s : State) (p : Nat) : State :=
  ((s.queue p).entries.filter fun e => !e.inflight && (match e.src with | .reflex _ => true | _ => false)).foldl
    (fun (s : State) (e : QEntry) => s.returnEntry p e 0x48) s

/-- A pending delivery under the new lease numbers: written as steered, charging no lease where it is discarded. -/
def moveDeliv (f : Nat → Option Nat) (d : Deliv) : Deliv := { d with lease := d.lease.bind f }
def movePost (f : Nat → Option Nat) : Post → Post
  | .rq d => .rq (moveDeliv f d)
  | p => p

/-- Every item that names a lease takes its new number. -/
def State.moveItems (s : State) (f : Nat → Option Nat) : State :=
  let s := (List.range 64).foldl (fun (s : State) p =>
    if (s.queue p).entries.isEmpty then s else s.setEntries p ((s.queue p).entries.map (moveEntry f))) s
  { s with
    rx := { s.rx with deq := s.rx.deq.map fun q => (q.1, q.2.map fun d => { d with delivs := d.delivs.map (moveDeliv f) }) }
    host := { s.host with
      links := s.host.links.map fun l => (l.1, { l.2 with waiting := l.2.waiting.map (movePost f) })
      rings := s.host.rings.map fun r => (r.1, { r.2 with held := r.2.held.map (movePost f) }) }
    sp := s.sp.map fun x => (x.1, { x.2 with
      msgs := x.2.msgs.map fun m => { m with lease := (f m.lease).getD lostLease }
      cur := x.2.cur.map fun c => { c with msg := { c.msg with lease := (f c.msg.lease).getD lostLease } } }) }

/-- The messages of a serial port that have lost their lease. -/
def State.lostMsgs (s : State) (n : Nat) : List SpMsg := (s.spt n).msgs.filter fun m => m.lease == lostLease

/-- They end RETURNED. -/
def State.dropMsgs (s : State) (n : Nat) : State :=
  let gone := s.lostMsgs n
  if gone.isEmpty then s
  else
    let s := s.setSpt n fun x => { x with msgs := x.msgs.filter fun m => m.lease != lostLease }
    (gone.foldl (fun (s : State) (m : SpMsg) => s.msgFail n m 2 0) s).refreshTxq n

/-! ### Rules, latches, groups, interrupts (R420, R598, R658, R763) -/

/-- The tenant of a rule, and of a latch, in a bank. -/
def SteerBank.ruleTenant (b : SteerBank) (r : Nat) : Option Nat := (b.rules.find? fun x => x.1 == r).map fun x => bitsOf (ruleW x.2 7) 0 8
def SteerBank.latchTenant (b : SteerBank) (k : Nat) : Option Nat := (b.latches.find? fun x => x.1 == k).map (·.2)

/-- What the reflex unit keeps. -/
def State.carryReflex (s : State) (old new : SteerBank) : State :=
  let kept := fun (r : Nat) => (new.ruleTenant r).isSome && new.ruleTenant r == old.ruleTenant r
  let s := (old.rules.filter fun x => !kept x.1).foldl (fun (s : State) x => s.wrA RU_FCNT_COUNT 0 x.1 0) s
  { s with ru := {
      latches := s.ru.latches.filter fun e => (new.latchTenant e.1).isSome && new.latchTenant e.1 == old.latchTenant e.1
      fired := s.ru.fired.filter fun e => kept e.1 } }

/-- The tenant of a gather group with VALID 1. -/
def Image.groupTenant (m : Image) (g : Nat) : Option Nat := (m.group g).map (·.tenant)

/-- What the gather engine keeps of the groups of `keep`; the schedules are looked at from now on. -/
def State.carryGroups (s : State) (old new keep : Image) : State :=
  let lost := (s.gt.groups.map (·.1)).filter fun g => (keep.groupTenant g).isNone || keep.groupTenant g != old.groupTenant g
  let s := lost.foldl (fun (s : State) g => s.setGrp g fun x => { x with seq := 0, satStk := false, done := false }) s
  { s with gt := { s.gt with schedNs := new.groups.foldl (fun (t : Tbl Nat) x => tset 0 t x.1 s.ns) [] } }

/-- A source whose owner changes and a target whose function changes are reset; at a boot every one is (R657, R658, R12). -/
def State.carryIrq (s : State) (old new : Image) (boot : Bool) : State :=
  let s := ((List.range 1024).filter fun k => boot || old.sourceOwner k != new.sourceOwner k).foldl State.resetSrc s
  let of := fun (m : Image) (g : Nat) => (m.targets.find? fun x => x.1 == g).map (·.2)
  ((new.targets.map (·.1)).filter fun g => boot || of old g != of new g).foldl State.resetTarget s

/-- A tenant's descriptor rings at or above its new TEN_RINGS are disarmed; a doorbell latched for one is discarded (R763, R768). -/
def State.carryRings (s : State) (keep : Image) : State :=
  (s.ringsBusy.filter fun r => decide (r % 256 ≥ keep.v TEN_RINGS_COUNT (r / 256))).foldl (fun (s : State) r =>
    let s := s.setRing r fun g => { g with latched := none }
    if s.rd RC_STAT_STATE r = rcDraining then s else s.disarmRing r) s

/-! ### Ports and banks (R273, R495, R763) -/

/-- A held outcome is reported (R255, R761). -/
def State.reportHeld (s : State) (p : Nat) : State :=
  match (s.port p).heldOut with
  | some o => (s.setPort p fun x => { x with heldOut := none }).outcome p o
  | none => s

/-- An FB port at an activation (R273): PRESENT and START at once, the other values at its first boundary. (DEDUCED, log entry 76.) Its arrival in
DISABLED from ABSENT raises no DRAINED, as the table of R273 lists none. (DESIGN CHOICE, log entry 108.) -/
def State.activateFb (s : State) (kept : Bool) (p : Nat) : State :=
  let on := s.img.fbOn p
  let start := s.img.v FB_CFG_START p != 0
  let st := s.fstate p
  if !on && st == fbAbsent then (s.setPort p fun x => { x with rwiPend := true }).settlePort p
  else
    let s := ((s.put FB_CFG_PRESENT p on).put FB_CFG_START p start).setPort p fun x => { x with rwiPend := true, leaving := !on || (!kept && st != fbAbsent) }
    if on && st == fbAbsent then s.arriveFb p
    else if on && kept then s.settlePort p
    else ((s.reportHeld p).disablePort p).settlePort p

/-- The records that a serial port held are steered in the order in which they closed. -/
def State.releaseSp (s : State) (n : Nat) : State :=
  let q := (s.spt n).held
  (q.foldl (fun (s : State) (r : RxRec) => s.spSteer n (recAddr r) r) (s.setSpt n fun x => { x with held := [] }))

/-- An SP port at an activation (R495). -/
def State.activateSp (s : State) (kept : Bool) (n : Nat) : State :=
  let on := s.img.spOn n
  let start := s.img.v SP_CFG_START n != 0
  let st := s.spState n
  let settle := fun (s : State) => if s.spImmediate n then s.spBoundary n else s
  let s := ((s.put SP_CFG_PRESENT n on).put SP_CFG_START n start).setSpt n fun x => { x with rwiPend := true, leaving := (!on || !kept) && st != spAbsent }
  if on && st == spAbsent then
    let s := (settle s).setSpt n fun x => { x with seq := 0, rec_ := none, carry := none }
    let s := s.setSpState n spDisabled
    if start then (s.spTurnOn n).1 else s
  else if (on && kept) || st == spAbsent then settle s
  else
    let s := settle ((s.releaseSp n).spDisable n)
    if on && start && s.spState n == spDisabled then (s.spTurnOn n).1 else s

/-- A bank at an activation: its functions follow at its first tick; one that is left out turns off (R497, R506, R763). -/
def State.activateBank (s : State) (old : Image) (kept : Bool) (b : Nat) : State :=
  let on := s.img.v DB_CFG_PRESENT b != 0
  let was := old.v DB_CFG_PRESENT b != 0
  let s := s.setBank b fun d => { d with imgPend := true, anew := !kept }
  if on then
    let forced := s.groupForced (s.rd DB_CFG_GROUP b)
    (if forced then s.maceForceBank b else s.maceReleaseBank b).refreshDrive b
  else if was then
    let s := ((s.wr DB_FUNC0_FUNC b 0).wr DB_FUNC1_FUNC b 0).wr DB_OUT_CMD b 0
    (s.setBank b fun d => { d with cmds := [], ends := [], breaks := [], runs := [], fifo := [], pps := 0, lift := false }).refreshDrive b
  else s

/-- Anise and the time roles at an activation: a port that loses ANISE_EN is handed back as by a WAKE; one that gains it is AWAKE (R721, R732,
R763); a port whose TTROLE changes starts its role afresh. -/
def State.activateRoles (s : State) (old : Image) (kept : Bool) (p : Nat) : State :=
  let was := old.val PM_ARD1_ANISE_EN 0 p != 0
  let on := s.aniseOn p
  let s := if was && !(on && kept) then
      let s := if s.fstate p = fbAsleep then s.wakePort p else s
      (((s.wrA PM_PSLP_ASTATE 0 p (b2n on)).wrA PM_PSLP_VETO 0 p 0).wrA PM_PSLP_FSL 0 p 0).setAn p fun _ => {}
    else if !was && on then s.wrA PM_PSLP_ASTATE 0 p 1 else s
  if old.v FB_ROLE_TTROLE p = s.img.v FB_ROLE_TTROLE p then s
  else ((s.wrA TT_RD0_SYNC_OK 0 p 0).wrA TT_RD0_ACTING 0 p 0).setTt p fun _ => { seenNs := s.ns }

/-! ### Ring, pair, faults (R527, R528, R608, R695) -/

/-- The ring unit at an activation: a changed NODE or FABRIC_ID leaves and joins anew; its group's force acts (R528, R678). -/
def State.activateRing (s : State) (old : Image) : State :=
  let node := old.v RG_CFG_NODE 0 != s.node
  let fab := old.v RG_FABID_FABRIC_ID 0 != s.rd RG_FABID_FABRIC_ID 0
  let s := if node then s.put RG_STAT_DUP 0 false else s
  let s := if node || fab then (List.range 4).foldl (fun (s : State) n => s.loseLink n 5) s else s
  let s := if s.groupForced (s.rd RG_CFG_GROUP 0) then s.stopRing else s.unstopRing
  s.showMembers

/-- The pair unit at an activation (R608). -/
def State.activatePair (s : State) (old : Image) (boot : Bool) : State :=
  let on := s.flag PR_CFG_PAIRED 0
  let was := !boot && old.v PR_CFG_PAIRED 0 != 0
  let join := fun (s : State) => (s.role prJoining 6).setPair fun x =>
    { x with joinBy := some (s.now + s.rd PR_JOIN_JOIN_TMO 0 * tqPerMs) }
  if on && (!was || s.prState == prSolo) then join s
  else if !on && s.prState != prSolo then s.role prSolo 6
  else if !on then s.put PR_STAT_ACTING 0 true
  else if s.prState == prContest && old.v PR_CFG_PNODE 0 != s.rd PR_CFG_PNODE 0 then join s.endContest
  else s

/-- A source that the new image makes EN 0 is OK unless SEVERE; its event history ends; forces follow (R676, R695). -/
def State.activateFaults (s : State) : State :=
  let off := (List.range 256).filter fun k => s.rdA FC_SCFG_EN 0 k == 0 && !s.srcSevere k && s.rdA FC_SRC_STATE 0 k != 0
  (off.foldl (fun (s : State) k => s.clearSource k) s).refreshForces

/-! ### Activation (R758, R763, R780) -/

/-- CU_RUN0 to CU_RUNH2 and the slots show the image that runs. -/
def State.showRun (s : State) (l : Loaded) (k : Nat) : State :=
  let v := fun (i : Nat) => l.ver[i]?.getD 0
  let s := ((s.wr CU_RUN0_MAJOR 0 (v 0)).wr CU_RUN0_MINOR 0 (v 1)).wr CU_RUN0_SCHEMA 0 (v 2)
  let s := (s.wr CU_RUN1_SCHEMA_MIN 0 (v 3)).wr CU_RUN1_SECVER 0 (v 4)
  let h := l.img.hash
  let s := ((s.wr CU_RUNH0_HASH 0 h).wr CU_RUNH1_HASH 0 (h / 2 ^ 24)).wr CU_RUNH2_HASH 0 (h / 2 ^ 48)
  let s := [0, 1].foldl (fun (s : State) k => s.setNvm k fun x => if x.st = slActive then { x with st := slGood } else x) s
  ((s.setNvm k fun x => { x with st := slActive }).wr CU_STAT_ACTSLOT 0 k).put CU_STAT_NOFALLBACK 0 false

/-- The tenants that an activation takes something from (R771), but for leases and queue entries: what `keep` does not hold. -/
def State.remapped (s : State) (old keep : Image) : List Nat :=
  let b := old.steer
  let n := keep.steer
  (b.rules.filter fun x => n.ruleTenant x.1 != b.ruleTenant x.1).filterMap (fun x => b.ruleTenant x.1)
    ++ (b.latches.filter fun x => n.latchTenant x.1 != some x.2).map (·.2)
    ++ (old.groups.filter fun x => x.2.valid && keep.groupTenant x.1 != some x.2.tenant).map (·.2.tenant)
    ++ (s.ringsBusy.filter fun r => decide (r % 256 ≥ keep.v TEN_RINGS_COUNT (r / 256))).map (· / 256)
    ++ ((List.range 64).filter fun p => old.fbOn p && (!keep.fbOn p
        || (old.val PM_ARD1_ANISE_EN 0 p != 0 && keep.val PM_ARD1_ANISE_EN 0 p == 0))).map (old.v FB_OWNER_TENANT)
    ++ ((List.range 24).filter fun k => old.spOn k && !keep.spOn k).map (old.v SP_OWNER_TENANT)
    ++ ((List.range 12).filter fun k => old.v DB_CFG_PRESENT k != 0 && keep.v DB_CFG_PRESENT k == 0).map (old.v DB_OWNER_TENANT)

/-- CU_REMAP to each tenant that lost something: its queue entries cancelled and its leases discarded. -/
def State.remapEvents (s : State) (gone : List Nat) (entries leases : List Nat) : State :=
  (List.range 256).foldl (fun (s : State) t =>
    let e := (entries.filter (· == t)).length
    let l := (leases.filter (· == t)).length
    if e + l = 0 && !gone.contains t then s else s.eventLim t 0x0D06 0 (leBytes 2 e ++ leBytes 2 l)) s

/-- The frames, by format, identifier and kind, at which the set of receivers of a port can grow: the first of each receive lease, of every
kind. -/
def Image.edges (m : Image) (p : Nat) : List (Bool × Nat × Nat) :=
  (m.leases.filter fun l => !l.tx && l.port == p).flatMap fun l =>
    (List.range 4).map fun k => (l.fmt == 1, l.lo, k)

/-- The tenants beyond the eighth that a frame would be due to, each with its lowest-indexed covering lease, and XCOUNT of the set that steers the
frame (R355, R393). -/
def Image.excluded (m : Image) (p : Nat) (x : Bool × Nat × Nat) : List (Nat × Nat × Nat) :=
  let h := headerOf x.1 x.2.1 x.2.2
  let out := (m.receivers p h x.2.2).drop 8
  out.map fun t => (t, ((m.viewOf t).findIdx? fun l => !l.tx && l.covers p (b2n h.ide) x.2.2 h.id).getD 0,
    (m.steer.set (p / 16) (m.steer.lookup p h).dset).xcount)

/-- RX_FANOUT to each tenant excluded on a port, with the first lease excluded and the largest XCOUNT (R355). -/
def State.fanoutEvents (s : State) (p : Nat) : State :=
  let outs := (s.img.edges p).flatMap (s.img.excluded p)
  (List.range 256).foldl (fun (s : State) t =>
    let mine := outs.filter fun x => x.1 == t
    match mine with
    | [] => s
    | x :: _ => s.eventLim t 0x0302 p (leBytes 2 x.2.1 ++ leBytes 1 ((mine.map fun y => y.2.2).foldl max 0))) s

/-- A node whose new TMPRI is 0 stops as master, which it never is (R438). -/
def State.masterOff (s : State) : State :=
  if s.flag TU_STAT_MASTER 0 && s.rd TU_CFG_TMPRI 0 == 0 then s.stopMaster.masterEvent else s

/-- Every item that crosses an activation takes its value of R763, where `keep` is the image whose numbering the handover record gives the items
(empty where it is refused), and `rt` the leases. -/
def State.crossItems (s : State) (old keep : Image) (kept boot : Bool) (rt : Tbl LeaseRt) : State :=
  let m := s.img
  let s := ({ s with leaseRt := rt }).moveItems (leaseMap old.leases keep.leases)
  let s := (List.range 64).foldl (fun (s : State) p => s.dropLost p) s
  let s := if kept then s else (List.range 64).foldl (fun (s : State) p => s.dropReplies p) s
  let s := (List.range 24).foldl (fun (s : State) n => s.dropMsgs n) s
  let s := { s with rx := { s.rx with mboxes := s.rx.mboxes.filter fun e => kept && !m.clear.contains e.1 } }
  let s := ((s.carryReflex old.steer keep.steer).carryGroups old m keep).carryIrq old m boot
  let s := s.carryRings keep
  let s := (List.range 64).foldl (fun (s : State) p => s.activateFb kept p) s
  let s := (List.range 24).foldl (fun (s : State) n => s.activateSp kept n) s
  let s := (List.range 12).foldl (fun (s : State) b => s.activateBank old kept b) s
  (List.range 64).foldl (fun (s : State) p => s.activateRoles old kept p) s

/-- A checked image becomes active, at a boot or at the end of a gap: each item takes its value of R763, with `kept` false as in its column
Otherwise (R765). (DEDUCED, log entry 74.) (DEDUCED, log entry 75.) -/
def State.activate (s : State) (l : Loaded) (k : Nat) (boot kept : Bool) : State :=
  let old := s.img
  let m := l.img
  let keep : Image := if kept then m else {}
  let f := leaseMap old.leases keep.leases
  let lostL := (old.leases.zipIdx.filter fun x => (f x.2).isNone).map (·.1.tenant)
  let lostE := (List.range 64).flatMap fun p =>
    ((s.queue p).entries.filter fun e => e.ofTenant && !e.inflight && (e.src.lease.bind f).isNone).map (·.ring / 256)
  let rt := s.carryLeases kept m.leases
  let s := s.powerUp (m.domains ++ if boot then (List.range 30).map (106 + ·) ++ [136, 137, 138, 139] else [])
  let s := ((s.loadImage m).timeMark).masterOff
  let gone := if boot then [] else s.remapped old keep
  let nb := 1 - s.rx.newBank
  let s := { s with rx := { s.rx with
    oldLeases := if kept then old.leases else [], newBank := nb
    bank0 := if nb = 0 then m.steer else s.rx.bank0, bank1 := if nb = 0 then s.rx.bank1 else m.steer } }
  let s := s.powerUp ((List.range 140).filter fun d => s.offReason d != 0)
  let s := s.crossItems old keep kept boot rt
  let s := ((s.activateRing old).activatePair old boot).activateFaults
  let s := s.showRun l k
  let s := match m.enroll with
    | some (a, key) =>
      if s.cu.otp.owner.isSome || s.cu.otpWrites.any (fun w => match w with | .enroll _ _ => true | _ => false) then s
      else s.setCu fun c => { c with otpWrites := c.otpWrites ++ [.enroll a key] }
    | none => s
  let s := if boot then s else s.remapEvents gone lostE lostL
  (List.range 64).foldl (fun (s : State) p => s.fanoutEvents p) s

/-! ### The end of a gap (R758-R762) -/

/-- The frames that a port held are committed in EOF order, under the new image; none fires a rule. Then its held outcome is reported, and what
was lost beyond 64 frames. -/
def State.releasePort (s : State) (p : Nat) : State :=
  let q := (s.port p).heldEof
  let lost := (s.port p).heldLost
  let s := s.setPort p fun x => { x with heldEof := [], heldLost := 0 }
  let s := q.foldl (fun (s : State) (x : RxFrame) =>
    let (s, slot) := s.takeSlot { holders := 1 }
    (s.commitFrame { x with bank := s.rx.newBank } slot false).bump CU_HOLD_NORFX_COUNT 0) s
  let s := s.reportHeld p
  let s := match (s.port p).gapReturn with
    | some st => (s.setPort p fun x => { x with gapReturn := none }).returnAll p st true
    | none => s
  let s := s.refreshHead p
  if lost = 0 then s
  else (s.addA CU_HOLD_LOST_COUNT 0 0 lost).eventLim (s.fbOwner p) 0x0D05 p (leBytes 2 lost)

/-- The last valid doorbell of each ring acts, unless the activation has disarmed it; completed fetches are absorbed. -/
def State.releaseRing (s : State) (r : Nat) : State :=
  let s := match (s.ring r).latched with
    | some v =>
      let s := s.setRing r fun g => { g with latched := none }
      if s.rd RC_STAT_STATE r = rcArmed then s.dbApply r v else s
    | none => s
  s.absorb r ((s.ring r).reads.length + 1)

/-- GAP_END: the new image reads the handover record and is active, and what the gap held is released (R758, R761, R765), port by port in
ascending number: R761 orders the frames of one port only. (DESIGN CHOICE, log entry 115.) -/
def execGapEnd (t : Nat) (s : State) : Host.Outcome State Fault Refusal :=
  let s := s.tick t
  match s.cu.next with
  | none => .next s
  | some l =>
    let k := s.rd CU_STAT_BOOTSEL 0
    let us := (s.now - s.cu.gapAt) / tqPerUs
    let bad := recordRefused (l.ver[3]?.getD 0) (l.ver[2]?.getD 0) l.img.hash s.cu.record
    let s := ((s.tapEnd.setCu fun c => { c with next := none, record := [] }).wr CU_STAT_PHASE 0 phRun).wr CU_GAP_US 0 us
    let s := (((s.activate l k false !bad).bump CU_ACTS_COUNT 0).cuDone 0 0).gapEvent (2 :: leBytes 3 us)
    let s := if bad then s.checkEvent k 5 3 0 0 else s
    let s := (List.range 64).foldl (fun (s : State) p => s.releasePort p) s
    let s := (List.range 24).foldl (fun (s : State) n => s.releaseSp n) s
    let s := (s.host.rings.map (·.1)).foldl (fun (s : State) r => s.releaseRing r) s
    .next (((s.settleFaults.drainLink 0).drainLink 1).judgeWhere fun _ => true)

/-! ### The planned swap at the partner (R626) -/

/-- The handover record of a swap is refused (R765): every item takes the column Otherwise of R763, and CU_CHECK names the running slot.
(DEDUCED, log entry 116.) -/
def State.refuseSwap (s : State) : State :=
  let m := s.img
  ((s.crossItems m {} false false (s.carryLeases false m.leases)).settleFaults).checkEvent (s.rd CU_STAT_ACTSLOT 0) 5 3 0 0

/-- A STANDBY unit takes the role that the partner hands over (R609, R626). -/
def State.takeSwap (s : State) (epoch : Nat) (recs : List MirrorRec) (record : List Byte) : State :=
  if !s.mirrors || s.prState != prStandby then s
  else
    let s := s.takeRecords recs
    let s := if recordRefused (s.rd CU_RUN1_SCHEMA_MIN 0) (s.rd CU_RUN0_SCHEMA 0) s.img.hash record then s.refuseSwap else s
    (s.wr PR_EPOCH_EPOCH 0 (max (s.rd PR_EPOCH_EPOCH 0) epoch)).role prActive 5

/-- SWAP_CELL: the partner hands over: the remaining records and the handover record are applied and the unit is promoted (R609, R626, R765).
(DEDUCED, log entry 62.) -/
def execSwapCell (t epoch : Nat) (c : HandoverCell) (s : State) : Host.Outcome State Fault Refusal :=
  .next ((s.tick t).pairIn c.port c.lane fun s => s.takeSwap epoch c.recs c.record)

end Sys2Proof.Machine
end

