-- ==== Sys2Proof/Machine/Reset.lean ====
section
/-! DEFINITION. Function resets and the events of a host link that take or give a tenant its link (R69, R81-R85). -/

namespace Sys2Proof.Machine

/-- A descriptor ring belongs to the part of a tenant that a reset of function `f` takes (R82): all of a VF's tenant; of tenant 0, the rings homed
on the link. -/
def State.partRing (s : State) (f : Func) (r : Nat) : Bool :=
  decide (r / 256 = s.tn f) && (decide (s.tn f ≠ 0) || s.homeOf r == f.link)

/-- The other path of tenant 0 stays: window, session and slots of other kinds are of the tenant as a whole (R82). -/
def State.wholeTenant (s : State) (f : Func) : Bool := decide (s.tn f ≠ 0) || !(s.img.bearing0 && s.img.bearing1)

/-- A descriptor ring under a function reset (R163): IDLE, indices, NOTIFY, RC_OUTST and CAUSE 0; doorbells and fetches discarded. -/
def State.resetRing (s : State) (r : Nat) : State :=
  let s := s.killReads (s.homeOf r) fun w => match w with
    | .desc r' _ _ => r' == r
    | .payload r' _ => r' == r
    | .pull => false
  let s := ((s.setProd r 0).setCons r 0).put RC_STAT_NOTIFY r false
  let s := (s.wr RC_OUTST_COUNT r 0).idleRing r
  s.setRing r fun g => { lost := g.lost, held := g.held, nextSeq := g.nextSeq }

/-- The tenant's entries of a queue leave it without completion; one in flight is left to its outcome, and then not retried. -/
def State.resetQueue (s : State) (f : Func) (p : Nat) : State :=
  let mine := fun (e : QEntry) => e.ofTenant && !e.mirror && s.partRing f e.ring
  let gone := (s.queue p).entries.filter fun e => mine e && !e.inflight
  let s := gone.foldl (fun (s : State) (e : QEntry) => s.freeEntry p e false 0) s
  if (s.queue p).entries.any mine then
    s.setEntries p ((s.queue p).entries.map fun e => if mine e then { e with orphan := true } else e)
  else s

/-- What waits to leave for the function's part is discarded: completions held or waiting, and the function's MSI-X messages. -/
def State.dropWaiting (s : State) (f : Func) : State :=
  let ofMine := fun (p : Post) => match p with
    | .cq c => s.partRing f c.cq
    | .msix fn _ => fn == f.fn
    | _ => false
  let s := s.setLink f.link fun l => { l with waiting := l.waiting.filter fun p => !ofMine p }
  { s with
    host := { s.host with heldComps := s.host.heldComps.filter fun c => !s.partRing f c.cq }
    pair := { s.pair with waitCq := s.pair.waitCq.filter fun c => !s.partRing f c.cq } }

/-- The payload slots that the tenant holds on the link are free; their USE is kept (R223). -/
def State.freeTenantSlots (s : State) (f : Func) : State :=
  let mine := ((s.link f.link).slots.filter fun x => x.2.owner == some (s.tn f)).map (·.1)
  mine.foldl (fun (s : State) n => s.setPaySlot f.link n fun x => { use := x.use }) s

/-- The tenant's remote window takes its reset values; the answer to a request of it is discarded (R568). -/
def State.resetWindow (s : State) (t : Nat) : State :=
  let codes := (Blk.rg.fields.filter fun x => x.page == 3).map fun x => keyField (x.key 0 0)
  { s with
    regs := s.regs.filter fun e => !(codes.contains (keyField e.1) && e.1 / 4096 % 2 ^ 20 == t)
    ring_ := { s.ring_ with ctx := s.ring_.ctx.filter fun c => match c.what with | .window u => u != t | _ => true } }

/-- A gather of the tenant whose record goes to the function's link runs on, and its record is discarded. -/
def State.resetGathers (s : State) (f : Func) : State :=
  let kill := fun (x : GtStart) => if s.partRing f (x.gdef.tenant * 256 + x.gdef.resring) then { x with dead := true } else x
  { s with gt := { s.gt with runs := s.gt.runs.map (fun r => { r with start := kill r.start }), queue := s.gt.queue.map kill } }

/-- The rings that a function reset takes to IDLE with indices, NOTIFY, RC_OUTST and CAUSE 0 (R163): those in any state that have one of them. -/
def State.ringsToReset (s : State) (f : Func) : List Nat :=
  ((s.ringsWith [RC_STAT_STATE, RC_PROD_INDEX, RC_PROD_WRAP, RC_CONS_INDEX, RC_CONS_WRAP, RC_STAT_NOTIFY, RC_OUTST_COUNT,
    RC_STAT_CAUSE]).filter (s.partRing f)).eraseDups

/-- What a function reset does to the function's tenant (R82, R83). -/
def State.resetTenant (s : State) (f : Func) : State :=
  let mine := s.ringsToReset f
  let s := (List.range 64).foldl (fun (s : State) p => s.resetQueue f p) s
  let s := s.purge (fun d => s.partRing f d.ring) 6
  let s := mine.foldl (fun (s : State) r => s.resetRing r) s
  let s := (((s.dropWaiting f).freeTenantSlots f).closeMailboxes f).resetGathers f
  let s := (s.resetIrq f).dropParts f
  if s.wholeTenant f then
    let s := s.resetWindow (s.tn f)
    if s.sessionOf (s.tn f) then s.abortSession else s
  else s

/-- A function reset (R82-R84): from the event until it completes the function is served nothing. A function without a tenant loses only its
own state. (DEDUCED, log entry 79.) -/
def State.resetFunc (s : State) (f : Func) (enabled : Bool) : State :=
  let s := if (s.tenantNo f).isSome then s.resetTenant f else s
  (s.setFunc f fun x => { enabled := x.enabled && enabled, resetting := true, resetAt := s.now }).refreshHeads

/-- VFs 1 to 255 of a link that the host has enabled, above `n`. -/
def State.vfsAbove (s : State) (link n : Nat) : List Func :=
  ((List.range 256).filter fun k => decide (k > n) && (s.func ⟨link, k⟩).enabled).map fun k => ⟨link, k⟩

/-- VF Enable cleared, or NumVFs lowered to `n`: a function reset of each VF removed (R69, R81). -/
def State.removeVfs (s : State) (link n : Nat) : State :=
  ((s.vfsAbove link n).foldl (fun (s : State) g => s.resetFunc g false) s).setLink link fun l => { l with numVfs := min l.numVfs n }

/-- FLR: of a VF, its tenant; of a PF, also every VF of the link, because VF Enable clears (R81). -/
def execFlr (t : Nat) (f : Func) (s : State) : Host.Outcome State Fault Refusal :=
  let s := s.tick t
  let s := if f.fn = 0 then s.removeVfs f.link 0 else s
  .next (s.resetFunc f true)

/-- VF_ENABLE_CLEARED: VF Enable cleared, or NumVFs lowered to `numVfs`: the VFs removed (R81). -/
def execVfEnableCleared (t link numVfs : Nat) (s : State) : Host.Outcome State Fault Refusal :=
  .next ((s.tick t).removeVfs link numVfs)

/-- BUS_MASTER_ENABLE_CLEARED: the function's tenant is inactive on its link (R69, R81). -/
def execBusMasterEnableCleared (t : Nat) (f : Func) (s : State) : Host.Outcome State Fault Refusal :=
  .next ((s.tick t).setFunc f fun x => { x with busMaster := false }).refreshHeads

/-- D3HOT_ENTERED: the PF of a link enters D3hot: as bus mastering cleared (R81). -/
def execD3hotEntered (t link : Nat) (s : State) : Host.Outcome State Fault Refusal :=
  .next ((s.tick t).setFunc ⟨link, 0⟩ fun x => { x with d3hot := true }).refreshHeads

/-- Every function of a link, the PF last, and what the host has set for the link in configuration space. (PRESUMED, log entry 11.) -/
def State.resetLink (s : State) (link : Nat) : State :=
  let fns := (List.range 256).map fun k => (⟨link, 255 - k⟩ : Func)
  let live := fns.filter fun f => (s.func f).enabled || (s.tenantNo f).isSome
  (live.foldl (fun (s : State) f => s.resetFunc f false) s).setLink link fun l =>
    { l with mrrs := 512, ctoMin := 40 * tqPerMs, mps := 128, ctoVal := 0, aspm := false }

/-- HOT_RESET: a Hot Reset, a link down or a Link Disable: a function reset of every function of the link (R81); the requests outstanding on it
end without completion. -/
def execHotReset (t link : Nat) (s : State) : Host.Outcome State Fault Refusal :=
  let s := s.tick t
  if link > 1 then .next s
  else .next ((s.resetLink link).setLink link fun l => { l with reads := [], credit := none, l1 := false, exiting := false })

/-- FUNCTION_RESET_COMPLETE: the reset completes; requests to the function are served again (R84). -/
def execFunctionResetComplete (t : Nat) (f : Func) (s : State) : Host.Outcome State Fault Refusal :=
  .next ((s.tick t).setFunc f fun x => { x with resetting := false })

/-- A function may have become active: where it is, its held completions are written in order, and records set aside while there is room
(R69, R201, R211); its targets are judged. -/
def State.resumeFunc (s : State) (f : Func) : State :=
  let s := if !s.active (s.tn f) f.link || (s.tenantNo f).isNone then s
    else
      let mine := s.host.heldComps.filter (fun c => s.partRing f c.cq)
      let s := { s with host := { s.host with heldComps := s.host.heldComps.filter fun c => !s.partRing f c.cq } }
      let s := mine.foldl (fun (s : State) (c : Comp) => s.post f.link (.cq c)) s
      (s.drainLink f.link).refreshHeads
  s.judgeWhere (· == f)

/-- COMPLETIONS_RESUME: the host enables the function and its bus mastering, in D0, once the link is configured (R784): its tenant is active
again where the link is up (R69). -/
def execCompletionsResume (t : Nat) (f : Func) (s : State) : Host.Outcome State Fault Refusal :=
  let s := s.tick t
  if (s.link f.link).cfg then
    let s := s.setFunc f fun x => { x with enabled := true, busMaster := true, d3hot := false }
    let s := s.setLink f.link fun l => { l with numVfs := max l.numVfs f.fn }
    .next (s.resumeFunc f)
  else .next (s.resumeFunc f)

/-- HOLD_END: a hold of R650 ends; every target it held is judged and a held message leaves (R651); with bus mastering or D0 the tenant may be
active again (R69). An L1 exit ends with the link in L0. -/
def execHoldEnd (t tgt : Nat) (h : HoldEnd) (s : State) : Host.Outcome State Fault Refusal :=
  let s := s.tick t
  match s.targetFunc tgt with
  | none => .next s
  | some f =>
    let vec := s.vecOf tgt
    match h with
    | .unmask =>
      .next ((s.setFunc f fun x => { x with msix := tupd {} x.msix vec fun e => { e with mask := false } }).judge tgt)
    | .functionMask => .next ((s.setFunc f fun x => { x with fmask := false }).judgeWhere (· == f))
    | .msixEnable => .next ((s.setFunc f fun x => { x with msixEn := true }).judgeWhere (· == f))
    | .busMaster => .next ((s.setFunc f fun x => { x with busMaster := true }).resumeFunc f)
    | .d0 => .next ((s.setFunc f fun x => { x with d3hot := false }).resumeFunc f)
    | .linkL0 =>
      let s := s.setLink f.link fun l => { l with l1 := false, exiting := false }
      let mine := (s.img.targets.filter fun x => x.2.link == f.link).map (·.1)
      let s := mine.foldl (fun s g => s.put IC_TSTAT_WAKE g false) s
      .next (s.judgeWhere fun x => x.link == f.link)

end Sys2Proof.Machine
end

