-- ==== Sys2Proof/Machine/Startup.lean ====
section
/-! DEFINITION. Device resets, boot, the start without an image, PERST#, READY (chapter 18). -/

namespace Sys2Proof.Machine

/-! ### What a reset keeps (R778) -/

/-- A slot at a reset: a session that has not been closed leaves it EMPTY (R751, R777). -/
def SlotSt.atReset (x : SlotSt) : SlotSt :=
  if x.st = slOpen then { st := slEmpty, erases := x.erases } else x

/-- The OTP at a reset: a write in progress is atomic; the counter's completes or leaves the old value, an anchor's leaves it blank
(R777, R787, R789). -/
def State.otpAtReset (s : State) : Otp :=
  match s.cu.otpWrites with
  | .roll v :: _ => if Config.otpCut s.fresh then s.cu.otp.write (.roll v) else s.cu.otp
  | _ => s.cu.otp

/-- The sources that a reset keeps SEVERE. -/
def State.severeSources (s : State) : List Nat := (List.range 256).filter s.srcSevere

/-- A field of source or group `k` is kept. -/
def State.keepField (s old : State) (f : Fld) (k : Nat) : State := s.wrA f 0 k (old.rdA f 0 k)

/-- The Fault domain that kept its state: SEVERE sources with LGROUP and their forces, the record FIFO, FC_RECLOST, FC_EVENTS and FC_RAILS.
What a source is SEVERE for stays with its input. -/
def State.keepFaults (s old : State) : State :=
  let ks := old.severeSources
  let s := ks.foldl (fun (s : State) k =>
    let sev := fun (f : Fld) (s : State) => s.wrA f 0 k (if old.rdA f 0 k = 2 then 2 else 0)
    (((sev FC_SRC_RSTATE (sev FC_SRC_STATE s)).keepField old FC_SRC_LGROUP k).keepField old FC_SRC_CAUSE k).keepField old FC_SRC_RAILEQ k) s
  let s := [FC_RECLOST_COUNT, FC_EVENTS_COUNT, FC_RAILS_COUNT].foldl (fun (s : State) f => s.keepField old f 0) s
  let s := { s with fc := { nextId := old.fc.nextId, driving := old.fc.driving, handling := [] } }
  let s := s.setFifo (old.fc.fifo.map fun r => { r with at_ := 0, old := r.old || !ks.contains r.source })
  (List.range 16).foldl (fun (s : State) g =>
    if s.baseForced g then
      let s := s.setForced g true
      { s with fc := { s.fc with handling := tset 0 s.fc.handling g (tget 0 old.fc.handling g) } }
    else s) s

/-- The switches that stay as they were until the first boundary under an image: FB termination, SP TERM and BIAS (R264, R479). -/
def State.keepSwitches (s old : State) : State :=
  let s := old.fb.foldl (fun (s : State) (x : Nat × FbSt) => s.setPort x.1 fun y => { y with term := x.2.term, armOff := x.2.armOff }) s
  old.sp.foldl (fun (s : State) (x : Nat × SpSt) => s.setSpt x.1 fun y => { y with term := x.2.term, bias := x.2.bias }) s

/-- What the pins do at the reset instant (R777): transceivers OFF, drivers of the banks off. -/
def State.quietPins (s : State) : State :=
  let s := (List.range 64).foldl (fun (s : State) p => if s.rd FB_STAT_XCVR p = 0 then s else s.emit (.transceiver p 0)) s
  s.db.foldl (fun (s : State) (x : Nat × DbSt) => if x.2.drive = 0 then s else s.emit (.lines x.1 0)) s

/-- Every ring and pair lane sends Local Fault (R529, R777, R780). -/
def State.faultLanes (s : State) : State := (List.range 6).foldl (fun (s : State) n => s.sendFault n false) s

/-- What pins and lanes do at the reset instant (R777); at a power-on the device was off. -/
def State.pinsAtReset (s : State) (cause : Nat) : State := if cause = 0 then s else s.quietPins.faultLanes

/-- The state that a device reset leaves (R778): `keep` says that the Fault domain keeps its state. What waits outside the device, the
model's own counters and the test logic (R776) stay. -/
def State.resetDevice (s : State) (cause resets : Nat) (keep pin : Bool) : State :=
  let s := s.pinsAtReset cause
  let r : State := { State.reset with
    pending := s.pending, now := s.now, fresh := s.fresh + 1, out := s.out, tap := s.tap
    time := { tb0 := s.now }
    rx := { fsKey := Config.slotKey s.fresh }, ring_ := { hashKey := Config.ringKey s.fresh }
    cu := { slot0 := s.cu.slot0.atReset, slot1 := s.cu.slot1.atReset, otp := s.otpAtReset }
    sys := { down := true, pin := pin, cause := cause, fcKept := keep, resets := resets }
    host := { links := [0, 1].foldl (fun (t : Tbl LinkSt) k => tset {} t k { perst := (s.link k).perst }) [] } }
  let r := r.wr CU_STAT_BOOTSEL 0 (s.rd CU_STAT_BOOTSEL 0)
  let r := if keep then (r.keepFaults s).keepSwitches s else r
  if r.tapActs then r.emit (.tapPins r.tap.ir true) else r

/-- POWER_ON: VIN rises through 10.8 V: everything but NVM and OTP starts anew (R772, R775, R778). -/
def execPowerOn (t : Nat) (s : State) : Host.Outcome State Fault Refusal :=
  .next ((s.tick t).resetDevice 0 0 false false)

/-- BROWN_OUT: VIN below 10.5 V for more than 10 µs; below 6 V (`low`) the Fault domain loses its state (R775). (DEDUCED, log entry 78.) -/
def execBrownOut (t : Nat) (low : Bool) (s : State) : Host.Outcome State Fault Refusal :=
  let s := s.tick t
  .next (s.resetDevice 1 (s.sys.resets + 1) (!low) s.sys.pin)

/-- RESET_N: low for 1 µs (R775). -/
def execResetN (t : Nat) (s : State) : Host.Outcome State Fault Refusal :=
  let s := s.tick t
  .next (s.resetDevice 2 (s.sys.resets + 1) true true)

/-- COMMAND_RESET: 10 µs after an accepted ACTIVATE_COLD (R757, R775). -/
def execCommandReset (t : Nat) (s : State) : Host.Outcome State Fault Refusal :=
  let s := s.tick t
  .next (match s.cu.coldAt with
    | some a => if s.now ≥ a then s.resetDevice 3 (s.sys.resets + 1) true false else s
    | none => s)

/-! ### Boot (R754, R780-R788) -/

/-- A boot's check of a slot: the image, or the CODE with its section and entry. A slot that holds no object stays EMPTY. -/
def State.bootCheck (s : State) (k : Nat) (nvm : Bool) : State × Except (Nat × Nat × Nat) Loaded :=
  if (s.nvm k).st = slEmpty then (s, .error (1, 0, 0))
  else
    let v := s.checkSlot k true nvm
    let s := s.noteCheck k v
    match v with
    | .pass l => (s, .ok l)
    | .fail c _ => (s, .error (c, s.rd CU_LAST1_SECTION 0, s.rd CU_LAST1_ENTRY 0))

/-- Domains on before any image: ring SerDes, pair links, host links, Time, Fault, Configuration (R780). -/
def bootDomains : List Nat := [100, 101, 102, 103, 104, 105, 106, 107, 136, 137, 139]

/-- Step 8 ends, with or without an image: the ring and pair lanes have sent Local Fault since step 4, the time unit counts from step 3 (`count` tq), the core is at OP-M, the links answer
configuration requests, CU_RSTC and CU_BOOTT are set (R778, R780, R783, R784, R788). -/
def State.bootEnd (s : State) (start count : Nat) : State :=
  let inc := count * nominalInc
  let s := s.tapEnd.faultLanes
  let s := { s with
    time := { s.time with fab := inc, ivl := inc, tb0 := s.now - count, betterAt := s.now }
    sys := { s.sys with down := false, pin := false } }
  let s := ((s.wr PM_STAT_OP 0 1).wr PM_STAT_GOV 0 1).wr PM_STAT_VCORE 0 (opMv 1)
  let s := [0, 1].foldl (fun (s : State) k => s.setLink k fun l => { l with cfg := true, up := !l.perst }) s
  let s := ((s.wr CU_RSTC_CAUSE 0 s.sys.cause).put CU_RSTC_FCKEPT 0 s.sys.fcKept).put CU_RSTC_SEVKEPT 0 (!s.severeSources.isEmpty)
  (s.wr CU_RSTC_RESETS 0 s.sys.resets).wr CU_BOOTT_US 0 (satTo 24 ((s.now - start) / tqPerUs))

/-- A boot that runs an image from slot `k`. -/
def State.bootImage (s : State) (l : Loaded) (k start count : Nat) : State :=
  let s := (s.bootEnd start count).powerUp bootDomains
  let s := (s.wr FS_FREE_FREE 0 32768).wr FS_LOW_LOW 0 32768
  s.activate l k true true

/-- The layout without an image (R785): tenant 0 on the H0 PF, with its page, fault collector page 0 and the configuration unit. -/
def recoveryImage : Image :=
  let open_ := fun (p : Nat) => (⟨0, 0, p, true⟩ : PageOpen)
  { bearing0 := true, pages := [0, 0x20, 0x38, 0x39, 0x3A, 0x3B].map open_, targets := [(511, ⟨0, 0⟩)] }

/-- A boot that runs no image; the ring and pair lanes go on sending Local Fault (R529, R785). -/
def State.bootBare (s : State) (start count : Nat) : State :=
  ({ (s.bootEnd start count).powerUp bootDomains with img := recoveryImage }).wr CU_STAT_PHASE 0 phNoImg

/-- BOOT: the sequence of R780 ends. `start` is the instant at which it began, `count` the time base count at its end, `nvm1` and `nvm2` say that
an NVM read failed in the first and in the second check. (DEDUCED, log entry 77.) -/
def execBoot (t start count : Nat) (nvm1 nvm2 : Bool) (s : State) : Host.Outcome State Fault Refusal :=
  let s := s.tick t
  if !s.sys.down then .next s
  else
    let a := s.rd CU_STAT_BOOTSEL 0
    match s.bootCheck a nvm1 with
    | (s, .ok l) => .next (s.bootImage l a start count)
    | (s, .error (c, sec, entry)) =>
      let b := 1 - a
      match s.bootCheck b nvm2 with
      | (s, .ok l) =>
        let s := ((s.wr CU_STAT_BOOTSEL 0 b).put CU_STAT_FALLBACK 0 true).setCu fun x => { x with fallback := some (a, c) }
        .next (((s.bootImage l b start count).checkEvent a c 2 sec entry).tellFallback)
      | (s, .error _) => .next (s.bootBare start count)

/-- The READY ball is low: PHASE is RUN and no group is forced (R788). -/
def State.ready (s : State) : Bool := !s.sys.down && s.rd CU_STAT_PHASE 0 == phRun && s.rd FC_FORCED_GROUPS 0 == 0

/-! ### PERST# (R81, R783, R784) -/

/-- PERST: the level of PERST# of one link. Low takes the link down, with a function reset of each function; high lets it train once boot has
passed step 4. -/
def execPerst (t link : Nat) (high : Bool) (s : State) : Host.Outcome State Fault Refusal :=
  let s := s.tick t
  if link > 1 then .next s
  else if high then .next (s.setLink link fun l => { l with perst := false, up := !s.sys.down && s.domOn (106 + link) })
  else
    let s := if (s.link link).up then s.resetLink link else s
    .next (s.setLink link fun l => { l with
      perst := true, up := false, reads := [], credit := none, l1 := false, exiting := false })

end Sys2Proof.Machine
end

