-- ==== Sys2Proof/Machine/Tap.lean ====
section
/-! DEFINITION. The test access port (R835-R839). -/

namespace Sys2Proof.Machine

/-- The codes of the instruction register (R835). -/
def tapIdcode : Nat := 0x01
def tapSample : Nat := 0x02
def tapExtest : Nat := 0x03
def tapPulse : Nat := 0x04
def tapTrain : Nat := 0x05
def tapClamp : Nat := 0x06
def tapHighz : Nat := 0x07
def tapBypass : Nat := 0xFF

/-- An instruction is loaded; one that takes control of pins shows at the pins whether it acts (R838). Members of a forced safe-state group
follow R678 and not their boundary cells (R839): the drivers of the model's own state stay as they are. (DEDUCED, log entry 83.) -/
def State.tapLoad (s : State) (code : Nat) : State :=
  let was := s.tapActs
  let s := { s with tap := { ir := code, live := true } }
  if was || s.tapActs then s.emit (.tapPins code s.tapActs) else s

/-- IDCODE: stepping, 0x6496, manufacturer, 1 (R836). -/
def idcodeValue : Nat := Config.stepping % 16 * 2 ^ 28 + 0x6496 * 2 ^ 12 + Config.jedecCode % 2048 * 2 + 1

/-- TAP_RESET: TRST_N resets the test logic only; IDCODE is loaded (R776, R835). -/
def execTapReset (t : Nat) (s : State) : Host.Outcome State Fault Refusal := .next ((s.tick t).tapLoad tapIdcode)

/-- IDCODE shifts out the identification (R836). -/
def execIdcode (t : Nat) (s : State) : Host.Outcome State Fault Refusal :=
  .next (((s.tick t).tapLoad tapIdcode).emit (.tapData idcodeValue))

/-- SAMPLE/PRELOAD captures the boundary cells: what they hold is a free value. -/
def execSamplePreload (t : Nat) (s : State) : Host.Outcome State Fault Refusal :=
  let s := (s.tick t).tapLoad tapSample
  .next ((s.emit (.tapData (Config.boundaryCells s.fresh))).draw)

/-- EXTEST, EXTEST_PULSE and EXTEST_TRAIN drive pins from the boundary cells where R838 lets them. -/
def execExtest (t : Nat) (s : State) : Host.Outcome State Fault Refusal := .next ((s.tick t).tapLoad tapExtest)
def execExtestPulse (t : Nat) (s : State) : Host.Outcome State Fault Refusal := .next ((s.tick t).tapLoad tapPulse)
def execExtestTrain (t : Nat) (s : State) : Host.Outcome State Fault Refusal := .next ((s.tick t).tapLoad tapTrain)

/-- CLAMP holds the pins at their boundary cells, with the bypass register selected. -/
def execClampPins (t : Nat) (s : State) : Host.Outcome State Fault Refusal := .next ((s.tick t).tapLoad tapClamp)

/-- HIGHZ places the outputs in high impedance. -/
def execHighz (t : Nat) (s : State) : Host.Outcome State Fault Refusal := .next ((s.tick t).tapLoad tapHighz)

/-- BYPASS selects the one-bit bypass register. -/
def execBypass (t : Nat) (s : State) : Host.Outcome State Fault Refusal := .next ((s.tick t).tapLoad tapBypass)

end Sys2Proof.Machine
end

