-- ==== Sys2Proof/Machine/Host.lean ====
section
/-! DEFINITION. Host writes of registers without a row of their own, refused accesses, boundaries, votes and their repair
(chapter 03: R75-R77, R100-R105, R110-R131, R150-R152). -/

namespace Sys2Proof.Machine

/-! ### Boundaries (R121-R131) -/

/-- A boundary of a block instance (R122): its staged fields become active (R124). -/
def State.boundaryOf (s : State) : Inst → State
  | .fb p => if p < 64 then s.fbBoundary p else s
  | .sp n => if n < 24 then s.spBoundary n else s
  | .db b => if b < 12 then s.applyBank b else s
  | .rl n => if n < 4 then s.applyStaged (.rl n) else s
  | .pl n => if n < 2 then s.applyStaged (.pl n) else s

/-- BOUNDARY. -/
def execBoundary (t : Nat) (i : Inst) (s : State) : Host.Outcome State Fault Refusal :=
  .next ((s.tick t).boundaryOf i).voteSettled

/-- The block instance that PG_CTL number `k` serves. -/
def instOf (k : Nat) : Option Inst :=
  let n := k % 1024
  if k / 1024 = Blk.fb.code then some (.fb n)
  else if k / 1024 = Blk.sp.code then some (.sp n)
  else if k / 1024 = Blk.rl.code then some (.rl n)
  else if k / 1024 = Blk.pl.code then some (.pl n)
  else if k / 1024 = Blk.db.code then some (.db n)
  else none

/-- Offset of PG_CTL on a page of a block instance. -/
def pgCtlOff : Inst → Nat
  | .fb p => fbOff p 0x7F8
  | .sp n => spOff n 0x7F8
  | .db b => dbOff b 0x7F8
  | .rl n => if n < 4 then 0xC4000 + n * 0x1000 + 0x7F8 else absentOff
  | .pl n => if n < 2 then 0xB1000 + n * 0x1000 + 0x7F8 else absentOff

/-- DISCARD: a write of DISCARD in PG_CTL (R130, R131). -/
def execDiscard (t : Nat) (f : Func) (i : Inst) (s : State) : Host.Outcome State Fault Refusal :=
  .next ((s.tick t).hostWrite f (pgCtlOff i) fun s => (s.discardStaged i).voteSettled)

/-! ### Register writes (R10, R100, R150-R152) -/

/-- An instance in a state in which every instant is a boundary takes a staged write at once (R122). (DEDUCED, log entry 80.) -/
def State.settleInst (s : State) (i : Inst) : State := if s.immediate (pgInst i) then s.boundaryOf i else s

/-- A write through a bit alias (R150, R151): the bit alone, by its access code; a command register acts as on a write of 1 at that bit. -/
def State.writeAlias (s : State) (f : Func) (l : Loc) (bit : Nat) (one : Bool) : State :=
  let t := s.tn f
  let m := 2 ^ bit
  match l.blk with
  | .fb => if l.off = 8 then (if one && decide (bit < 3) then s.fbCommand l.inst m else s) else (s.writeWord l (b2n one * m) m).settleInst (.fb l.inst)
  | .sp => if l.off = 4 then (if one && decide (bit < 2) then s.spCommand l.inst m else s) else (s.writeWord l (b2n one * m) m).settleInst (.sp l.inst)
  | .db =>
    if !one && (l.off == 0xC || l.off == 0x10 || l.off == 0x14 || l.off == 0xA0 || l.off == 0x34) then s
    else if l.off = 0xC then (if bit < 16 then s.bankCmd l.inst ⟨0, m, 0, .host t, 0, 0⟩ else s)
    else if l.off = 0x10 then (if bit < 16 then s.bankCmd l.inst ⟨1, m, 0, .host t, 0, 0⟩ else s)
    else if l.off = 0x14 then (if bit < 16 then s.bankCmd l.inst ⟨2, m, s.rd DB_PWIDTH_WIDTH l.inst, .host t, 0, 0⟩ else s)
    else if l.off = 0xA0 then (if bit < 16 then s.clearCount DB_CNT_COUNT l.inst bit else s)
    else if l.off = 0x34 then s.clearOc l.inst m
    else (s.writeWord l (b2n one * m) m).settleInst (.db l.inst)
  | .ic =>
    if l.off < 0x100 then (if one then s.eachBit t (l.off / 4) m State.setPend else s)
    else if l.off < 0x1E0 then (if one then s.eachBit t ((l.off - 0x100) / 4) m State.clrPend else s)
    else if l.off = 0x1E0 then (if one && decide (bit < 10) && s.srcOwner m == some t then s.setPend m else s)
    else if l.off = 0x1E4 then (if one && decide (bit < 10) && s.srcOwner m == some t then s.clrPend m else s)
    else s.writeWord l (b2n one * m) m
  | _ => s.writeWord l (b2n one * m) m

/-- What a write does beside the fields it changes: staged values of an instance at a boundary, DISCARD, a code that no command has
or an OBJECT out of range (R709, R769), and the event that waits for an EQ (R754). -/
def State.afterWrite (s : State) (f : Func) (l : Loc) (v : Nat) : State :=
  if l.staged then s
  else match l.blk with
    | .fb => s.settleInst (.fb l.inst)
    | .sp => s.settleInst (.sp l.inst)
    | .db => s.settleInst (.db l.inst)
    | .rl => s.settleInst (.rl l.inst)
    | .pl => s.settleInst (.pl l.inst)
    | .pg => if l.off = 0x7F8 ∧ bitAt v 0 then (match instOf l.inst with | some i => s.discardStaged i | none => s) else s
    | .ten =>
      if l.off = 0x10 then s.tellFallback
      else if l.off = 0x78 ∧ (bitsOf v 20 4 = 0 ∨ bitsOf v 20 4 > 10 ∨ bitsOf v 20 4 ≥ 9 ∧ v % 256 ≠ 0) then
        let t := s.tn f
        if s.flag TEN_PWR_RES_BUSY t then s.put TEN_PWR_RES_OVR t true else (s.put TEN_PWR_RES_OVR t false).pwrDone t 1 0
      else s
    | .cu =>
      if l.page = 0 ∧ l.off = 4 ∧ (bitsOf v 20 4 = 0 ∨ bitsOf v 20 4 > 6) then
        if s.flag CU_RES_BUSY 0 then s.put CU_RES_OVR 0 true else (s.put CU_RES_OVR 0 false).cuDone 1 0
      else s
    | _ => s

/-- The effect of a write that is not refused at the place it reaches. A mailbox page opens for read only, the lease view is set by the image
(R98, R386); the transfer window has a row of its own; an offset at which a page has no register ignores a write. -/
def State.writePlace (s : State) (f : Func) (v : Nat) : Place → State
  | .reg l => if s.hidden (s.tn f) l || l.fields.isEmpty then s else ((s.writeReg f l v).afterWrite f l v).voteSettled
  | .alias_ l bit => (s.writeAlias f l bit (bitAt v 0)).voteSettled
  | _ => s

/-- A write of one DWORD of the MSI-X table of a function; an entry at or above the Table Size is none of it (R71, R74). (DEDUCED, log entry 82.) -/
def State.writeTable (s : State) (a : Access) : State :=
  match s.targetOf a.f (a.off / 16) with
  | some g => if a.off < 0x2000 ∧ a.whole ∧ a.dwords = 1 then (s.writeMsix a.f a.off a.val).judge g else s
  | none => s

/-- The command of a write of TEN_PWR_CMD (R709). -/
def powerRow (t : Nat) (f : Func) (v : Nat) (s : State) : Option (Host.Outcome State Fault Refusal) :=
  let o := v % 256
  match bitsOf v 20 4 with
  | 1 => some (execDomainOff t f o s)
  | 2 => some (execDomainOn t f o s)
  | 3 => some (execSetOp t f o s)
  | 4 => some (execSleep t f o s)
  | 5 => some (execWake t f o s)
  | 6 => some (execVetoSet t f o s)
  | 7 => some (execVetoClr t f o s)
  | 8 => some (execWakeAck t f o s)
  | 9 => if o = 0 then some (execFabricWake t f s) else none
  | 10 => if o = 0 then some (execPaceCal t f s) else none
  | _ => none

/-- The command of a write of CU_CMD (R747-R757). -/
def imageRow (t : Nat) (f : Func) (v : Nat) (s : State) : Option (Host.Outcome State Fault Refusal) :=
  match bitsOf v 20 4 with
  | 1 => some (execSessionOpen t f (bitAt v 0) s)
  | 2 => some (execSessionClose t f s)
  | 3 => some (execSessionAbort t f s)
  | 4 => some (execActivate t f s)
  | 5 => some (execActivateCold t f s)
  | 6 => some (execRollfwd t f s)
  | _ => none

/-- The command of a write to a register of the interrupt controller that has a row of its own. -/
def irqRow (t : Nat) (f : Func) (l : Loc) (v : Nat) (s : State) : Option (Host.Outcome State Fault Refusal) :=
  let vec := (List.range 512).find? fun k => s.targetOf f k == some l.inst
  if l.page = 0 then
    if l.off < 0x100 then some (execIcSetb t f (l.off / 4) v s)
    else if l.off < 0x1E0 then some (execIcClrb t f ((l.off - 0x100) / 4) v s)
    else if l.off = 0x1E0 then some (execIcSetn t f v s)
    else if l.off = 0x1E4 then some (execIcClrn t f v s) else none
  else if l.page = 1 ∨ l.page = 2 then some (execIcSrc t f ((l.page - 1) * 512 + l.off / 4) v s)
  else if l.page = 3 ∧ l.off = 0 then vec.map fun k => execIcTcfg t f k v s
  else if l.page = 3 ∧ l.off = 0xC then vec.map fun k => execIcComplete t f k v s
  else none

/-- The command of a write to a register of a port, a bank or a link that has a row of its own. -/
def portRow (t : Nat) (f : Func) (l : Loc) (v : Nat) (s : State) : Option (Host.Outcome State Fault Refusal) :=
  match l.blk with
  | .fb => if l.page = 0 ∧ l.off = 8 then some (execEnable t f l.inst v s) else none
  | .sp => if l.page = 0 ∧ l.off = 4 then some (execSpEnable t f l.inst v s) else none
  | .db =>
    if l.page ≠ 0 then none
    else if l.off = 0xC then some (execDbOset t f l.inst v s)
    else if l.off = 0x10 then some (execDbOclr t f l.inst v s)
    else if l.off = 0x14 then some (execDbOpulse t f l.inst v s)
    else if l.off = 0x34 then some (execDbOc t f l.inst v s)
    else if l.off = 0xA0 then some (execDbCntclr t f l.inst v s) else none
  | .rl =>
    if l.off ≠ 8 then none
    else if bitAt v 1 ∧ s.lstate l.inst = 5 then some (execForget t f l.inst s)
    else if bitAt v 0 then some (execRetrain t f l.inst s) else none
  | .pl => if l.off = 8 ∧ bitAt v 0 then some (execRetrain t f (4 + l.inst) s) else none
  | _ => none

/-- The command that a write carries which reaches a register with a row of its own, at any of its addresses (R142, R144). -/
def rowWrite (t : Nat) (f : Func) (l : Loc) (v : Nat) (s : State) : Option (Host.Outcome State Fault Refusal) :=
  let go := bitAt v 0
  match l.blk with
  | .ic => irqRow t f l v s
  | .fc =>
    if l.page = 1 ∧ l.off % 0x20 = 0xC then some (execFcGclr t f (l.off / 0x20) v s)
    else if l.page = 1 ∧ l.off % 0x20 = 0x14 then some (execFaultTest t f (l.off / 0x20) go s) else none
  | .gt => if l.page = 1 ∧ l.off = 0 then some (execGtStart t f (v % 1024) s) else none
  | .ten =>
    if l.off = 0x58 then some (execTenSptxSel t f v s)
    else if l.off = 0x5C ∨ l.off = 0x60 ∨ l.off = 0x64 then some (execTenSptxD t f ((l.off - 0x58) / 4) v s)
    else if l.off = 0x68 ∧ go then some (execTenSptxGo t f s)
    else if l.off = 0x78 then powerRow t f v s else none
  | .rc =>
    if l.off ≠ 0x10 then none
    else if go then some (execArm t f (l.inst % 256) (bitAt v 1) s)
    else if bitAt v 1 then some (execDisarm t f (l.inst % 256) false s) else none
  | .tu =>
    if l.page = 0 ∧ l.off = 0x38 then some (execTuAlarm t f v s)
    else if l.page = 0 ∧ l.off = 0x48 then some (execTuSet t f v s)
    else if l.page = 0 ∧ l.off = 0x3C ∧ go then some (execAlarmDisarm t f s)
    else if l.page = 2 ∧ l.off = 0x40 ∧ go then some (execTtClr t f s) else none
  | .pr => if l.page = 0 ∧ l.off = 0xC ∧ go then some (execSwap t f s) else none
  | .rg =>
    if l.page = 3 ∧ l.off = 8 ∧ bitAt v 23 then some (execRemoteGo t f v s)
    else if l.page = 0 ∧ l.off = 0x100 ∧ go then some (execSleepStart t f s) else none
  | .fs =>
    let u := s.tick t
    if l.off = 0x14 ∧ go then some (.next (if u.inGap then u.bump CU_GAPWR_COUNT 0 else u.wr FS_LOW_LOW 0 (u.rd FS_FREE_FREE 0))) else none
  | .cu =>
    if l.page = 0 ∧ l.off = 4 then imageRow t f v s
    else if l.page = 2 ∧ l.off = 0x14 ∧ go then some (execPullGo t f s) else none
  | _ => portRow t f l v s

/-- The effect of a write that the access filter passes: the command of a register with a row of its own, discarded in a gap as any (R760), else
the write by the access codes of its fields. -/
def State.passWrite (s : State) (t : Nat) (a : Access) : Host.Outcome State Fault Refusal :=
  let u := s.tick t
  let plain := Host.Outcome.next (if u.inGap then u.bump CU_GAPWR_COUNT 0 else u.writePlace a.f a.val (u.place a.f a.off))
  match u.place a.f a.off with
  | .window _ => .next u
  | .reg l => if l.staged || u.hidden (u.tn a.f) l then plain else (rowWrite t a.f l a.val s).getD plain
  | _ => plain

/-- REGISTER_WRITE: a host write to a register (R10), to the MSI-X table in BAR4/5 as well. A gap discards and counts it (R760); at a register
that has a row of its own it is that row's command. (DEDUCED, log entry 81.) -/
def execRegisterWrite (t : Nat) (a : Access) (s : State) : Host.Outcome State Fault Refusal :=
  let u := s.tick t
  if a.write ∧ a.bar = cfgSpace then .next (u.writeConfig a)
  else if !a.write || !u.answers a.f || u.quiet a.f then .next u
  else if a.bar = 4 then .next (u.writeTable a)
  else match u.refusal a with
    | some r => .next (u.refuse a r)
    | none => if a.bar ≠ 0 then .next u else s.passWrite t a

/-- REFUSED_ACCESS: an access that the access filter refuses, by page, offset or form (R75-R77, R101, R138, R140, R168). A quiet function's read
returns zeros uncounted, as a read of a doorbell page does (R84, R168). -/
def execRefusedAccess (t : Nat) (a : Access) (s : State) : Host.Outcome State Fault Refusal :=
  let s := s.tick t
  if !s.answers a.f then .next s
  else if s.quiet a.f ∨ (a.bar = 2 ∧ !a.write) then
    .next (if a.write then s else s.emit (.readDone a.f a.off (List.replicate a.dwords 0)))
  else match s.refusal a with
    | some r => .next (s.refuse a r)
    | none => .next s

end Sys2Proof.Machine
end

