-- ==== Sys2Proof/Machine/Dispatch.lean ====
section
/-! DEFINITION. One arm per command: the meaning it calls. -/

namespace Sys2Proof.Machine

def exec (i : Instr) (s : State) : Host.Outcome State Fault Refusal :=
  match i with
  | .registerWrite t a => Sys2Proof.Machine.execRegisterWrite t a s
  | .refusedAccess t a => Sys2Proof.Machine.execRefusedAccess t a s
  | .wideGroupRead t a found => Sys2Proof.Machine.execWideGroupRead t a found s
  | .scrubVisit t blk inst off lo staged found => Sys2Proof.Machine.execScrubVisit t blk inst off lo staged found s
  | .rwiRestore t blk inst off lo => Sys2Proof.Machine.execRwiRestore t blk inst off lo s
  | .boundary t ix => Sys2Proof.Machine.execBoundary t ix s
  | .discard t f ix => Sys2Proof.Machine.execDiscard t f ix s
  | .flr t f => Sys2Proof.Machine.execFlr t f s
  | .vfEnableCleared t link numVfs => Sys2Proof.Machine.execVfEnableCleared t link numVfs s
  | .busMasterEnableCleared t f => Sys2Proof.Machine.execBusMasterEnableCleared t f s
  | .d3hotEntered t link => Sys2Proof.Machine.execD3hotEntered t link s
  | .hotReset t link => Sys2Proof.Machine.execHotReset t link s
  | .functionResetComplete t f => Sys2Proof.Machine.execFunctionResetComplete t f s
  | .completionsResume t f => Sys2Proof.Machine.execCompletionsResume t f s
  | .arm t f k both => Sys2Proof.Machine.execArm t f k both s
  | .disarm t f k both => Sys2Proof.Machine.execDisarm t f k both s
  | .ringDrainEnd t ring => Sys2Proof.Machine.execRingDrainEnd t ring s
  | .doorbell t f k v => Sys2Proof.Machine.execDoorbell t f k v s
  | .fetchRequest t link => Sys2Proof.Machine.execFetchRequest t link s
  | .fetchCompletion t link tag r => Sys2Proof.Machine.execFetchCompletion t link tag r s
  | .completionTimeout t link tag => Sys2Proof.Machine.execCompletionTimeout t link tag s
  | .payloadReadDone t link tag r => Sys2Proof.Machine.execPayloadReadDone t link tag r s
  | .descOpcode t ring => Sys2Proof.Machine.execDescOpcode t ring s
  | .txFrame t ring => Sys2Proof.Machine.execTxFrame t ring s
  | .cancel t ring => Sys2Proof.Machine.execCancel t ring s
  | .alloc t ring => Sys2Proof.Machine.execAlloc t ring s
  | .freeSlot t ring => Sys2Proof.Machine.execFreeSlot t ring s
  | .writeSlot t ring => Sys2Proof.Machine.execWriteSlot t ring s
  | .fence t ring => Sys2Proof.Machine.execFence t ring s
  | .nop t ring => Sys2Proof.Machine.execNop t ring s
  | .headerEvent t p h => Sys2Proof.Machine.execHeaderEvent t p h s
  | .eofEvent t p data => Sys2Proof.Machine.execEofEvent t p data s
  | .recordWrite t link => Sys2Proof.Machine.execRecordWrite t link s
  | .frameTake t p => Sys2Proof.Machine.execFrameTake t p s
  | .arbitrationLost t p => Sys2Proof.Machine.execArbitrationLost t p s
  | .frameError t p e => Sys2Proof.Machine.execFrameError t p e s
  | .overloadFrame t p c => Sys2Proof.Machine.execOverloadFrame t p c s
  | .protocolException t p => Sys2Proof.Machine.execProtocolException t p s
  | .tdcSat t p => Sys2Proof.Machine.execTdcSat t p s
  | .integrationComplete t p => Sys2Proof.Machine.execIntegrationComplete t p s
  | .occurrence t p => Sys2Proof.Machine.execOccurrence t p s
  | .autoClear t p => Sys2Proof.Machine.execAutoClear t p s
  | .recovered t p => Sys2Proof.Machine.execRecovered t p s
  | .txdom t p => Sys2Proof.Machine.execTxdom t p s
  | .busdom t p on => Sys2Proof.Machine.execBusdom t p on s
  | .wakeSignal t p => Sys2Proof.Machine.execWakeSignal t p s
  | .transceiverModeDone t p => Sys2Proof.Machine.execTransceiverModeDone t p s
  | .enable t f p bits => Sys2Proof.Machine.execEnable t f p bits s
  | .disable t f p bits => Sys2Proof.Machine.execDisable t f p bits s
  | .clrBo t f p bits => Sys2Proof.Machine.execClrBo t f p bits s
  | .drainEnd t p => Sys2Proof.Machine.execDrainEnd t p s
  | .drainLimit t p => Sys2Proof.Machine.execDrainLimit t p s
  | .tokens t lease => Sys2Proof.Machine.execTokens t lease s
  | .replyExpiry t p seq => Sys2Proof.Machine.execReplyExpiry t p seq s
  | .queueRebuildDone t p => Sys2Proof.Machine.execQueueRebuildDone t p s
  | .pqHead0 t f p => Sys2Proof.Machine.execPqHead0 t f p s
  | .mbOpen t f m => Sys2Proof.Machine.execMbOpen t f m s
  | .mbClose t f m => Sys2Proof.Machine.execMbClose t f m s
  | .mailboxAutoClose t m => Sys2Proof.Machine.execMailboxAutoClose t m s
  | .lowclr t f => Sys2Proof.Machine.execLowclr t f s
  | .syncCell t port c => Sys2Proof.Machine.execSyncCell t port c s
  | .syncSend t => Sys2Proof.Machine.execSyncSend t s
  | .masterTimeout t => Sys2Proof.Machine.execMasterTimeout t s
  | .referenceLoss t => Sys2Proof.Machine.execReferenceLoss t s
  | .holdoverTimeout t => Sys2Proof.Machine.execHoldoverTimeout t s
  | .slewEnd t => Sys2Proof.Machine.execSlewEnd t s
  | .delayMeasure t port => Sys2Proof.Machine.execDelayMeasure t port s
  | .ppsInputLoss t => Sys2Proof.Machine.execPpsInputLoss t s
  | .tuSet t f v => Sys2Proof.Machine.execTuSet t f v s
  | .tuAlarm t f v => Sys2Proof.Machine.execTuAlarm t f v s
  | .alarmDisarm t f => Sys2Proof.Machine.execAlarmDisarm t f s
  | .alarmFire t => Sys2Proof.Machine.execAlarmFire t s
  | .ppsOn t line => Sys2Proof.Machine.execPpsOn t line s
  | .ppsOff t line => Sys2Proof.Machine.execPpsOff t line s
  | .ttCycleStart t p => Sys2Proof.Machine.execTtCycleStart t p s
  | .ttTimeout t p => Sys2Proof.Machine.execTtTimeout t p s
  | .ttClr t f => Sys2Proof.Machine.execTtClr t f s
  | .character t n c => Sys2Proof.Machine.execCharacter t n c s
  | .idleClose t n => Sys2Proof.Machine.execIdleClose t n s
  | .lineBreak t n low => Sys2Proof.Machine.execLineBreak t n low s
  | .tenSptxSel t f v => Sys2Proof.Machine.execTenSptxSel t f v s
  | .tenSptxD t f n v => Sys2Proof.Machine.execTenSptxD t f n v s
  | .tenSptxGo t f => Sys2Proof.Machine.execTenSptxGo t f s
  | .spMessageStart t m => Sys2Proof.Machine.execSpMessageStart t m s
  | .spMessageEnd t n => Sys2Proof.Machine.execSpMessageEnd t n s
  | .spEnable t f n bits => Sys2Proof.Machine.execSpEnable t f n bits s
  | .spDisable t f n bits => Sys2Proof.Machine.execSpDisable t f n bits s
  | .spDrainEnd t n => Sys2Proof.Machine.execSpDrainEnd t n s
  | .spReceiverReady t n => Sys2Proof.Machine.execSpReceiverReady t n s
  | .bankSampleTick t b levels => Sys2Proof.Machine.execBankSampleTick t b levels s
  | .functionSwitchStart t b line => Sys2Proof.Machine.execFunctionSwitchStart t b line s
  | .pulseEnd t b line => Sys2Proof.Machine.execPulseEnd t b line s
  | .fastEdge t b line rise => Sys2Proof.Machine.execFastEdge t b line rise s
  | .dbOset t f b lines => Sys2Proof.Machine.execDbOset t f b lines s
  | .dbOclr t f b lines => Sys2Proof.Machine.execDbOclr t f b lines s
  | .dbOpulse t f b lines => Sys2Proof.Machine.execDbOpulse t f b lines s
  | .dbCntclr t f b lines => Sys2Proof.Machine.execDbCntclr t f b lines s
  | .dbTsf0 t f b => Sys2Proof.Machine.execDbTsf0 t f b s
  | .dbOc t f b lines => Sys2Proof.Machine.execDbOc t f b lines s
  | .overcurrent t b line => Sys2Proof.Machine.execOvercurrent t b line s
  | .vfLost t b => Sys2Proof.Machine.execVfLost t b s
  | .vfRet t b => Sys2Proof.Machine.execVfRet t b s
  | .cellReceive t port c => Sys2Proof.Machine.execCellReceive t port c s
  | .cellRead t port c => Sys2Proof.Machine.execCellRead t port c s
  | .mboxWrite t port c => Sys2Proof.Machine.execMboxWrite t port c s
  | .dcmd t port c => Sys2Proof.Machine.execDcmd t port c s
  | .rsp t port c => Sys2Proof.Machine.execRsp t port c s
  | .member t port c => Sys2Proof.Machine.execMember t port c s
  | .memberSend t => Sys2Proof.Machine.execMemberSend t s
  | .memberTimeout t node => Sys2Proof.Machine.execMemberTimeout t node s
  | .consent t port c => Sys2Proof.Machine.execConsent t port c s
  | .commit t port c => Sys2Proof.Machine.execCommit t port c s
  | .delayCell t port c => Sys2Proof.Machine.execDelayCell t port c s
  | .ack t port v => Sys2Proof.Machine.execAck t port v s
  | .nak t port v => Sys2Proof.Machine.execNak t port v s
  | .credit t port vc n => Sys2Proof.Machine.execCredit t port vc n s
  | .ident t port ix v => Sys2Proof.Machine.execIdent t port ix v s
  | .keep t port => Sys2Proof.Machine.execKeep t port s
  | .wrapnote t port v => Sys2Proof.Machine.execWrapnote t port v s
  | .ackTimeout t port => Sys2Proof.Machine.execAckTimeout t port s
  | .linkLoss t port c => Sys2Proof.Machine.execLinkLoss t port c s
  | .blockLockHeld t port => Sys2Proof.Machine.execBlockLockHeld t port s
  | .retryTimerExpiry t port => Sys2Proof.Machine.execRetryTimerExpiry t port s
  | .forget t f port => Sys2Proof.Machine.execForget t f port s
  | .retrain t f port => Sys2Proof.Machine.execRetrain t f port s
  | .remoteGo t f v => Sys2Proof.Machine.execRemoteGo t f v s
  | .requestTimeout t tag => Sys2Proof.Machine.execRequestTimeout t tag s
  | .sleepStart t f => Sys2Proof.Machine.execSleepStart t f s
  | .sleepRoundTimeout t => Sys2Proof.Machine.execSleepRoundTimeout t s
  | .gtStart t f g => Sys2Proof.Machine.execGtStart t f g s
  | .gatherSchedule t g => Sys2Proof.Machine.execGatherSchedule t g s
  | .gatherElementReduce t g => Sys2Proof.Machine.execGatherElementReduce t g s
  | .hbSend t => Sys2Proof.Machine.execHbSend t s
  | .hb t path c => Sys2Proof.Machine.execHb t path c s
  | .pathTimeout t path => Sys2Proof.Machine.execPathTimeout t path s
  | .joinTimeout t => Sys2Proof.Machine.execJoinTimeout t s
  | .contestClose t => Sys2Proof.Machine.execContestClose t s
  | .isolationTimeout t => Sys2Proof.Machine.execIsolationTimeout t s
  | .clovePeriodic t => Sys2Proof.Machine.execClovePeriodic t s
  | .mirrorRecs t c => Sys2Proof.Machine.execMirrorRecs t c s
  | .snapRecs t c last => Sys2Proof.Machine.execSnapRecs t c last s
  | .swap t f => Sys2Proof.Machine.execSwap t f s
  | .swapPortsStopped t => Sys2Proof.Machine.execSwapPortsStopped t s
  | .swapCell t epoch c => Sys2Proof.Machine.execSwapCell t epoch c s
  | .sourceInputChange t src => Sys2Proof.Machine.execSourceInputChange t src s
  | .icSetb t f ix v => Sys2Proof.Machine.execIcSetb t f ix v s
  | .icClrb t f ix v => Sys2Proof.Machine.execIcClrb t f ix v s
  | .icSetn t f v => Sys2Proof.Machine.execIcSetn t f v s
  | .icClrn t f v => Sys2Proof.Machine.execIcClrn t f v s
  | .icClaim t f vec => Sys2Proof.Machine.execIcClaim t f vec s
  | .icComplete t f vec v => Sys2Proof.Machine.execIcComplete t f vec v s
  | .icSrc t f src v => Sys2Proof.Machine.execIcSrc t f src v s
  | .icTcfg t f vec v => Sys2Proof.Machine.execIcTcfg t f vec v s
  | .coalesceTimeout t tgt => Sys2Proof.Machine.execCoalesceTimeout t tgt s
  | .holdEnd t tgt h => Sys2Proof.Machine.execHoldEnd t tgt h s
  | .faultEvent t src detail => Sys2Proof.Machine.execFaultEvent t src detail s
  | .railFault t src => Sys2Proof.Machine.execRailFault t src s
  | .causeExpiry t src => Sys2Proof.Machine.execCauseExpiry t src s
  | .fcRec0 t f => Sys2Proof.Machine.execFcRec0 t f s
  | .fcGclr t f g v => Sys2Proof.Machine.execFcGclr t f g v s
  | .faultTest t f g on => Sys2Proof.Machine.execFaultTest t f g on s
  | .domainOff t f d => Sys2Proof.Machine.execDomainOff t f d s
  | .domainOn t f d => Sys2Proof.Machine.execDomainOn t f d s
  | .domainOffDone t d => Sys2Proof.Machine.execDomainOffDone t d s
  | .domainOnDone t d good => Sys2Proof.Machine.execDomainOnDone t d good s
  | .setOp t f o => Sys2Proof.Machine.execSetOp t f o s
  | .slewSettled t => Sys2Proof.Machine.execSlewSettled t s
  | .paceSample t ps tj => Sys2Proof.Machine.execPaceSample t ps tj s
  | .paceCal t f => Sys2Proof.Machine.execPaceCal t f s
  | .paceCalDone t factor => Sys2Proof.Machine.execPaceCalDone t factor s
  | .sleep t f p => Sys2Proof.Machine.execSleep t f p s
  | .wake t f p => Sys2Proof.Machine.execWake t f p s
  | .vetoSet t f p => Sys2Proof.Machine.execVetoSet t f p s
  | .vetoClr t f p => Sys2Proof.Machine.execVetoClr t f p s
  | .wakeAck t f p => Sys2Proof.Machine.execWakeAck t f p s
  | .fabricWake t f => Sys2Proof.Machine.execFabricWake t f s
  | .aniseWindowTimeout t p => Sys2Proof.Machine.execAniseWindowTimeout t p s
  | .aniseSleepEntry t p => Sys2Proof.Machine.execAniseSleepEntry t p s
  | .wakeAnswerTimeout t p => Sys2Proof.Machine.execWakeAnswerTimeout t p s
  | .sessionOpen t f force => Sys2Proof.Machine.execSessionOpen t f force s
  | .eraseDone t => Sys2Proof.Machine.execEraseDone t s
  | .windowWrite t f off data => Sys2Proof.Machine.execWindowWrite t f off data s
  | .pullGo t f => Sys2Proof.Machine.execPullGo t f s
  | .pullDone t link tag r => Sys2Proof.Machine.execPullDone t link tag r s
  | .sessionClose t f => Sys2Proof.Machine.execSessionClose t f s
  | .sessionAbort t f => Sys2Proof.Machine.execSessionAbort t f s
  | .activate t f => Sys2Proof.Machine.execActivate t f s
  | .activateCold t f => Sys2Proof.Machine.execActivateCold t f s
  | .rollfwd t f => Sys2Proof.Machine.execRollfwd t f s
  | .checkDone t nvm => Sys2Proof.Machine.execCheckDone t nvm s
  | .gapEnd t => Sys2Proof.Machine.execGapEnd t s
  | .powerOn t => Sys2Proof.Machine.execPowerOn t s
  | .brownOut t low => Sys2Proof.Machine.execBrownOut t low s
  | .resetN t => Sys2Proof.Machine.execResetN t s
  | .commandReset t => Sys2Proof.Machine.execCommandReset t s
  | .boot t start count nvm1 nvm2 => Sys2Proof.Machine.execBoot t start count nvm1 nvm2 s
  | .perst t link high => Sys2Proof.Machine.execPerst t link high s
  | .tapReset t => Sys2Proof.Machine.execTapReset t s
  | .idcode t => Sys2Proof.Machine.execIdcode t s
  | .samplePreload t => Sys2Proof.Machine.execSamplePreload t s
  | .extest t => Sys2Proof.Machine.execExtest t s
  | .extestPulse t => Sys2Proof.Machine.execExtestPulse t s
  | .extestTrain t => Sys2Proof.Machine.execExtestTrain t s
  | .clampPins t => Sys2Proof.Machine.execClampPins t s
  | .highz t => Sys2Proof.Machine.execHighz t s
  | .bypass t => Sys2Proof.Machine.execBypass t s
  | .termArmDisconnect t p arm => Sys2Proof.Machine.execTermArmDisconnect t p arm s
  | .termArmReconnect t p arm => Sys2Proof.Machine.execTermArmReconnect t p arm s
  | .thermalShutdown t p => Sys2Proof.Machine.execThermalShutdown t p s
  | .nakRepeat t port => Sys2Proof.Machine.execNakRepeat t port s
  | .levelCauseEnd t src => Sys2Proof.Machine.execLevelCauseEnd t src s
  | .maceNetRailEqual t g eq => Sys2Proof.Machine.execMaceNetRailEqual t g eq s
  | .thermalRecovery t p => Sys2Proof.Machine.execThermalRecovery t p s
  | .frameStoreScrub t frame bad => Sys2Proof.Machine.execFrameStoreScrub t frame bad s
  | .leaseRecordPeriodic t => Sys2Proof.Machine.execLeaseRecordPeriodic t s
  | .postedCreditReturn t link n => Sys2Proof.Machine.execPostedCreditReturn t link n s
  | .otpWriteDone t => Sys2Proof.Machine.execOtpWriteDone t s

end Sys2Proof.Machine
end

