-- ==== Sys2Proof/Safety.lean ====
section
/-! DEFINITION. What counts as a sound state of the device, and when a host access reaches its effect, in the terms the statements use. -/

namespace Sys2Proof

/-- The instant at which a command occurs: its operand `t`. -/
def Instr.at_ : Instr → Nat
  | .registerWrite t _ => t
  | .refusedAccess t _ => t
  | .wideGroupRead t _ _ => t
  | .scrubVisit t _ _ _ _ _ _ => t
  | .rwiRestore t _ _ _ _ => t
  | .boundary t _ => t
  | .discard t _ _ => t
  | .flr t _ => t
  | .vfEnableCleared t _ _ => t
  | .busMasterEnableCleared t _ => t
  | .d3hotEntered t _ => t
  | .hotReset t _ => t
  | .functionResetComplete t _ => t
  | .completionsResume t _ => t
  | .arm t _ _ _ => t
  | .disarm t _ _ _ => t
  | .ringDrainEnd t _ => t
  | .doorbell t _ _ _ => t
  | .fetchRequest t _ => t
  | .fetchCompletion t _ _ _ => t
  | .completionTimeout t _ _ => t
  | .payloadReadDone t _ _ _ => t
  | .descOpcode t _ => t
  | .txFrame t _ => t
  | .cancel t _ => t
  | .alloc t _ => t
  | .freeSlot t _ => t
  | .writeSlot t _ => t
  | .fence t _ => t
  | .nop t _ => t
  | .headerEvent t _ _ => t
  | .eofEvent t _ _ => t
  | .recordWrite t _ => t
  | .frameTake t _ => t
  | .arbitrationLost t _ => t
  | .frameError t _ _ => t
  | .overloadFrame t _ _ => t
  | .protocolException t _ => t
  | .tdcSat t _ => t
  | .integrationComplete t _ => t
  | .occurrence t _ => t
  | .autoClear t _ => t
  | .recovered t _ => t
  | .txdom t _ => t
  | .busdom t _ _ => t
  | .wakeSignal t _ => t
  | .transceiverModeDone t _ => t
  | .enable t _ _ _ => t
  | .disable t _ _ _ => t
  | .clrBo t _ _ _ => t
  | .drainEnd t _ => t
  | .drainLimit t _ => t
  | .tokens t _ => t
  | .replyExpiry t _ _ => t
  | .queueRebuildDone t _ => t
  | .pqHead0 t _ _ => t
  | .mbOpen t _ _ => t
  | .mbClose t _ _ => t
  | .mailboxAutoClose t _ => t
  | .lowclr t _ => t
  | .syncCell t _ _ => t
  | .syncSend t => t
  | .masterTimeout t => t
  | .referenceLoss t => t
  | .holdoverTimeout t => t
  | .slewEnd t => t
  | .delayMeasure t _ => t
  | .ppsInputLoss t => t
  | .tuSet t _ _ => t
  | .tuAlarm t _ _ => t
  | .alarmDisarm t _ => t
  | .alarmFire t => t
  | .ppsOn t _ => t
  | .ppsOff t _ => t
  | .ttCycleStart t _ => t
  | .ttTimeout t _ => t
  | .ttClr t _ => t
  | .character t _ _ => t
  | .idleClose t _ => t
  | .lineBreak t _ _ => t
  | .tenSptxSel t _ _ => t
  | .tenSptxD t _ _ _ => t
  | .tenSptxGo t _ => t
  | .spMessageStart t _ => t
  | .spMessageEnd t _ => t
  | .spEnable t _ _ _ => t
  | .spDisable t _ _ _ => t
  | .spDrainEnd t _ => t
  | .spReceiverReady t _ => t
  | .bankSampleTick t _ _ => t
  | .functionSwitchStart t _ _ => t
  | .pulseEnd t _ _ => t
  | .fastEdge t _ _ _ => t
  | .dbOset t _ _ _ => t
  | .dbOclr t _ _ _ => t
  | .dbOpulse t _ _ _ => t
  | .dbCntclr t _ _ _ => t
  | .dbTsf0 t _ _ => t
  | .dbOc t _ _ _ => t
  | .overcurrent t _ _ => t
  | .vfLost t _ => t
  | .vfRet t _ => t
  | .cellReceive t _ _ => t
  | .cellRead t _ _ => t
  | .mboxWrite t _ _ => t
  | .dcmd t _ _ => t
  | .rsp t _ _ => t
  | .member t _ _ => t
  | .memberSend t => t
  | .memberTimeout t _ => t
  | .consent t _ _ => t
  | .commit t _ _ => t
  | .delayCell t _ _ => t
  | .ack t _ _ => t
  | .nak t _ _ => t
  | .credit t _ _ _ => t
  | .ident t _ _ _ => t
  | .keep t _ => t
  | .wrapnote t _ _ => t
  | .ackTimeout t _ => t
  | .linkLoss t _ _ => t
  | .blockLockHeld t _ => t
  | .retryTimerExpiry t _ => t
  | .forget t _ _ => t
  | .retrain t _ _ => t
  | .remoteGo t _ _ => t
  | .requestTimeout t _ => t
  | .sleepStart t _ => t
  | .sleepRoundTimeout t => t
  | .gtStart t _ _ => t
  | .gatherSchedule t _ => t
  | .gatherElementReduce t _ => t
  | .hbSend t => t
  | .hb t _ _ => t
  | .pathTimeout t _ => t
  | .joinTimeout t => t
  | .contestClose t => t
  | .isolationTimeout t => t
  | .clovePeriodic t => t
  | .mirrorRecs t _ => t
  | .snapRecs t _ _ => t
  | .swap t _ => t
  | .swapPortsStopped t => t
  | .swapCell t _ _ => t
  | .sourceInputChange t _ => t
  | .icSetb t _ _ _ => t
  | .icClrb t _ _ _ => t
  | .icSetn t _ _ => t
  | .icClrn t _ _ => t
  | .icClaim t _ _ => t
  | .icComplete t _ _ _ => t
  | .icSrc t _ _ _ => t
  | .icTcfg t _ _ _ => t
  | .coalesceTimeout t _ => t
  | .holdEnd t _ _ => t
  | .faultEvent t _ _ => t
  | .railFault t _ => t
  | .causeExpiry t _ => t
  | .fcRec0 t _ => t
  | .fcGclr t _ _ _ => t
  | .faultTest t _ _ _ => t
  | .domainOff t _ _ => t
  | .domainOn t _ _ => t
  | .domainOffDone t _ => t
  | .domainOnDone t _ _ => t
  | .setOp t _ _ => t
  | .slewSettled t => t
  | .paceSample t _ _ => t
  | .paceCal t _ => t
  | .paceCalDone t _ => t
  | .sleep t _ _ => t
  | .wake t _ _ => t
  | .vetoSet t _ _ => t
  | .vetoClr t _ _ => t
  | .wakeAck t _ _ => t
  | .fabricWake t _ => t
  | .aniseWindowTimeout t _ => t
  | .aniseSleepEntry t _ => t
  | .wakeAnswerTimeout t _ => t
  | .sessionOpen t _ _ => t
  | .eraseDone t => t
  | .windowWrite t _ _ _ => t
  | .pullGo t _ => t
  | .pullDone t _ _ _ => t
  | .sessionClose t _ => t
  | .sessionAbort t _ => t
  | .activate t _ => t
  | .activateCold t _ => t
  | .rollfwd t _ => t
  | .checkDone t _ => t
  | .gapEnd t => t
  | .powerOn t => t
  | .brownOut t _ => t
  | .resetN t => t
  | .commandReset t => t
  | .boot t _ _ _ _ => t
  | .perst t _ _ => t
  | .tapReset t => t
  | .idcode t => t
  | .samplePreload t => t
  | .extest t => t
  | .extestPulse t => t
  | .extestTrain t => t
  | .clampPins t => t
  | .highz t => t
  | .bypass t => t
  | .termArmDisconnect t _ _ => t
  | .termArmReconnect t _ _ => t
  | .thermalShutdown t _ => t
  | .nakRepeat t _ => t
  | .levelCauseEnd t _ => t
  | .maceNetRailEqual t _ _ => t
  | .thermalRecovery t _ => t
  | .frameStoreScrub t _ _ => t
  | .leaseRecordPeriodic t => t
  | .postedCreditReturn t _ _ => t
  | .otpWriteDone t => t

/-- The commands of a device reset, of a boot and of the end of an OTP write: those that may change the interval count or the OTP otherwise
than by the passing of time. -/
def Instr.special : Instr → Bool
  | .powerOn _ | .brownOut _ _ | .resetN _ | .commandReset _ | .boot _ _ _ _ _ | .otpWriteDone _ => true
  | _ => false

namespace Machine

/-- A request to BAR0 reaches its effect: the function is served, the access filter passes it (R75-R77, R84) and no warm-restart gap discards it
or answers it with ones (R760). -/
def State.serves (s : State) (a : Access) : Bool :=
  s.answers a.f && !s.quiet a.f && (s.refusal a).isNone && !(s.inGap && (a.write || !gapReads (s.place a.f a.off)))

/-- A write of one register by function `f` at a BAR0 offset reaches its effect. -/
def State.takesWrite (s : State) (f : Func) (off : Nat) : Bool := s.serves ⟨f, 0, off, true, 1, true, 0⟩

/-- A read of one register by function `f` reaches its effect. -/
def State.takesRead (s : State) (f : Func) (off : Nat) : Bool := s.serves ⟨f, 0, off, false, 1, true, 0⟩

/-- The first descriptor of SQ `r` is `w`, past its checks, its opcode `op`, its payload bytes `b` in hand, and admission does not stand still. -/
def State.firstDesc (s : State) (r op : Nat) (w : Work) (b : List Byte) : Bool :=
  !s.inGap && (s.ring r).work.head? == some w && descStatus w.raw == none && w.payload == .ready b && descOp w.raw == op

/-- The register store is in canonical form: keys strictly rising, so that equal stores are equal data. -/
def State.regsCanonical (s : State) : Prop := s.regs.Pairwise fun a b => a.1 < b.1

/-- `v` has the registers of `u` but for the fields stored under the keys `ks`. -/
def State.regsBut (u v : State) (ks : List Nat) : Prop := ∀ k, k ∉ ks → ∀ d, tget d v.regs k = tget d u.regs k

end Machine

end Sys2Proof
end

