-- ==== Sys2Proof/Certificates/Slice0/Obligations.lean ====
section
/-! DEFINITION. The statements for the provers. `u` is the state at the instant of the command. -/

section

open Sys2Proof Sys2Proof.Machine

/-- Register writes, refused accesses and reads of the register window. A write of BAR0 that the device serves outside a gap: at a register that the
function sees, that is not staged and has no command row of its own for the value, it is the write by the register's access codes, what follows a
write at that register, and the end of cause 187 where every vote has a majority again; at a bit alias it is the alias write of that bit. A write
that the device would serve but for a gap, at such a register or an alias, only counts in CU_GAPWR. A write of the MSI-X table in BAR4 by a function
that is served writes the table; one of configuration space writes that. A refused write or read of a served function counts in TEN_VIOL of its
tenant, raises ACCESS_DENIED to it and, for a read, returns a zero for each DWORD; a read of a doorbell page and a read by a function in reset
return zeros and count nothing, and a write by a function in reset changes nothing. A read of BAR0 that the device serves returns the DWORDs read
one after the other; a single DWORD at the lowest register of a wide group whose read has no row of its own and finds no damaged copies latches the
other parts for the function and returns the register; in a gap a read elsewhere than at what reads normally there returns all ones for each DWORD;
a read of BAR4 returns the words of the MSI-X table and the PBA, and one of configuration space its word. -/
def Obligations.FilterAndWindow : Prop :=
  (∀ (s u : State) (t : Nat) (a : Access) (l : Loc), u = s.tick t → u.serves a = true → a.write = true → a.bar = 0 → u.place a.f a.off = .reg l →
    l.staged = false → u.hidden (u.tn a.f) l = false → l.fields ≠ [] → rowWrite t a.f l a.val s = none →
    exec (.registerWrite t a) s = .next (((u.writeReg a.f l a.val).afterWrite a.f l a.val).voteSettled))
  ∧ (∀ (s u : State) (t : Nat) (a : Access) (l : Loc) (bit : Nat), u = s.tick t → u.serves a = true → a.write = true → a.bar = 0 →
    u.place a.f a.off = .alias_ l bit → exec (.registerWrite t a) s = .next (u.writeAlias a.f l bit (bitAt a.val 0)).voteSettled)
  ∧ (∀ (s u : State) (t : Nat) (a : Access) (l : Loc), u = s.tick t → u.answers a.f = true → u.quiet a.f = false → u.refusal a = none →
    u.inGap = true → a.write = true → a.bar = 0 → u.place a.f a.off = .reg l → rowWrite t a.f l a.val s = none →
    exec (.registerWrite t a) s = .next (u.bump CU_GAPWR_COUNT 0))
  ∧ (∀ (s u : State) (t : Nat) (a : Access) (l : Loc) (bit : Nat), u = s.tick t → u.answers a.f = true → u.quiet a.f = false → u.refusal a = none →
    u.inGap = true → a.write = true → a.bar = 0 → u.place a.f a.off = .alias_ l bit → exec (.registerWrite t a) s = .next (u.bump CU_GAPWR_COUNT 0))
  ∧ (∀ (s u : State) (t : Nat) (a : Access), u = s.tick t → u.answers a.f = true → u.quiet a.f = false → a.write = true → a.bar = 4 →
    exec (.registerWrite t a) s = .next (u.writeTable a))
  ∧ (∀ (s u : State) (t : Nat) (a : Access), u = s.tick t → a.write = true → a.bar = cfgSpace → exec (.registerWrite t a) s = .next (u.writeConfig a))
  ∧ (∀ (s u : State) (t : Nat) (a : Access) (k r : Nat), u = s.tick t → u.answers a.f = true → u.quiet a.f = false → u.refusal a = some r →
    u.tenantNo a.f = some k → a.write = true →
    exec (.refusedAccess t a) s = .next ((u.bump TEN_VIOL_COUNT k).event k 0x0001 a.bar (leBytes 8 a.off ++ [1, BitVec.ofNat 8 r])))
  ∧ (∀ (s u : State) (t : Nat) (a : Access) (k r : Nat), u = s.tick t → u.answers a.f = true → u.quiet a.f = false → u.refusal a = some r →
    u.tenantNo a.f = some k → a.write = false → a.bar ≠ 2 →
    exec (.refusedAccess t a) s = .next (((u.emit (.readDone a.f a.off (List.replicate a.dwords 0))).bump TEN_VIOL_COUNT k).event k 0x0001 a.bar
      (leBytes 8 a.off ++ [0, BitVec.ofNat 8 r])))
  ∧ (∀ (s u : State) (t : Nat) (a : Access), u = s.tick t → u.answers a.f = true → (u.quiet a.f = true ∨ a.bar = 2) → a.write = false →
    exec (.refusedAccess t a) s = .next (u.emit (.readDone a.f a.off (List.replicate a.dwords 0))))
  ∧ (∀ (s u : State) (t : Nat) (a : Access), u = s.tick t → u.answers a.f = true → u.quiet a.f = true → a.write = true →
    exec (.refusedAccess t a) s = .next u)
  ∧ (∀ (s u : State) (t : Nat) (a : Access) (found : List Found), u = s.tick t → u.serves a = true → a.write = false → a.bar = 0 →
    exec (.wideGroupRead t a found) s = .next ((u.readDwords a.f found a.off a.dwords).1.emit (.readDone a.f a.off
      (u.readDwords a.f found a.off a.dwords).2)))
  ∧ (∀ (s u : State) (t : Nat) (a : Access) (l : Loc) (n : Nat), u = s.tick t → u.serves a = true → a.write = false → a.bar = 0 → a.dwords = 1 →
    u.place a.f a.off = .reg l → l.staged = false → wideGroupOf l = some (l.off, n) → l.blk ≠ .pq → l.blk ≠ .fc → l.blk ≠ .db →
    exec (.wideGroupRead t a []) s = .next ((u.latch a.f l n).emit (.readDone a.f a.off [u.slotAt l])))
  ∧ (∀ (s u : State) (t : Nat) (a : Access) (found : List Found), u = s.tick t → u.answers a.f = true → u.quiet a.f = false → u.refusal a = none →
    u.inGap = true → gapReads (u.place a.f a.off) = false → a.write = false → a.bar = 0 →
    exec (.wideGroupRead t a found) s = .next (u.emit (.readDone a.f a.off (List.replicate a.dwords 0xFFFFFFFF))))
  ∧ (∀ (s u : State) (t : Nat) (a : Access) (found : List Found), u = s.tick t → a.write = false → a.bar = 4 → u.answers a.f = true →
    u.quiet a.f = false →
    exec (.wideGroupRead t a found) s = .next (u.emit (.readDone a.f a.off ((List.range a.dwords).map fun d => u.msixWord a.f (a.off + 4 * d)))))
  ∧ (∀ (s u : State) (t : Nat) (a : Access) (found : List Found), u = s.tick t → a.write = false → a.bar = cfgSpace → u.configAnswers a.f = true →
    exec (.wideGroupRead t a found) s = .next (u.emit (.readDone a.f a.off [u.configWord a.f (a.off / 4 * 4)])))

/-- The scrubber, the repair of an RWI field, boundaries and DISCARD. A scrub visit of a copy that no host has written at that instant: a majority
becomes the field's value, ends a lost majority and, where a copy is damaged, raises source 186 with the register's offset in DWORDs; where it is
not, nothing is raised; without a majority the copies are kept as found, the vote's output stays and source 187 is raised with that offset, unless
the field is lost already; a visit of a copy written at that instant changes nothing. The configuration unit restores an RWI field that has lost its
majority to the active image's value. A boundary of a ring or pair link port with PEND 1 makes every staged field of the port active, clears PEND
and advances APPLY_SEQ; one of a field-bus port, serial port or discrete bank is that block's boundary; each ends the cause of source 187 where
every vote has a majority again. DISCARD sets every staged field of the instance to its active value and clears PEND. -/
def Obligations.VotesAndBoundaries : Prop :=
  (∀ (s u : State) (t : Nat) (blk inst off lo j v : Nat) (staged : Bool) (f : Fld) (x : Copies), u = s.tick t →
    triplicated blk off lo = some (f, j) → u.justWritten (f.key inst j) (staged && f.acc == .rwb) = false → copiesMajority x = some v →
    copiesDamaged x = true →
    exec (.scrubVisit t blk inst off lo staged x) s = .next (((u.voteOut f inst j (staged && f.acc == .rwb) (v % 2 ^ f.w)).voteSettled).faultAssert 186
      (barOffset blk inst off / 4)))
  ∧ (∀ (s u : State) (t : Nat) (blk inst off lo j v : Nat) (staged : Bool) (f : Fld) (x : Copies), u = s.tick t →
    triplicated blk off lo = some (f, j) → u.justWritten (f.key inst j) (staged && f.acc == .rwb) = false → copiesMajority x = some v →
    copiesDamaged x = false →
    exec (.scrubVisit t blk inst off lo staged x) s = .next (u.voteOut f inst j (staged && f.acc == .rwb) (v % 2 ^ f.w)).voteSettled)
  ∧ (∀ (s u : State) (t : Nat) (blk inst off lo j k : Nat) (staged z : Bool) (f : Fld) (x : Copies) (w : State), u = s.tick t →
    triplicated blk off lo = some (f, j) → z = (staged && f.acc == .rwb) → k = f.key inst j → u.justWritten k z = false → copiesMajority x = none →
    u.isLost k z = false → w = u.setTriple k z ⟨x, u.votedVal f inst j z⟩ →
    exec (.scrubVisit t blk inst off lo staged x) s = .next ((if z then { w with noMajStaged := w.noMajStaged ++ [k] }
      else { w with noMaj := w.noMaj ++ [k] }).faultAssert 187 (barOffset blk inst off / 4)))
  ∧ (∀ (s u : State) (t : Nat) (blk inst off lo j : Nat) (staged z : Bool) (f : Fld) (x : Copies), u = s.tick t →
    triplicated blk off lo = some (f, j) → z = (staged && f.acc == .rwb) → u.justWritten (f.key inst j) z = false → copiesMajority x = none →
    u.isLost (f.key inst j) z = true →
    exec (.scrubVisit t blk inst off lo staged x) s = .next (u.setTriple (f.key inst j) z ⟨x, u.votedVal f inst j z⟩))
  ∧ (∀ (s u : State) (t : Nat) (blk inst off lo j : Nat) (staged : Bool) (f : Fld) (x : Copies), u = s.tick t →
    triplicated blk off lo = some (f, j) → u.justWritten (f.key inst j) (staged && f.acc == .rwb) = true →
    exec (.scrubVisit t blk inst off lo staged x) s = .next u)
  ∧ (∀ (s u : State) (t : Nat) (blk inst off lo j : Nat) (f : Fld), u = s.tick t → triplicated blk off lo = some (f, j) → f.acc = .rwi →
    u.noMaj.contains (f.key inst j) = true →
    exec (.rwiRestore t blk inst off lo) s = .next (((if f.ofImage then u else u.wrA f inst j (u.img.val f inst j)).rewritten (f.key inst j)
      false).voteSettled))
  ∧ (∀ (s u : State) (t : Nat) (n : Nat) (w : State), u = s.tick t → n < 4 → u.flag PG_STAT_PEND (pgInst (.rl n)) = true →
    w = ((rwbFields .rl).foldl (fun (w : State) fj => w.applyField fj.1 n fj.2) u) →
    exec (.boundary t (.rl n)) s = .next (((w.put PG_STAT_PEND (pgInst (.rl n)) false).wr PG_STAT_APPLY_SEQ (pgInst (.rl n))
      (w.rd PG_STAT_APPLY_SEQ (pgInst (.rl n)) + 1)).voteSettled))
  ∧ (∀ (s u : State) (t : Nat) (n : Nat) (w : State), u = s.tick t → n < 2 → u.flag PG_STAT_PEND (pgInst (.pl n)) = true →
    w = ((rwbFields .pl).foldl (fun (w : State) fj => w.applyField fj.1 n fj.2) u) →
    exec (.boundary t (.pl n)) s = .next (((w.put PG_STAT_PEND (pgInst (.pl n)) false).wr PG_STAT_APPLY_SEQ (pgInst (.pl n))
      (w.rd PG_STAT_APPLY_SEQ (pgInst (.pl n)) + 1)).voteSettled))
  ∧ (∀ (s u : State) (t : Nat) (p : Nat), u = s.tick t → p < 64 → exec (.boundary t (.fb p)) s = .next (u.fbBoundary p).voteSettled)
  ∧ (∀ (s u : State) (t : Nat) (n : Nat), u = s.tick t → n < 24 → exec (.boundary t (.sp n)) s = .next (u.spBoundary n).voteSettled)
  ∧ (∀ (s u : State) (t : Nat) (b : Nat), u = s.tick t → b < 12 → exec (.boundary t (.db b)) s = .next (u.applyBank b).voteSettled)
  ∧ (∀ (s u : State) (t : Nat) (f : Func) (i : Inst), u = s.tick t → u.takesWrite f (pgCtlOff i) = true →
    exec (.discard t f i) s = .next (u.discardStaged i).voteSettled)

/-- Function resets and the events that take or give a tenant its link. FLR of a VF resets its tenant, if it has one, leaves the function as enabled as
it was and in reset from that instant, and judges the queue heads again; FLR of a PF first removes every VF of the link. VF_ENABLE_CLEARED resets
the enabled VFs above the given number one by one, each no longer enabled, and lowers NumVFs to it. Clearing Bus Master Enable and entering D3hot
change that function's bit alone and judge the queue heads again. A Hot Reset of link 0 or 1 resets every function of the link and ends its
outstanding reads and L1. The completion of a function reset ends its resetting and changes nothing else. COMPLETIONS_RESUME on a configured link
enables the function and its bus mastering in D0, and where its tenant is active then posts the completions held for it in order before what waits
on the link. -/
def Obligations.ResetsOfFunctions : Prop :=
  (∀ (s u : State) (t : Nat) (f : Func) (k : Nat) (w : State), u = s.tick t → f.fn ≠ 0 → u.tenantNo f = some k → w = u.resetTenant f →
    exec (.flr t f) s = .next (w.setFunc f fun x => { enabled := x.enabled && true, resetting := true, resetAt := w.now }).refreshHeads)
  ∧ (∀ (s u : State) (t : Nat) (f : Func), u = s.tick t → f.fn ≠ 0 → u.tenantNo f = none →
    exec (.flr t f) s = .next (u.setFunc f fun x => { enabled := x.enabled && true, resetting := true, resetAt := u.now }).refreshHeads)
  ∧ (∀ (s u : State) (t : Nat) (f : Func), u = s.tick t → f.fn = 0 → exec (.flr t f) s = .next ((u.removeVfs f.link 0).resetFunc f true))
  ∧ (∀ (s u : State) (t : Nat) (link n : Nat), u = s.tick t →
    exec (.vfEnableCleared t link n) s = .next (((u.vfsAbove link n).foldl (fun (w : State) g => w.resetFunc g false) u).setLink link
      fun l => { l with numVfs := min l.numVfs n }))
  ∧ (∀ (s u : State) (t : Nat) (f : Func), u = s.tick t →
    ∃ v : State, exec (.busMasterEnableCleared t f) s = .next v.refreshHeads ∧ v.func f = { u.func f with busMaster := false } ∧
      (∀ g, fkey g ≠ fkey f → v.func g = u.func g) ∧ v = { u with host := { u.host with fns := v.host.fns } })
  ∧ (∀ (s u : State) (t : Nat) (link : Nat), u = s.tick t →
    ∃ v : State, exec (.d3hotEntered t link) s = .next v.refreshHeads ∧ v.func ⟨link, 0⟩ = { u.func ⟨link, 0⟩ with d3hot := true } ∧
      (∀ g, fkey g ≠ fkey ⟨link, 0⟩ → v.func g = u.func g) ∧ v = { u with host := { u.host with fns := v.host.fns } })
  ∧ (∀ (s u : State) (t : Nat) (link : Nat), u = s.tick t → link ≤ 1 →
    exec (.hotReset t link) s = .next ((u.resetLink link).setLink link fun l => { l with reads := [], credit := none, l1 := false, exiting := false }))
  ∧ (∀ (s u : State) (t : Nat) (f : Func), u = s.tick t →
    ∃ v, exec (.functionResetComplete t f) s = .next v ∧ v.func f = { u.func f with resetting := false } ∧
      (∀ g, fkey g ≠ fkey f → v.func g = u.func g) ∧ v = { u with host := { u.host with fns := v.host.fns } })
  ∧ (∀ (s u : State) (t : Nat) (f : Func) (k : Nat) (w x : State), u = s.tick t → (u.link f.link).cfg = true →
    w = ((u.setFunc f (fun g => { g with enabled := true, busMaster := true, d3hot := false })).setLink f.link fun l => { l with numVfs := max l.numVfs f.fn }) →
    w.active (w.tn f) f.link = true → w.tenantNo f = some k →
    x = ({ w with host := { w.host with heldComps := w.host.heldComps.filter fun y => !w.partRing f y.cq } }) →
    exec (.completionsResume t f) s = .next (((((w.host.heldComps.filter fun y => w.partRing f y.cq).foldl
      (fun (y : State) z => y.post f.link (.cq z)) x).drainLink f.link).refreshHeads).judgeWhere (· == f)))

/-- ARM, DISARM, the end of draining and doorbells. An ARM of an IDLE ring whose checks pass arms the descriptor ring with both indices, NOTIFY and
STALE 0, its work and reads empty, and ERRCODE 0; one that fails a check leaves the ring IDLE, shows the code in ERRCODE and raises RING_ARM_FAIL;
an ARM of a ring that is not IDLE shows 6, ARM with DISARM 9. A DISARM with the ring ARMED or in ERROR, of a CQ only where no SQ is bound to it or
it is not ARMED, gives ERRCODE 0: an SQ's work is disarmed and it is IDLE, or stays DRAINING where RC_OUTST was not 0; an RQ is IDLE and the records
for it are dropped; a CQ is IDLE and its waiting completions are dropped; an EQ is IDLE. A bound armed CQ gives 5 with RING_ARM_FAIL, an IDLE or
DRAINING ring 6, DISARM with ARM 9. A DRAINING ring with nothing in flight becomes IDLE with CAUSE and STALE 0 and nothing else changes. A doorbell
with the DMA domain on, of a served function: a valid one of an armed ring counts in HP_DB_CNT and, outside a gap, moves an SQ's tail and ends its
STALE, or moves the head of a CQ, RQ or EQ, arms notification where it says so and lets in what waited; in a gap it is latched; an invalid one
counts in RC_BADDB, raises DOORBELL_INVALID and moves nothing; one of a ring in ERROR or DRAINING counts in RC_BADDB, one of an IDLE ring or on the
link that is not the ring's home in TEN_VIOL. -/
def Obligations.RingCommands : Prop :=
  (∀ (s u : State) (t : Nat) (k r : Nat) (f : Func), u = s.tick t → k < 256 → u.takesWrite f (rcOff k 0x10) = true → r = u.tn f * 256 + k →
    u.rd RC_STAT_STATE r = rcIdle → u.armCheck r = 0 →
    exec (.arm t f k false) s = .next ((((((((u.setProd r 0).setCons r 0).put RC_STAT_NOTIFY r false).put RC_STAT_STALE r false).setRing r
      fun g => { g with fetchPos := 0, reads := [], work := [], dropTold := false, latched := none }).wr RC_STAT_STATE r rcArmed).wr
      RC_STAT_ERRCODE r 0).tellFallback))
  ∧ (∀ (s u : State) (t : Nat) (k r : Nat) (f : Func), u = s.tick t → k < 256 → u.takesWrite f (rcOff k 0x10) = true → r = u.tn f * 256 + k →
    u.rd RC_STAT_STATE r = rcIdle → u.armCheck r ≠ 0 →
    exec (.arm t f k false) s = .next (((u.wr RC_STAT_ERRCODE r (u.armCheck r)).event (r / 256) 0x0003 (r % 256)
      [BitVec.ofNat 8 (u.armCheck r)]).tellFallback))
  ∧ (∀ (s u : State) (t : Nat) (k r : Nat) (f : Func) (both : Bool), u = s.tick t → k < 256 → u.takesWrite f (rcOff k 0x10) = true →
    r = u.tn f * 256 + k → u.rd RC_STAT_STATE r ≠ rcIdle →
    exec (.arm t f k both) s = .next (u.wr RC_STAT_ERRCODE r (if both then 9 else 6)).tellFallback)
  ∧ (∀ (s u : State) (t : Nat) (k r : Nat) (f : Func) (w : State), u = s.tick t → k < 256 → u.takesWrite f (rcOff k 0x10) = true →
    r = u.tn f * 256 + k → (u.rd RC_STAT_STATE r = rcArmed ∨ u.rd RC_STAT_STATE r = rcError) → u.rd RC_CTL_TYPE r = 0 →
    w = ((u.wr RC_STAT_ERRCODE r 0).wr RC_STAT_STATE r rcDraining).disarmWork r →
    exec (.disarm t f k false) s = .next (if u.rd RC_OUTST_COUNT r = 0 then w.idleRing r else w))
  ∧ (∀ (s u : State) (t : Nat) (k r : Nat) (f : Func) (w : State), u = s.tick t → k < 256 → u.takesWrite f (rcOff k 0x10) = true →
    r = u.tn f * 256 + k → (u.rd RC_STAT_STATE r = rcArmed ∨ u.rd RC_STAT_STATE r = rcError) →
    (u.rd RC_CTL_TYPE r = 1 ∨ u.rd RC_CTL_TYPE r = 2 ∨ u.rd RC_CTL_TYPE r = 3) →
    (u.rd RC_CTL_TYPE r = 1 → u.rd RC_STAT_STATE r = rcArmed → u.cqBound r = false) → w = (u.wr RC_STAT_ERRCODE r 0).idleRing r →
    exec (.disarm t f k false) s = .next (if u.rd RC_CTL_TYPE r = 2 then w.purge (fun d => d.ring == r) 5
      else if u.rd RC_CTL_TYPE r = 1 then w.dropComps r else w))
  ∧ (∀ (s u : State) (t : Nat) (k r : Nat) (f : Func), u = s.tick t → k < 256 → u.takesWrite f (rcOff k 0x10) = true → r = u.tn f * 256 + k →
    u.rd RC_STAT_STATE r = rcArmed → u.rd RC_CTL_TYPE r = 1 → u.cqBound r = true →
    exec (.disarm t f k false) s = .next ((u.wr RC_STAT_ERRCODE r 5).event (r / 256) 0x0003 (r % 256) [5]))
  ∧ (∀ (s u : State) (t : Nat) (k r : Nat) (f : Func) (both : Bool), u = s.tick t → k < 256 → u.takesWrite f (rcOff k 0x10) = true →
    r = u.tn f * 256 + k → (both = true ∨ u.rd RC_STAT_STATE r = rcIdle ∨ u.rd RC_STAT_STATE r = rcDraining) →
    exec (.disarm t f k both) s = .next (u.wr RC_STAT_ERRCODE r (if both then 9 else 6)))
  ∧ (∀ (s u : State) (t : Nat) (r : Nat), u = s.tick t → u.rd RC_STAT_STATE r = rcDraining → u.rd RC_OUTST_COUNT r = 0 →
    ∃ v, exec (.ringDrainEnd t r) s = .next v ∧ v.rd RC_STAT_STATE r = rcIdle ∧ v.rd RC_STAT_CAUSE r = 0 ∧ v.rd RC_STAT_STALE r = 0 ∧
      v = { u with regs := v.regs } ∧ u.regsBut v [RC_STAT_STATE.key r 0, RC_STAT_CAUSE.key r 0, RC_STAT_STALE.key r 0])
  ∧ (∀ (s u : State) (t : Nat) (k r v : Nat) (f : Func), u = s.tick t → k < 256 → u.answers f = true → u.quiet f = false →
    u.domOn (134 + f.link) = true → r = u.tn f * 256 + k → u.homeOf r = f.link → u.rd RC_STAT_STATE r = rcArmed → u.dbValid r v = true →
    (u.bump HP_DB_CNT_COUNT f.link).inGap = false → exec (.doorbell t f k v) s = .next ((u.bump HP_DB_CNT_COUNT f.link).dbApply r v))
  ∧ (∀ (s u : State) (t : Nat) (k r v : Nat) (f : Func), u = s.tick t → k < 256 → u.answers f = true → u.quiet f = false →
    u.domOn (134 + f.link) = true → r = u.tn f * 256 + k → u.homeOf r = f.link → u.rd RC_STAT_STATE r = rcArmed → u.dbValid r v = true →
    (u.bump HP_DB_CNT_COUNT f.link).inGap = true →
    exec (.doorbell t f k v) s = .next ((u.bump HP_DB_CNT_COUNT f.link).setRing r fun g => { g with latched := some v }))
  ∧ (∀ (s u : State) (t : Nat) (k r v : Nat) (f : Func), u = s.tick t → k < 256 → u.answers f = true → u.quiet f = false →
    u.domOn (134 + f.link) = true → r = u.tn f * 256 + k → u.homeOf r = f.link → u.rd RC_STAT_STATE r = rcArmed → u.dbValid r v = false →
    exec (.doorbell t f k v) s = .next ((u.bump RC_BADDB_COUNT r).event (r / 256) 0x0002 (r % 256) (leBytes 4 (v % 2 ^ 24)
      ++ leBytes 3 (u.rd RC_PROD_WRAP r * 65536 + u.rd RC_PROD_INDEX r) ++ leBytes 3 (u.rd RC_CONS_WRAP r * 65536 + u.rd RC_CONS_INDEX r))))
  ∧ (∀ (s u : State) (t : Nat) (k r v : Nat) (f : Func), u = s.tick t → k < 256 → u.answers f = true → u.quiet f = false →
    u.domOn (134 + f.link) = true → r = u.tn f * 256 + k → u.homeOf r = f.link → u.rd RC_STAT_STATE r ≠ rcArmed → u.rd RC_STAT_STATE r ≠ rcIdle →
    exec (.doorbell t f k v) s = .next (u.bump RC_BADDB_COUNT r))
  ∧ (∀ (s u : State) (t : Nat) (k r v : Nat) (f : Func), u = s.tick t → k < 256 → u.answers f = true → u.quiet f = false →
    u.domOn (134 + f.link) = true → r = u.tn f * 256 + k → (u.homeOf r ≠ f.link ∨ u.rd RC_STAT_STATE r = rcIdle) →
    exec (.doorbell t f k v) s = .next (u.bump TEN_VIOL_COUNT (u.tn f)))

/-- Descriptor fetch, read completions and timeouts. With the DMA domain on and outside a gap, FETCH_REQUEST first lets the waiting payload reads and a
pull's read leave, then takes credits for as many descriptors as one read may bring, moves the fetch position on by as many and issues the read for
the rotation's next SQ with fetchable work, if there is one and a tag is free. A completion of a live descriptor read with data is handed to the SQ
pipeline in order; one with an error counts in HP_RDERR, discards what lies behind it and puts an armed SQ in ERROR with its cause, in
RING_FETCH_ERROR too; one that is discarded counts its error alone. A completion of a live payload read with data puts the bytes at the descriptor
that waits for them, one with an error counts and fails it. A read that has waited the lower limit of the Completion Timeout range ends as an error
of cause 3. -/
def Obligations.FetchAndReads : Prop :=
  (∀ (s u : State) (t : Nat) (link r tag p n q : Nat) (v w x : State), u = s.tick t → u.inGap = false → u.domOn (134 + link) = true →
    v = (((u.sqs.filter fun r => u.homeOf r == link).foldl (fun (v : State) r => v.pushPayload r) u).pushPull) → v.nextSq link = some r →
    (v.link link).freeTag = some tag → n = v.fetchLen link r → n ≠ 0 → p = (v.ring r).fetchPos → q = v.cqOf r →
    w = v.wr RC_OUTST_COUNT q (v.rd RC_OUTST_COUNT q + n) →
    x = ((w.setRing r fun g => { g with fetchPos := (p + n) % (2 * w.ringN r), reads := g.reads ++ [{ tag := tag, start := p, n := n }] }).setLink link
      (fun l => { l with rot := r })) →
    exec (.fetchRequest t link) s = .next (x.issueRead link (r / 256) tag (x.entryAddr r p) (n * 32) (.desc r p n)))
  ∧ (∀ (s u : State) (t : Nat) (link : Nat) (v : State), u = s.tick t → u.inGap = false → u.domOn (134 + link) = true →
    v = (((u.sqs.filter fun r => u.homeOf r == link).foldl (fun (v : State) r => v.pushPayload r) u).pushPull) →
    (v.nextSq link = none ∨ (v.link link).freeTag = none) → exec (.fetchRequest t link) s = .next v)
  ∧ (∀ (s u : State) (t : Nat) (link tag tg r start n at_ : Nat) (bytes : List Byte) (w : State), u = s.tick t →
    u.readOf link tag = some ⟨tg, .desc r start n, at_, false⟩ →
    w = ((u.endRead link tag).setRing r (fun g => { g with reads := g.reads.map fun x =>
      if x.tag = tag ∧ x.start = start then { x with data := some (splitDescs n bytes) } else x })) →
    exec (.fetchCompletion t link tag (.ok bytes)) s = .next (((w.absorb r (w.ring r).reads.length).moveHead r).pushPayload r))
  ∧ (∀ (s u : State) (t : Nat) (link tag tg r start n at_ cause : Nat) (w x : State), u = s.tick t →
    u.readOf link tag = some ⟨tg, .desc r start n, at_, false⟩ → w = ((u.endRead link tag).bump HP_RDERR_COUNT link).cutReads r start →
    w.rd RC_STAT_STATE r = rcArmed → x = (w.wr RC_STAT_STATE r rcError).wr RC_STAT_CAUSE r cause →
    exec (.fetchCompletion t link tag (.err cause)) s = .next ((x.event (r / 256) 0x0004 (r % 256)
      (BitVec.ofNat 8 cause :: leBytes 2 (start % x.ringN r))).moveHead r))
  ∧ (∀ (s u : State) (t : Nat) (link tag tg r start n at_ cause : Nat) (w : State), u = s.tick t →
    u.readOf link tag = some ⟨tg, .desc r start n, at_, false⟩ → w = ((u.endRead link tag).bump HP_RDERR_COUNT link).cutReads r start →
    w.rd RC_STAT_STATE r ≠ rcArmed → exec (.fetchCompletion t link tag (.err cause)) s = .next (w.moveHead r))
  ∧ (∀ (s u : State) (t : Nat) (link tag tg r start n at_ : Nat) (res : ReadResult), u = s.tick t →
    u.readOf link tag = some ⟨tg, .desc r start n, at_, true⟩ → exec (.fetchCompletion t link tag res) s = .next (match res with
      | .err _ => (u.endRead link tag).bump HP_RDERR_COUNT link
      | .ok _ => u.endRead link tag))
  ∧ (∀ (s u : State) (t : Nat) (link tag tg r q at_ : Nat) (bytes : List Byte) (w : Work), u = s.tick t →
    u.readOf link tag = some ⟨tg, .payload r q, at_, false⟩ → (((u.endRead link tag).ring r).work.find? (fun x => x.seq == q) = some w) →
    exec (.payloadReadDone t link tag (.ok bytes)) s = .next (((u.endRead link tag).setPayload r q (.ready (padTo (descLen w.raw) bytes))).moveHead r))
  ∧ (∀ (s u : State) (t : Nat) (link tag tg r q at_ cause : Nat) (w : Work) (rest : List Work) (x : State), u = s.tick t →
    u.readOf link tag = some ⟨tg, .payload r q, at_, false⟩ →
    x = (((u.endRead link tag).bump HP_RDERR_COUNT link).setPayload r q .failed).moveHead r → (x.ring r).work = w :: rest → w.seq = q →
    x.inGap = false → exec (.payloadReadDone t link tag (.err cause)) s = .next (((x.popWork r).finishDesc r w 6 0).pushPayload r))
  ∧ (∀ (s u : State) (t : Nat) (link tag tg r q at_ : Nat) (res : ReadResult), u = s.tick t →
    u.readOf link tag = some ⟨tg, .payload r q, at_, true⟩ → exec (.payloadReadDone t link tag res) s = .next (match res with
      | .err _ => (u.endRead link tag).bump HP_RDERR_COUNT link
      | .ok _ => u.endRead link tag))
  ∧ (∀ (s u : State) (t : Nat) (link tag : Nat) (x : HostRead), u = s.tick t → u.readOf link tag = some x → x.at_ + (u.link link).ctoMin ≤ u.now →
    x.dead = false → exec (.completionTimeout t link tag) s = .next (match x.what with
      | .desc r start _ => (u.endRead link tag).fetchError link r start 3
      | .payload r q => (u.endRead link tag).payloadRead link r q (.err 3)
      | .pull => (u.endRead link tag).pullRead (.err 3)))
  ∧ (∀ (s u : State) (t : Nat) (link tag : Nat) (x : HostRead), u = s.tick t → u.readOf link tag = some x → x.at_ + (u.link link).ctoMin ≤ u.now →
    x.dead = true →
    exec (.completionTimeout t link tag) s = .next (if x.what = .pull then u.endRead link tag else (u.endRead link tag).bump HP_RDERR_COUNT link))

/-- Descriptors that name no opcode, NOP, FENCE and TX_FRAME. The first descriptor of an SQ outside a gap: one with an unknown opcode completes with the
status of its check, and one of the seven opcodes that fails a check completes with the status of that check, under the command of its opcode. Past
its checks and with its payload in hand, a NOP and a FENCE with no earlier descriptor of its SQ uncompleted complete OK, and a FENCE with one waits.
A TX_FRAME takes its bytes from the payload, or with PSRC 0b10 from the slot of a good HANDLE; a bad one completes BAD_HANDLE, counts in TEN_BADHDL
and raises its event. Without a lease it completes 0x40, at a port that refuses with the port's status, over its quota or where the queue is full
0x41, each counted in HP_REFUSE_CNT and shown in HP_LASTREF; else it is counted in HP_ADM_CNT, charged to LV_USED, joins its port's queue and is
mirrored, or completes 0x4D where the queue is resetting. After each the next payload read may leave. -/
def Obligations.Descriptors : Prop :=
  (∀ (s u : State) (t : Nat) (r st : Nat) (w : Work) (rest : List Work), u = s.tick t → u.inGap = false → (u.ring r).work = w :: rest →
    opKnown (descOp w.raw) = false → descStatus w.raw = some st →
    exec (.descOpcode t r) s = .next (((u.popWork r).finishDesc r w st 0).pushPayload r))
  ∧ (∀ (s u : State) (t : Nat) (r st : Nat) (w : Work) (rest : List Work) (c : Nat × Instr), u = s.tick t → u.inGap = false →
    (u.ring r).work = w :: rest → descStatus w.raw = some st → c.1 = descOp w.raw →
    c ∈ [(1, .txFrame t r), (2, .cancel t r), (3, .alloc t r), (4, .freeSlot t r), (5, .writeSlot t r), (6, .fence t r), (7, .nop t r)] →
    exec c.2 s = .next (((u.popWork r).finishDesc r w st 0).pushPayload r))
  ∧ (∀ (s u : State) (t : Nat) (r : Nat) (w : Work) (b : List Byte), u = s.tick t → u.firstDesc r 7 w b = true →
    exec (.nop t r) s = .next (((u.popWork r).finishDesc r w 0 0).pushPayload r))
  ∧ (∀ (s u : State) (t : Nat) (r : Nat) (w : Work) (b : List Byte), u = s.tick t → u.firstDesc r 6 w b = true → (u.ring r).behind = false →
    exec (.fence t r) s = .next (((u.popWork r).finishDesc r w 0 0).pushPayload r))
  ∧ (∀ (s u : State) (t : Nat) (r : Nat) (w : Work) (b : List Byte), u = s.tick t → u.firstDesc r 6 w b = true → (u.ring r).behind = true →
    exec (.fence t r) s = .next u)
  ∧ (∀ (s u : State) (t : Nat) (r p : Nat) (w : Work) (b d : List Byte) (f : Frame) (x y : State), u = s.tick t → u.firstDesc r 1 w b = true →
    x = u.popWork r → (descPsrc w.raw ≠ 2 ∨ x.handleReason (x.homeOf r) (r / 256) (descHandle w.raw) = 0) →
    d = (if descPsrc w.raw = 2 then padTo (descLen w.raw) (x.paySlot (x.homeOf r) (bitsOf (descHandle w.raw) 0 12)).data else b) →
    p = descField w.raw 2 1 → f = { descFrame w.raw with data := d } → x.txLease (r / 256) p f = none →
    y = (((x.bump HP_REFUSE_CNT_COUNT (x.homeOf r)).wr HP_LASTREF_STATUS (x.homeOf r) 0x40).wr HP_LASTREF_PORT (x.homeOf r) p).wr HP_LASTREF_TENANT (x.homeOf r) (r / 256) →
    exec (.txFrame t r) s = .next ((y.finishDesc r w 0x40 0).pushPayload r))
  ∧ (∀ (s u : State) (t : Nat) (r p l st : Nat) (w : Work) (b d : List Byte) (f : Frame) (x y : State), u = s.tick t → u.firstDesc r 1 w b = true →
    x = u.popWork r → (descPsrc w.raw ≠ 2 ∨ x.handleReason (x.homeOf r) (r / 256) (descHandle w.raw) = 0) →
    d = (if descPsrc w.raw = 2 then padTo (descLen w.raw) (x.paySlot (x.homeOf r) (bitsOf (descHandle w.raw) 0 12)).data else b) →
    p = descField w.raw 2 1 → f = { descFrame w.raw with data := d } → x.txLease (r / 256) p f = some l → x.refuses p = some st →
    y = (((x.bump HP_REFUSE_CNT_COUNT (x.homeOf r)).wr HP_LASTREF_STATUS (x.homeOf r) st).wr HP_LASTREF_PORT (x.homeOf r) p).wr HP_LASTREF_TENANT (x.homeOf r) (r / 256) →
    exec (.txFrame t r) s = .next ((y.finishDesc r w st 0).pushPayload r))
  ∧ (∀ (s u : State) (t : Nat) (r p l : Nat) (w : Work) (b d : List Byte) (f : Frame) (x y : State), u = s.tick t → u.firstDesc r 1 w b = true →
    x = u.popWork r → (descPsrc w.raw ≠ 2 ∨ x.handleReason (x.homeOf r) (r / 256) (descHandle w.raw) = 0) →
    d = (if descPsrc w.raw = 2 then padTo (descLen w.raw) (x.paySlot (x.homeOf r) (bitsOf (descHandle w.raw) 0 12)).data else b) →
    p = descField w.raw 2 1 → f = { descFrame w.raw with data := d } → x.txLease (r / 256) p f = some l → x.refuses p = none →
    (((x.img.leases[l]?).map (·.quota)).getD 0 ≤ (x.lrt l).used ∨ x.queueFull p = true) →
    y = (((x.bump HP_REFUSE_CNT_COUNT (x.homeOf r)).wr HP_LASTREF_STATUS (x.homeOf r) 0x41).wr HP_LASTREF_PORT (x.homeOf r) p).wr HP_LASTREF_TENANT (x.homeOf r) (r / 256) →
    exec (.txFrame t r) s = .next ((y.finishDesc r w 0x41 0).pushPayload r))
  ∧ (∀ (s u : State) (t : Nat) (r p l : Nat) (w : Work) (b d : List Byte) (f : Frame) (x y : State), u = s.tick t → u.firstDesc r 1 w b = true →
    x = u.popWork r → (descPsrc w.raw ≠ 2 ∨ x.handleReason (x.homeOf r) (r / 256) (descHandle w.raw) = 0) →
    d = (if descPsrc w.raw = 2 then padTo (descLen w.raw) (x.paySlot (x.homeOf r) (bitsOf (descHandle w.raw) 0 12)).data else b) →
    p = descField w.raw 2 1 → f = { descFrame w.raw with data := d } → x.txLease (r / 256) p f = some l → x.refuses p = none →
    (x.lrt l).used < ((x.img.leases[l]?).map (·.quota)).getD 0 → x.queueFull p = false →
    y = ((x.bump HP_ADM_CNT_COUNT (x.homeOf r)).checkPtrs p).settleFaults → y.flag PQ_STAT_RESETTING p = false →
    exec (.txFrame t r) s = .next (((((y.setLrt l fun g => { g with used := g.used + 1 }).addEntry p (y.txEntry r w l f)).mirror
      (.entryAdd p (y.txEntry r w l f).key (y.queue p).freeSeq (y.txEntry r w l f).cost (r / 256) l (r % 256) (y.txEntry r w l f).pos
      (y.txEntry r w l f).tag (y.txEntry r w l f).nocomp f)).noteLease l).pushPayload r))
  ∧ (∀ (s u : State) (t : Nat) (r p l : Nat) (w : Work) (b d : List Byte) (f : Frame) (x y : State), u = s.tick t → u.firstDesc r 1 w b = true →
    x = u.popWork r → (descPsrc w.raw ≠ 2 ∨ x.handleReason (x.homeOf r) (r / 256) (descHandle w.raw) = 0) →
    d = (if descPsrc w.raw = 2 then padTo (descLen w.raw) (x.paySlot (x.homeOf r) (bitsOf (descHandle w.raw) 0 12)).data else b) →
    p = descField w.raw 2 1 → f = { descFrame w.raw with data := d } → x.txLease (r / 256) p f = some l → x.refuses p = none →
    (x.lrt l).used < ((x.img.leases[l]?).map (·.quota)).getD 0 → x.queueFull p = false →
    y = ((x.bump HP_ADM_CNT_COUNT (x.homeOf r)).checkPtrs p).settleFaults → y.flag PQ_STAT_RESETTING p = true →
    exec (.txFrame t r) s = .next ((y.finishDesc r w 0x4D 0).pushPayload r))
  ∧ (∀ (s u : State) (t : Nat) (r why : Nat) (w : Work) (b : List Byte) (x y : State), u = s.tick t → u.firstDesc r 1 w b = true →
    descPsrc w.raw = 2 → x = u.popWork r → why = x.handleReason (x.homeOf r) (r / 256) (descHandle w.raw) → why ≠ 0 →
    y = (x.bump TEN_BADHDL_COUNT (r / 256)).event (r / 256) 0x0005 (r % 256) (leBytes 3 (descHandle w.raw) ++ [1, BitVec.ofNat 8 why]) →
    exec (.txFrame t r) s = .next ((y.finishDesc r w 5 0).pushPayload r))

/-- ALLOC, FREE, WRITE_SLOT and CANCEL. The first descriptor of an SQ, past its checks, with its payload in hand and outside a gap. An ALLOC takes the
free slot that the free choice picks while the tenant holds fewer than its TEN_TXPOOL, advances the slot's USE, fills it and returns its HANDLE;
where no slot is free or the tenant holds its number it completes NO_SLOT. FREE with a good HANDLE returns the slot and keeps its USE, WRITE_SLOT
overwrites the slot's first bytes, and both complete OK; with a bad one each completes BAD_HANDLE, counts in TEN_BADHDL and raises its event with
the opcode and the reason. A CANCEL withdraws the tenant's named queued frames of the port, each with 0x48 and counted, marks those in flight that
no cancel has marked, and completes OK with the number withdrawn. After each the next payload read may leave. -/
def Obligations.SlotsAndCancels : Prop :=
  (∀ (s u : State) (t : Nat) (r n link use : Nat) (w : Work) (b : List Byte) (x : State), u = s.tick t → u.firstDesc r 3 w b = true →
    x = (u.popWork r).draw → link = (u.popWork r).homeOf r → x.pickSlot link = some n →
    x.slotsHeld link (r / 256) < x.rd TEN_TXPOOL_POOL (r / 256) → use = ((x.paySlot link n).use + 1) % 256 →
    exec (.alloc t r) s = .next (((x.setPaySlot link n fun _ => ⟨use, some (r / 256), padTo 64 b⟩).finishDesc r w 0
      (use * 2 ^ 13 + link * 2 ^ 12 + n)).pushPayload r))
  ∧ (∀ (s u : State) (t : Nat) (r : Nat) (w : Work) (b : List Byte) (x : State), u = s.tick t → u.firstDesc r 3 w b = true →
    x = (u.popWork r).draw →
    (x.pickSlot ((u.popWork r).homeOf r) = none ∨ x.rd TEN_TXPOOL_POOL (r / 256) ≤ x.slotsHeld ((u.popWork r).homeOf r) (r / 256)) →
    exec (.alloc t r) s = .next ((x.finishDesc r w 4 0).pushPayload r))
  ∧ (∀ (s u : State) (t : Nat) (r : Nat) (w : Work) (b : List Byte) (x : State), u = s.tick t → u.firstDesc r 4 w b = true → x = u.popWork r →
    x.handleReason (x.homeOf r) (r / 256) (descHandle w.raw) = 0 →
    exec (.freeSlot t r) s = .next (((x.setPaySlot (x.homeOf r) (bitsOf (descHandle w.raw) 0 12) fun y => { y with owner := none, data := [] }).finishDesc
      r w 0 0).pushPayload r))
  ∧ (∀ (s u : State) (t : Nat) (r : Nat) (w : Work) (b : List Byte) (x : State), u = s.tick t → u.firstDesc r 5 w b = true → x = u.popWork r →
    x.handleReason (x.homeOf r) (r / 256) (descHandle w.raw) = 0 →
    exec (.writeSlot t r) s = .next (((x.setPaySlot (x.homeOf r) (bitsOf (descHandle w.raw) 0 12)
      fun y => { y with data := padTo 64 (b ++ y.data.drop b.length) }).finishDesc r w 0 0).pushPayload r))
  ∧ (∀ (s u : State) (t : Nat) (r why : Nat) (w : Work) (b : List Byte) (x y : State) (c : Nat × Instr), u = s.tick t →
    c ∈ [(4, .freeSlot t r), (5, .writeSlot t r)] → u.firstDesc r c.1 w b = true → x = u.popWork r →
    why = x.handleReason (x.homeOf r) (r / 256) (descHandle w.raw) → why ≠ 0 →
    y = (x.bump TEN_BADHDL_COUNT (r / 256)).event (r / 256) 0x0005 (r % 256) (leBytes 3 (descHandle w.raw) ++ [BitVec.ofNat 8 c.1, BitVec.ofNat 8 why]) →
    exec c.2 s = .next ((y.finishDesc r w 5 0).pushPayload r))
  ∧ (∀ (s u : State) (t : Nat) (r p : Nat) (w : Work) (b : List Byte) (x y z : State) (hit : List QEntry), u = s.tick t →
    u.firstDesc r 2 w b = true → p = descField w.raw 2 1 → x = ((u.popWork r).checkPtrs p).settleFaults →
    hit = ((x.queue p).entries.filter fun e => x.named r w e) →
    y = ((hit.filter fun e => !e.inflight).foldl (fun (y : State) (e : QEntry) => (y.returnEntry p e 0x48).countCancel e) x) →
    z = ((hit.filter fun e => e.inflight && e.mark.isNone).foldl (fun (z : State) (e : QEntry) => z.setEntry p e fun e => { e with mark := some 0x48 }) y) →
    exec (.cancel t r) s = .next ((z.finishDesc r w 0 (hit.filter fun e => !e.inflight).length).pushPayload r))

/-- Frames on a field-bus port. At a port that integrates no more, a header of a format that the port permits begins a frame that the port did not
start, or belongs to the frame in progress that has none yet, and is taken; one of a format that it does not permit is a form error, in a frame of
another node. At EOF, the counters of the frame count, a sent frame reports SENT and is followed by suspend where the port is PASSIVE, a received
one goes to the units that look for their frames, and the frame is committed or, in a gap, held. A port that may start takes the presented head;
where the queue's pointers do not match the queue then resets, as it does with no head to take. A lost arbitration ends the port's transmission,
counts in FB_ARBLOST and reports LOST. With the DMA domain on, the oldest frame's records of a link are issued in order while the link can post, and
the frame leaves the engine with its last record. -/
def Obligations.BusTraffic : Prop :=
  (∀ (s u : State) (t : Nat) (p : Nat) (h : Header), u = s.tick t → restrictable (u.fstate p) = true → u.fstate p ≠ fbIntegrating →
    (u.port p).reint = false → (u.port p).cur = none → u.formatError p h = false →
    exec (.headerEvent t p h) s = .next ((u.setPort p fun x => { x with role := false }).takeHeader p h
      { own := none, bank := (u.port p).bank, cap := u.capWord p }))
  ∧ (∀ (s u : State) (t : Nat) (p : Nat) (h : Header) (c : CurFrame), u = s.tick t → restrictable (u.fstate p) = true →
    u.fstate p ≠ fbIntegrating → (u.port p).reint = false → (u.port p).cur = some c → c.hdr = none → (c.own ≠ none ∨ u.formatError p h = false) →
    exec (.headerEvent t p h) s = .next (u.takeHeader p h c))
  ∧ (∀ (s u : State) (t : Nat) (p : Nat) (h : Header), u = s.tick t → restrictable (u.fstate p) = true → u.fstate p ≠ fbIntegrating →
    (u.port p).reint = false → (u.port p).cur = none → u.formatError p h = true → exec (.headerEvent t p h) s = .next (u.formError p h).settleFaults)
  ∧ (∀ (s u : State) (t : Nat) (p : Nat) (data : List Byte) (c : CurFrame) (h : Header) (w y x : State), u = s.tick t → (u.port p).cur = some c →
    c.hdr = some h → c.own = none → w = (u.countFrame p false).frameGood p false → y = w.endCur p false →
    x = (y.setPort p fun q => { q with suspend := false }) → exec (.eofEvent t p data) s = .next ((x.foreignFrame p h data c).commitOrHold
      ⟨p, h, data, u.senderOf p c, c.ns, c.frac, c.epoch, c.bank, (w.port p).rxSeq, c.cap⟩ c.slot).settleFaults)
  ∧ (∀ (s u : State) (t : Nat) (p q : Nat) (data : List Byte) (c : CurFrame) (h : Header) (w y x : State), u = s.tick t → (u.port p).cur = some c →
    c.hdr = some h → c.own = some q → w = (u.countFrame p true).frameGood p true → y = w.endCur p false →
    x = (y.setPort p fun z => { z with suspend := y.fstate p == fbPassive }) →
    exec (.eofEvent t p data) s = .next ((x.reportOutcome p (.sent c.ns c.frac c.epoch c.ivl)).commitOrHold
      ⟨p, h, data, u.senderOf p c, c.ns, c.frac, c.epoch, c.bank, (w.port p).rxSeq, c.cap⟩ c.slot).settleFaults)
  ∧ (∀ (s u : State) (t : Nat) (p : Nat) (e : QEntry), u = s.tick t → u.mayStart p = true → u.presented p = some e →
    (u.queue p).ptrA = (u.queue p).ptrB → exec (.frameTake t p) s = .next (u.takeEntry p e))
  ∧ (∀ (s u : State) (t : Nat) (p : Nat) (e : QEntry), u = s.tick t → u.mayStart p = true → u.presented p = some e →
    (u.queue p).ptrA ≠ (u.queue p).ptrB → exec (.frameTake t p) s = .next ((u.takeEntry p e).queueReset p).settleFaults)
  ∧ (∀ (s u : State) (t : Nat) (p : Nat), u = s.tick t → u.mayStart p = true → u.presented p = none →
    exec (.frameTake t p) s = .next (u.checkPtrs p).settleFaults)
  ∧ (∀ (s u : State) (t : Nat) (p : Nat) (w : State), u = s.tick t → u.sending p = true →
    w = (u.setPort p fun x => { x with cur := x.cur.map (fun (c : CurFrame) => { c with own := none }), role := false }) →
    exec (.arbitrationLost t p) s = .next ((((w.put FB_STAT_TXING p false).put FB_STAT_RXING p true).bump FB_ARBLOST_COUNT p).reportOutcome p
      .lost).settleFaults)
  ∧ (∀ (s u : State) (t : Nat) (link : Nat) (f : DelFrame) (rest q : List DelFrame) (x : State × List Deliv), u = s.tick t →
    u.domOn (134 + link) = true → tget [] u.rx.deq link = f :: rest →
    x = (f.delivs.foldl (fun (a : State × List Deliv) (d : Deliv) => if a.2.isEmpty && a.1.canPost link then (a.1.issueRq d, []) else (a.1, a.2 ++ [d])) (u, [])) →
    q = (if x.2.isEmpty then rest else { f with delivs := x.2 } :: rest) →
    exec (.recordWrite t link) s = .next { x.1 with rx := { x.1.rx with deq := tset [] x.1.rx.deq link q } })

/-- Errors, overload frames and protocol exceptions. At a port that takes part in bus traffic: an error that the bit engine meets makes an error frame;
a dominant bit after a receiver's error flag counts and settles the error state, a bit error in a flag is recorded too, and a dominant run counts,
each of the two noting suspend transmission; in restricted operation an error of a receiver is recorded and its frame dropped, with nothing sent or
counted in TEC and REC. An overload frame, not in restricted operation and with no frame in progress, counts in FB_OVLD. With PEX and FDOE 1, a
recessive res bit of a frame that the port does not send ends the frame, sends the port to reintegration and counts in FB_PXE_CNT. For an FD frame
with bit-rate switch that the port sends and whose header has not ended, a loop delay beyond 63 tq shows 504 with VALID and SAT, counts in
FB_TDCSAT_CNT and sets FB_EVT bit 8. -/
def Obligations.BusErrors : Prop :=
  (∀ (s u : State) (t : Nat) (p : Nat) (e : BusError), u = s.tick t → u.running p = true → u.restricted p = false →
    u.errorFits p e.case_ = true → e.case_ ≠ .receiverDominant → e.case_ ≠ .dominantRun → e.case_ ≠ .flagBit →
    exec (.frameError t p e) s = .next (u.errorFrame p e).settleFaults)
  ∧ (∀ (s u : State) (t : Nat) (p : Nat) (e : BusError), u = s.tick t → u.running p = true → u.restricted p = false →
    u.errorFits p e.case_ = true → e.case_ = .receiverDominant →
    exec (.frameError t p e) s = .next ((u.countError p .receiverDominant).errState p).settleFaults)
  ∧ (∀ (s u : State) (t : Nat) (p : Nat) (e : BusError), u = s.tick t → u.running p = true → u.restricted p = false →
    u.errorFits p e.case_ = true → e.case_ = .dominantRun →
    exec (.frameError t p e) s = .next (((u.countError p .dominantRun).errState p).noteSuspend p).settleFaults)
  ∧ (∀ (s u : State) (t : Nat) (p : Nat) (e : BusError), u = s.tick t → u.running p = true → u.restricted p = false →
    u.errorFits p e.case_ = true → e.case_ = .flagBit →
    exec (.frameError t p e) s = .next ((((u.recordError p e).countError p .flagBit).errState p).noteSuspend p).settleFaults)
  ∧ (∀ (s u : State) (t : Nat) (p : Nat) (e : BusError), u = s.tick t → u.running p = true → u.restricted p = true → (u.port p).role = false →
    exec (.frameError t p e) s = .next (u.restrictedError p e).settleFaults)
  ∧ (∀ (s u : State) (t : Nat) (p : Nat) (c : OverloadCause), u = s.tick t → u.running p = true → u.restricted p = false → (u.port p).cur = none →
    exec (.overloadFrame t p c) s = .next (((((u.setPort p fun x => { x with tail := true }).bump FB_OVLD_COUNT p).put FB_STAT_RXING p true).put
      FB_STAT_IDLE p false).emit (.overloadFlag p)))
  ∧ (∀ (s u : State) (t : Nat) (p : Nat), u = s.tick t → u.running p = true → u.flag FB_CFG_FDOE p = true → u.flag FB_CFG_PEX p = true →
    u.sending p = false →
    exec (.protocolException t p) s = .next ((((((u.dropTransit p).endCur p true).setPort p fun x => { x with reint := true, role := false }).bump
      FB_PXE_CNT_COUNT p).fbEvt p 7).protoEvt p 1 0))
  ∧ (∀ (s u : State) (t : Nat) (p : Nat) (w : State), u = s.tick t → u.measures p = true → u.flag FB_CFG_TDCE p = true →
    w = (u.setPort p fun x => { x with cur := x.cur.map (fun (c : CurFrame) => { c with sat := true }) }) →
    exec (.tdcSat t p) s = .next ((((((w.put FB_TDC_VALID p true).put FB_TDC_SAT p true).wr FB_TDC_DELAY p 504).bump FB_TDCSAT_CNT_COUNT p).fbEvt
      p 8).protoEvt p 2 (504 % 256)))

/-- The state machine of a field-bus port. An INTEGRATING port with no mode change under way has integrated: it is ACTIVE, PASSIVE where its counters
say so, at a boundary, and submits a wake frame that is due. A port in BUS_OFF or RECOVERING with no mode change under way counts an occurrence in
OCC up to its ceiling and shows IDLE. With AR.EN 1 and HELD 0 in BUS_OFF, AUTO_CLEAR at K times 128 occurrences clears bus-off when the last hour
has room, and otherwise sets HELD, FB_EVT bit 5 and raises FB_BUSOFF_HELD. From 128 occurrences a RECOVERING port is ACTIVE again with TEC, REC, OCC
and BOMEM 0, at a boundary, with FB_EVT bit 4 and its event. A DRAINING port ends its draining when the frame has ended or at its limit; at a port
in another state that does not reintegrate the frame is over before its boundary. A served write of FB_CMD reports its result in FB_CMDRES and
advances CMD_SEQ: 7 at an absent port or one that an image has left out; the result of ENABLE, of DISABLE or of CLR_BO where that bit alone is set,
2 where none or several are. -/
def Obligations.PortStates : Prop :=
  (∀ (s u : State) (t : Nat) (p : Nat), u = s.tick t → u.fstate p = fbIntegrating → (u.port p).xcvrBy = none →
    ((((u.setFstate p fbActive).errState p).fbBoundary p).an p).wakeDue = false →
    exec (.integrationComplete t p) s = .next (((u.setFstate p fbActive).errState p).fbBoundary p))
  ∧ (∀ (s u : State) (t : Nat) (p : Nat) (w : State), u = s.tick t → u.fstate p = fbIntegrating → (u.port p).xcvrBy = none →
    w = ((u.setFstate p fbActive).errState p).fbBoundary p → (w.an p).wakeDue = true →
    exec (.integrationComplete t p) s = .next ((w.setAn p fun a => { a with wakeDue := false }).submitDev p .aniseWake (w.aniseFrame p 3)).1)
  ∧ (∀ (s u : State) (t : Nat) (p : Nat), u = s.tick t → (u.fstate p = fbBusOff ∨ u.fstate p = fbRecovering) → (u.port p).xcvrBy = none →
    exec (.occurrence t p) s = .next ((u.put FB_STAT_IDLE p true).wr FB_BOSUP_OCC p (min 32767 (u.rd FB_BOSUP_OCC p + 1))))
  ∧ (∀ (s u : State) (t : Nat) (p : Nat), u = s.tick t → u.fstate p = fbBusOff → u.flag FB_AR_EN p = true → u.flag FB_BOSUP_HELD p = false →
    u.rd FB_BOSUP_OCC p = u.rd FB_AR_K p * 128 → (u.recentClears p).length < u.rd FB_AR_LIMIT p →
    exec (.autoClear t p) s = .next (((u.setPort p fun x => { x with autoClears := u.recentClears p ++ [u.now] }).bump FB_AUTOCLR_CNT_COUNT
      p).clearBusOff p 1))
  ∧ (∀ (s u : State) (t : Nat) (p : Nat), u = s.tick t → u.fstate p = fbBusOff → u.flag FB_AR_EN p = true → u.flag FB_BOSUP_HELD p = false →
    u.rd FB_BOSUP_OCC p = u.rd FB_AR_K p * 128 → u.rd FB_AR_LIMIT p ≤ (u.recentClears p).length →
    exec (.autoClear t p) s = .next (((u.put FB_BOSUP_HELD p true).fbEvt p 5).event (u.fbOwner p) 0x0104 p
      (BitVec.ofNat 8 (u.rd FB_AR_LIMIT p) :: leBytes 2 (u.windowLeft p))))
  ∧ (∀ (s u : State) (t : Nat) (p : Nat) (w : State), u = s.tick t → u.fstate p = fbRecovering → 128 ≤ u.rd FB_BOSUP_OCC p →
    w = (((u.zeroErrors p).put FB_STAT_BOMEM p false).wr FB_BOSUP_OCC p 0).setFstate p fbActive →
    exec (.recovered t p) s = .next (((w.fbEvt p 4).event (w.fbOwner p) 0x0103 p
      (BitVec.ofNat 8 (w.port p).clearCause :: leBytes 2 (w.port p).occBefore)).fbBoundary p))
  ∧ (∀ (s u : State) (t : Nat) (p : Nat), u = s.tick t → u.fstate p = fbDraining → (u.port p).cur = none →
    exec (.drainEnd t p) s = .next (u.endDrain p).settleFaults)
  ∧ (∀ (s u : State) (t : Nat) (p : Nat), u = s.tick t → u.fstate p ≠ fbDraining → (u.port p).cur = none → (u.port p).tail = true →
    (u.port p).reint = false → exec (.drainEnd t p) s = .next ((u.setPort p fun x => { x with tail := false }).put FB_STAT_RXING p false))
  ∧ (∀ (s u : State) (t : Nat) (p : Nat), u = s.tick t → u.fstate p = fbDraining → (u.port p).drainAt ≤ u.now →
    exec (.drainLimit t p) s = .next (u.endDrain p).settleFaults)
  ∧ (∀ (s u : State) (t : Nat) (f : Func) (p bits : Nat) (c : Instr), u = s.tick t →
    c ∈ [.enable t f p bits, .disable t f p bits, .clrBo t f p bits] → u.takesWrite f (fbOff p 8) = true →
    (u.fstate p = fbAbsent ∨ (u.port p).leaving = true) →
    exec c s = .next (((u.wr FB_CMDRES_RESULT p 7).wr FB_CMDRES_CMD_SEQ p (u.rd FB_CMDRES_CMD_SEQ p + 1)).settlePort p).settleFaults)
  ∧ (∀ (s u : State) (t : Nat) (f : Func) (p bits code : Nat) (w : State) (c : Instr), u = s.tick t →
    c ∈ [.enable t f p bits, .disable t f p bits, .clrBo t f p bits] → u.takesWrite f (fbOff p 8) = true → u.fstate p ≠ fbAbsent →
    (u.port p).leaving = false →
    (w, code) = (if bits % 8 = 1 then u.cmdEnable p else if bits % 8 = 2 then u.cmdDisable p else if bits % 8 = 4 then u.cmdClear p else (u, 2)) →
    exec c s = .next (((w.wr FB_CMDRES_RESULT p code).wr FB_CMDRES_CMD_SEQ p (w.rd FB_CMDRES_CMD_SEQ p + 1)).settlePort p).settleFaults)

/-- Transceiver events, bus wake, mode changes, tokens and replies. TXDOM of a port in NORMAL holds the transmitter, sets FB_EVT bit 10, counts and
raises the port's fault source. BUSDOM of a supplied transceiver sets FB_STAT.BUSDOM and at its beginning FB_EVT bit 9; its end clears
FB_STAT.BUSDOM and changes nothing else. A wake pulse of a port in STANDBY with WAKE_EN 1 that does not wake already sets FB_EVT bit 11 and counts
in PM_WAKES; a port that is ASLEEP then wakes, with the reason of its WGATE. A mode change that ends leaves the transceiver in the mode it was going
to. A lease whose bucket has refilled has its port's head judged again. A queued reply whose lifetime has passed leaves its queue and counts in
PQ_RSV.EXPIRED, and one in flight is marked. A rebuilt queue has both pointer copies alike and is out of RESETTING. -/
def Obligations.Transceivers : Prop :=
  (∀ (s u : State) (t : Nat) (p : Nat), u = s.tick t → u.rd FB_STAT_XCVR p = 3 →
    exec (.txdom t p) s = .next (((((u.setPort p fun x => { x with txdomHold := true }).fbEvt p 10).bump FB_TXDOM_CNT_COUNT p).xcvrEvt p
      2).faultAssert p (2 ^ 16 + p)))
  ∧ (∀ (s u : State) (t : Nat) (p : Nat), u = s.tick t → u.flag FB_STAT_BUSDOM p = false → 2 ≤ u.rd FB_STAT_XCVR p →
    exec (.busdom t p true) s = .next (((u.put FB_STAT_BUSDOM p true).fbEvt p 9).xcvrEvt p 1))
  ∧ (∀ (s u : State) (t : Nat) (p : Nat), u = s.tick t →
    ∃ v : State, exec (.busdom t p false) s = .next v ∧ v.rd FB_STAT_BUSDOM p = 0 ∧ v = { u with regs := v.regs } ∧
      u.regsBut v [FB_STAT_BUSDOM.key p 0])
  ∧ (∀ (s u : State) (t : Nat) (p : Nat) (w : State), u = s.tick t → u.rd FB_STAT_XCVR p = 1 → u.flag FB_WAKE_WAKE_EN p = true →
    u.rdA PM_PSLP_ASTATE 0 p ≠ 5 → w = ((u.fbEvt p 11).xcvrEvt p 3).bump PM_WAKES_COUNT 0 → w.fstate p ≠ fbAsleep →
    exec (.wakeSignal t p) s = .next w)
  ∧ (∀ (s u : State) (t : Nat) (p : Nat) (w : State), u = s.tick t → u.rd FB_STAT_XCVR p = 1 → u.flag FB_WAKE_WAKE_EN p = true →
    u.rdA PM_PSLP_ASTATE 0 p ≠ 5 → w = ((u.fbEvt p 11).xcvrEvt p 3).bump PM_WAKES_COUNT 0 → w.fstate p = fbAsleep →
    exec (.wakeSignal t p) s = .next ((((w.wrA PM_PSLP_ASTATE 0 p 5).setAn p fun a => { a with wokenAt := w.now }).wakeEvent p
      (if w.rdA PM_ARD1_WGATE 0 p = 0 then 1 else 4)).handWaiting))
  ∧ (∀ (s u : State) (t : Nat) (p m : Nat), u = s.tick t → (u.port p).xcvrBy = some m →
    exec (.transceiverModeDone t p) s = .next ((u.setPort p fun x => { x with xcvrBy := none }).setXcvr p (u.port p).xcvrTo))
  ∧ (∀ (s u : State) (t : Nat) (l : Nat) (x : Lease), u = s.tick t → u.img.leases[l]? = some x → exec (.tokens t l) s = .next (u.refreshHead x.port))
  ∧ (∀ (s u : State) (t : Nat) (p q : Nat) (e : QEntry) (w : State), u = s.tick t → w = (u.checkPtrs p).settleFaults →
    ((w.queue p).entries.find? (fun e => e.isReply && e.seq == q) = some e) → w.rd PQ_CFG_RLIFE p * 16 * w.nbt p ≠ 0 →
    e.born + w.rd PQ_CFG_RLIFE p * 16 * w.nbt p ≤ w.now →
    exec (.replyExpiry t p q) s = .next (if e.inflight then w.setEntry p e fun e => { e with expired := true }
      else (w.freeEntry p e false 0).bump PQ_RSV_EXPIRED_COUNT p))
  ∧ (∀ (s u : State) (t : Nat) (p : Nat), u = s.tick t → u.flag PQ_STAT_RESETTING p = true →
    exec (.queueRebuildDone t p) s = .next (((u.setEntries p (u.queue p).entries).put PQ_STAT_RESETTING p false).refreshHead p))

/-- The queue head, the mailboxes and the low mark of the frame store. A served read of PQ_HEAD0 returns the head's first word and stores the second for
the reader, setting UNDER first where every entry is in flight. In a mailbox quarter with power, a served read of MB_OPEN opens the sequence for the
reading function and returns what it found, and one of MB_CLOSE ends the sequence and returns INTACT and SWAPPED; without power each returns 0 and
changes nothing else. A sequence open for 100 us is closed by the device, which remembers it. LOWCLR sets FS_LOW to the free count and changes no
other register. -/
def Obligations.ReceiveRegisters : Prop :=
  (∀ (s u : State) (t : Nat) (f : Func) (p : Nat) (w x : State), u = s.tick t → p < 64 → u.takesRead f (0x28000C + p * 0x1000) = true →
    (u.queue p).entries.all (·.inflight) = true → w = u.evt PQ_STAT_UNDER p 0 →
    x = { w with host := { w.host with snaps := putPart w.host.snaps f (⟨.pq, p, 0, 0x10, false⟩ : Loc).key (w.headWord p 1) } } →
    exec (.pqHead0 t f p) s = .next (x.emit (.readDone f (0x28000C + p * 0x1000) [w.headWord p 0])))
  ∧ (∀ (s u : State) (t : Nat) (f : Func) (p : Nat) (x : State), u = s.tick t → p < 64 → u.takesRead f (0x28000C + p * 0x1000) = true →
    (u.queue p).entries.all (·.inflight) = false →
    x = { u with host := { u.host with snaps := putPart u.host.snaps f (⟨.pq, p, 0, 0x10, false⟩ : Loc).key (u.headWord p 1) } } →
    exec (.pqHead0 t f p) s = .next (x.emit (.readDone f (0x28000C + p * 0x1000) [u.headWord p 0])))
  ∧ (∀ (s u : State) (t : Nat) (f : Func) (m : Nat), u = s.tick t → u.takesRead f (mbOff m 0) = true → u.boxOn m = true →
    exec (.mbOpen t f m) s = .next ((u.setMbox m fun _ => ((u.mbox m).openRead f u.now).1).emit
      (.readDone f (mbOff m 0) [((u.mbox m).openRead f u.now).2])))
  ∧ (∀ (s u : State) (t : Nat) (f : Func) (m : Nat), u = s.tick t → u.takesRead f (mbOff m 31) = true → u.boxOn m = true →
    exec (.mbClose t f m) s = .next ((u.setMbox m fun _ => (u.mbox m).closeRead.1).emit (.readDone f (mbOff m 31) [(u.mbox m).closeRead.2])))
  ∧ (∀ (s u : State) (t : Nat) (f : Func) (m : Nat), u = s.tick t → u.takesRead f (mbOff m 0) = true → u.boxOn m = false →
    exec (.mbOpen t f m) s = .next (u.emit (.readDone f (mbOff m 0) [0])))
  ∧ (∀ (s u : State) (t : Nat) (f : Func) (m : Nat), u = s.tick t → u.takesRead f (mbOff m 31) = true → u.boxOn m = false →
    exec (.mbClose t f m) s = .next (u.emit (.readDone f (mbOff m 31) [0])))
  ∧ (∀ (s u : State) (t : Nat) (m : Nat) (q : MbSeq), u = s.tick t → (u.mbox m).open_ = some q → q.at_ + 100 * tqPerUs ≤ u.now →
    exec (.mailboxAutoClose t m) s = .next (u.setMbox m fun b => { b.close with autoPrev := true }))
  ∧ (∀ (s u : State) (t : Nat) (f : Func), u = s.tick t → u.takesWrite f 0x2C0014 = true →
    ∃ v, exec (.lowclr t f) s = .next v ∧ v.rd FS_LOW_LOW 0 = u.rd FS_FREE_FREE 0 % 2 ^ FS_LOW_LOW.w ∧ v = { u with regs := v.regs } ∧
      u.regsBut v [FS_LOW_LOW.key 0 0])

/-- Synchronisation, mastership, reference loss and holdover. An accepted SYNC cell is judged by the synchronisation rules and goes on. A master with a
TMPRI other than 0 sends SYNC cells with the next sequence number on every ring that is on. A node with an image and a TMPRI other than 0 that is
not master and hears no better one for (4 + TMPRI) SYNC periods loses the stream it followed, becomes time master and shows itself in TU_MASTER. A
node that is not master, without a SYNC for four periods, loses its reference. Holdover of HOLDMAX seconds, where that is not 0, ends in state 3.
TU_STAT.SLEW clears, and nothing else changes, when nothing remains to be slewed. A ring port that is UP begins a delay exchange and keeps its t1.
Two seconds without a PPS edge clear PPSIN_OK, where it was set costing a LOCKED master its reference and else counting a loss. -/
def Obligations.TimeMaster : Prop :=
  (∀ (s u : State) (t : Nat) (port : Nat) (x : SyncCell) (w : State), u = s.tick t → x.cell.typ = 3 → w = (u.accept port x.cell).1 →
    (u.accept port x.cell).2 = true → exec (.syncCell t port x) s = .next (w.syncIn port x.cell x.resid))
  ∧ (∀ (s u : State) (t : Nat) (w : State) (seq : Nat), u = s.tick t → u.flag TU_STAT_MASTER 0 = true → u.rd TU_CFG_TMPRI 0 ≠ 0 →
    seq = (u.time.seq + 1) % 65536 → w = (u.setTime fun y => { y with seq := seq }) →
    exec (.syncSend t) s = .next (([0, 1].filter fun r => w.ringOn r).foldl (fun (y : State) r => (y.insertCell r (w.broadcast 3
      (leBytes 1 (w.rd TU_CFG_TMPRI 0 + w.rd TU_STAT_VALID 0 * 16 + w.rd TU_STAT_STATE 0 * 32) ++ leBytes 1 (w.rd TU_SYNC_SYNCPER 0)
      ++ leBytes 2 seq ++ leBytes 8 w.ns ++ leBytes 1 w.frac ++ [0, 0, 0]))).1) w))
  ∧ (∀ (s u : State) (t : Nat) (w x : State), u = s.tick t → u.rd TU_CFG_TMPRI 0 ≠ 0 → u.flag TU_STAT_MASTER 0 = false → u.noImage = false →
    u.time.betterAt + (4 + u.rd TU_CFG_TMPRI 0) * u.rd TU_SYNC_SYNCPER 0 * 125 * tqPerUs ≤ u.now → w = u.loseReference.put TU_STAT_MASTER 0 true →
    x = ((w.wr TU_MASTER_NODE 0 w.node).wr TU_MASTER_HOPS 0 0).wr TU_MASTER_TMPRI 0 (u.rd TU_CFG_TMPRI 0) →
    exec (.masterTimeout t) s = .next ((((x.wr TU_MASTER_MSTATE 0 (w.rd TU_STAT_STATE 0)).wr TU_MASTER_MVALID 0 (w.rd TU_STAT_VALID 0)).wr
      TU_MASTER_RING 0 0).masterEvent))
  ∧ (∀ (s u : State) (t : Nat), u = s.tick t → u.flag TU_STAT_MASTER 0 = false → u.time.syncAt + syncSpan u.time.syncPer 4 ≤ u.time.ivl →
    exec (.referenceLoss t) s = .next u.loseReference)
  ∧ (∀ (s u : State) (t : Nat), u = s.tick t → u.rd TU_STAT_STATE 0 = 2 → u.rd TU_LIMITS_HOLDMAX 0 ≠ 0 → u.rd TU_LIMITS_HOLDMAX 0 ≤ u.holdSeconds →
    exec (.holdoverTimeout t) s = .next (u.setTimeState 0 3))
  ∧ (∀ (s u : State) (t : Nat), u = s.tick t → u.time.slewRem = 0 →
    ∃ v, exec (.slewEnd t) s = .next v ∧ v.rd TU_STAT_SLEW 0 = 0 ∧ v = { u with regs := v.regs } ∧ u.regsBut v [TU_STAT_SLEW.key 0 0])
  ∧ (∀ (s u : State) (t : Nat) (port : Nat), u = s.tick t → port < 4 → u.lstate port = 4 →
    exec (.delayMeasure t port) s = .next ((u.sendNow port (u.delayMsg port 0 0 u.timeBase)).setTime fun y =>
      { y with delayT1 := tset none y.delayT1 port (some u.timeBase) }))
  ∧ (∀ (s u : State) (t : Nat) (a : Nat) (w : State), u = s.tick t → u.time.ppsEdge = some a → a + 2000000000 * ivlNs ≤ u.time.ivl →
    w = ((u.setTime fun y => { y with ppsEdge := none, ppsRun := 0 }).put TU_STAT_PPSIN_OK 0 false) →
    exec (.ppsInputLoss t) s = .next (if u.flag TU_STAT_PPSIN_OK 0 = false then w
      else if w.flag TU_STAT_MASTER 0 = true ∧ w.rd TU_STAT_STATE 0 = 1 then w.loseReference else w.bump TU_LOSS_COUNT 0))

/-- Setting fabric time, the alarm, PPS lines and the cycles of time-triggered ports. The completing write of TU_SET commits the group; the time owner's
sets the fabric time, advances SETRES.SEQ and shows the result, with TU_EVT bit 11 where the result is at most 2. The completing write of TU_ALARM
commits the group and arms the alarm, which fires late at once where its time is past. ALDISARM disarms it and changes nothing else; an armed alarm
whose instant has come fires. A line whose second boundary has come: the first boundary after a step clears SUPP_PEND and counts; a PPS line that
neither that boundary nor the gate stops starts its pulse, which ends after PPSW; any other boundary only has its second noted and, on a PPS line of
a bank that is not forced, its wait ended. A time-triggered master at a cycle start withdraws a reference message that still waits, counting LATE,
and queues the one of its cycle; a slave without a reference message for RM_TIMEOUT loses SYNC_OK and counts; TTCLR clears the four counters of the
selected port, but for what the device counted at that instant, and changes no other register. -/
def Obligations.TimeCommands : Prop :=
  (∀ (s u : State) (t : Nat) (f : Func) (v k : Nat) (w x y : State), u = s.tick t → u.takesWrite f 0x80048 = true →
    w = u.commitGroup f ⟨.tu, 0, 0, 0x48, false⟩ 0x40 3 v → w.tn f = w.timeOwner → x = w.setFabric.1 → k = w.setFabric.2 →
    y = (x.wr TU_SETRES_SEQ 0 (x.rd TU_SETRES_SEQ 0 + 1)).wr TU_SETRES_RESULT 0 k →
    exec (.tuSet t f v) s = .next (if k ≤ 2 then y.evt TU_EVT_EVT 0 11 else y))
  ∧ (∀ (s u : State) (t : Nat) (f : Func) (v : Nat) (w : State), u = s.tick t → u.takesWrite f 0x80048 = true →
    w = u.commitGroup f ⟨.tu, 0, 0, 0x48, false⟩ 0x40 3 v → w.tn f ≠ w.timeOwner → exec (.tuSet t f v) s = .next w)
  ∧ (∀ (s u : State) (t : Nat) (f : Func) (v : Nat) (w : State), u = s.tick t → u.takesWrite f 0x80038 = true →
    w = (u.commitGroup f ⟨.tu, 0, 0, 0x38, false⟩ 0x30 3 v).put TU_ALCTL_ARMED 0 true →
    exec (.tuAlarm t f v) s = .next (if w.alarmTime < w.time.fab / 2 ^ 24 then w.fireAlarm true else w))
  ∧ (∀ (s u : State) (t : Nat) (f : Func), u = s.tick t → u.takesWrite f 0x8003C = true →
    ∃ v, exec (.alarmDisarm t f) s = .next v ∧ v.rd TU_ALCTL_ARMED 0 = 0 ∧ v = { u with regs := v.regs } ∧ u.regsBut v [TU_ALCTL_ARMED.key 0 0])
  ∧ (∀ (s u : State) (t : Nat), u = s.tick t → u.flag TU_ALCTL_ARMED 0 = true → u.alarmTime ≤ u.time.fab / 2 ^ 24 →
    exec (.alarmFire t) s = .next (((u.put TU_ALCTL_ARMED 0 false).put TU_ALCTL_LATE 0 false).evt TU_EVT_EVT 0 5))
  ∧ (∀ (s u : State) (t : Nat) (line sec : Nat) (v w x : State), u = s.tick t → line < 192 → sec = u.ns / 1000000000 →
    tget 0 u.time.ppsSec line < sec → v = (u.setTime fun y => { y with ppsSec := tset 0 y.ppsSec line sec }) →
    w = (if v.isPps (line / 16) (line % 16) = false ∨ v.bankForced (line / 16) = true then v else v.setBank (line / 16) fun d => { d with ppsWait := clearBitAt d.ppsWait (line % 16) }) →
    w.flag TU_STAT_SUPP_PEND 0 = false → w.isPps (line / 16) (line % 16) = true → w.time.suppSec ≠ some sec → w.ppsGate = true →
    x = (w.setTime fun y => { y with ppsOff := tset 0 y.ppsOff line (y.ivl + w.rd TU_PPS_PPSW 0 * 1000000 * ivlNs) }) →
    exec (.ppsOn t line) s = .next (((x.setBank (line / 16) fun d => { d with pps := setBitAt d.pps (line % 16) }).refreshDrive (line / 16)).evt
      TU_EVT_EVT 0 4))
  ∧ (∀ (s u : State) (t : Nat) (line sec : Nat) (v w : State), u = s.tick t → line < 192 → sec = u.ns / 1000000000 →
    tget 0 u.time.ppsSec line < sec → v = (u.setTime fun y => { y with ppsSec := tset 0 y.ppsSec line sec }) →
    w = (if v.isPps (line / 16) (line % 16) = false ∨ v.bankForced (line / 16) = true then v else v.setBank (line / 16) fun d => { d with ppsWait := clearBitAt d.ppsWait (line % 16) }) →
    w.flag TU_STAT_SUPP_PEND 0 = true →
    exec (.ppsOn t line) s = .next (((w.put TU_STAT_SUPP_PEND 0 false).bump TU_PPS_SUPP_COUNT 0).setTime fun y => { y with suppSec := some sec }))
  ∧ (∀ (s u : State) (t : Nat) (line sec : Nat) (v w : State), u = s.tick t → line < 192 → sec = u.ns / 1000000000 →
    tget 0 u.time.ppsSec line < sec → v = (u.setTime fun y => { y with ppsSec := tset 0 y.ppsSec line sec }) →
    w = (if v.isPps (line / 16) (line % 16) = false ∨ v.bankForced (line / 16) = true then v else v.setBank (line / 16) fun d => { d with ppsWait := clearBitAt d.ppsWait (line % 16) }) →
    w.flag TU_STAT_SUPP_PEND 0 = false → (w.isPps (line / 16) (line % 16) = false ∨ w.time.suppSec = some sec ∨ w.ppsGate = false) →
    exec (.ppsOn t line) s = .next w)
  ∧ (∀ (s u : State) (t : Nat) (line : Nat), u = s.tick t → bitAt (u.bank (line / 16)).pps (line % 16) = true →
    tget 0 u.time.ppsOff line ≤ u.time.ivl →
    exec (.ppsOff t line) s = .next ((u.setBank (line / 16) fun d => { d with pps := clearBitAt d.pps (line % 16) }).refreshDrive (line / 16)))
  ∧ (∀ (s u : State) (t : Nat) (p k : Nat) (v w : State), u = s.tick t → u.ttRole p = 1 → u.rdA TT_RD3_CYC_LEN 0 p ≠ 0 →
    u.rdA TT_RD4_ORIGIN 0 p * 1000 ≤ u.ns → k = (u.ns - u.rdA TT_RD4_ORIGIN 0 p * 1000) / (u.rdA TT_RD3_CYC_LEN 0 p * 1000) →
    (u.ttSt p).seenNs < u.rdA TT_RD4_ORIGIN 0 p * 1000 + k * (u.rdA TT_RD3_CYC_LEN 0 p * 1000) →
    v = (u.setTt p fun x => { x with seenNs := u.ns }) →
    w = (if (v.queue p).entries.any (fun e => match e.src with | .device _ .reference => !e.expired | _ => false) then
      ((v.withdrawDev p .reference).settleFaults.ttCount TT_RD11_LATE p).ttMaster p 2 else v) →
    exec (.ttCycleStart t p) s = .next (w.submitDev p .reference (w.refFrame p k)).1)
  ∧ (∀ (s u : State) (t : Nat) (p : Nat), u = s.tick t → u.ttRole p = 2 → u.rdA TT_RD0_SYNC_OK 0 p ≠ 0 →
    (u.ttSt p).markAt + u.rdA TT_RD5_RM_TIMEOUT 0 p * 1000 * ivlNs ≤ u.time.ivl →
    exec (.ttTimeout t p) s = .next (((u.setTt p fun x => { x with last := none }).ttCount TT_RD12_TIMEOUT p).setSyncOk p false 2))
  ∧ (∀ (s u : State) (t : Nat) (f : Func), u = s.tick t → u.takesWrite f 0x82040 = true →
    ∃ v, exec (.ttClr t f) s = .next v ∧ v = { u with regs := v.regs } ∧
      u.regsBut v ([TT_RD11_LATE, TT_RD11_DEFER, TT_RD11_SKIP, TT_RD12_TIMEOUT].map fun g => g.key 0 (u.rd TT_SEL_PORT 0)) ∧
      ∀ g ∈ [TT_RD11_LATE, TT_RD11_DEFER, TT_RD11_SKIP, TT_RD12_TIMEOUT], v.rdA g 0 (u.rd TT_SEL_PORT 0) = u.cleared g 0 (u.rd TT_SEL_PORT 0) (2 ^ g.w - 1) % 2 ^ g.w)

/-- Characters, idle gaps and breaks on a serial port. The receiver reads a character from the line's levels. At an enabled, ready port that does not
read its own transmission back, a character whose start bit does not sample high is counted for its faults, makes the line active and extends or
opens the record, as an address character where ADDRM and its mark say so; at a half-duplex port that sends, it is judged as an echo of the
message's next character; at a port that drains or whose receiver is not ready it only makes the line active. IDLEGAP bit times after the last
activity the open record closes with cause 2, and without a record a continuation lapses. A line low for a character with its stop bits counts as a
break, sets SP_EVT bit 3 and closes the record, the open one or one opened then, with cause 5. After 10 idle bit times an enabled port's receiver is
ready. -/
def Obligations.SerialReceive : Prop :=
  (∀ (s u : State) (t : Nat) (n : Nat) (c : SerialChar) (x : CharRead) (w : State), u = s.tick t → x = u.readChar n c → x.falseStart = false →
    (u.flag SP_CFG_DUPLEX n = true ∨ (u.spt n).cur = none) → u.spState n = spEnabled → (u.spt n).rxReady = true →
    w = (u.charFaults n x).lineActive n →
    exec (.character t n c) s = .next (if w.flag SP_CFG_ADDRM n = true ∧ x.addr = true then w.addrChar n x else w.dataChar n x))
  ∧ (∀ (s u : State) (t : Nat) (n : Nat) (c : SerialChar) (x : CharRead), u = s.tick t → x = u.readChar n c → x.falseStart = false →
    u.flag SP_CFG_DUPLEX n = false → (u.spt n).cur ≠ none → u.spState n = spEnabled → exec (.character t n c) s = .next (u.echo n x))
  ∧ (∀ (s u : State) (t : Nat) (n : Nat) (c : SerialChar), u = s.tick t → (u.readChar n c).falseStart = false →
    (u.flag SP_CFG_DUPLEX n = true ∨ (u.spt n).cur = none) → (u.spState n = spDraining ∨ (u.spState n = spEnabled ∧ (u.spt n).rxReady = false)) →
    exec (.character t n c) s = .next (u.lineActive n))
  ∧ (∀ (s u : State) (t : Nat) (n : Nat), u = s.tick t → (u.spt n).lineEnd + u.spBits n (u.rd SP_FRAME_IDLEGAP n) ≤ u.now →
    exec (.idleClose t n) s = .next (match (u.spt n).rec_ with
      | some r => u.closeRec n 2 r
      | none => u.setSpt n fun x => { x with carry := none }))
  ∧ (∀ (s u : State) (t : Nat) (n low : Nat) (w : State) (r : SpRec), u = s.tick t → u.spState n = spEnabled → (u.spt n).rxReady = true →
    u.spBits n (u.sendBits n) ≤ low → w = ((u.bump SP_BREAK_COUNT n).spEvt n 3).lineActive n →
    r = ((w.spt n).rec_).getD (w.openRec ((w.spt n).carry.getD none) (w.spt n).carry.isSome low) →
    exec (.lineBreak t n low) s = .next (w.closeRec n 5 { r with ivl1 := w.time.ivl, err := r.err ||| 8 }))
  ∧ (∀ (s u : State) (t : Nat) (n : Nat), u = s.tick t → u.spState n = spEnabled → (u.spt n).rxFrom + u.spBits n 10 ≤ u.now →
    exec (.spReceiverReady t n) s = .next (u.setSpt n fun x => { x with rxReady := true }))

/-- Staging and sending a serial message, and the port's commands. A served write of TEN_SPTX_SEL selects port and address and empties the staging. One
of TEN_SPTX_D1 to D3 adds its bytes to the staging, at most 64 in all, a byte beyond them setting OVF, and FILL shows their number. One of
TEN_SPTX_GO advances SEQ, empties the staging and shows its status; with every check passed that is 0 and the message is queued and charged to
LV_USED. A message starts when the port may start and its lease can pay, with its characters and marks sent, in half duplex after the driver goes
on; its end counts in TEN_SPTX_SENT and SP_TXMSG and frees its lease's place. A served write of SP_CMD runs the port's command, which advances
CMD_SEQ and shows its result: 7 at an absent port, 2 where both or neither bit is set. The end of draining turns the port off. -/
def Obligations.SerialTransmit : Prop :=
  (∀ (s u : State) (t : Nat) (f : Func) (v k : Nat), u = s.tick t → u.takesWrite f 0x58 = true → k = u.tn f →
    exec (.tenSptxSel t f v) s = .next ({ ((u.wr TEN_SPTX_SEL_PORT k (bitsOf v 16 5)).wr TEN_SPTX_SEL_ADDRV k (bitsOf v 8 1)).wr TEN_SPTX_SEL_ADDR
      k (bitsOf v 0 8) with stage_ := tset [] u.stage_ k [] }.wr TEN_SPTX_RES_FILL k 0))
  ∧ (∀ (s u : State) (t : Nat) (f : Func) (n v k : Nat) (all : List Byte) (w : State), u = s.tick t → 1 ≤ n → n ≤ 3 →
    u.takesWrite f (0x58 + 4 * n) = true → k = u.tn f → all = tget [] u.stage_ k ++ leBytes n v →
    w = (if 64 < all.length then u.put TEN_SPTX_RES_OVF k true else u) →
    exec (.tenSptxD t f n v) s = .next ({ w with stage_ := tset [] w.stage_ k (all.take 64) }.wr TEN_SPTX_RES_FILL k (all.take 64).length))
  ∧ (∀ (s u : State) (t : Nat) (f : Func) (k p seq l : Nat) (m : SpMsg) (w : State), u = s.tick t → u.takesWrite f 0x68 = true → k = u.tn f →
    p = u.rd TEN_SPTX_SEL_PORT k → u.sptxCheck k = (0, some l) → seq = (u.rd TEN_SPTX_RES_SEQ k + 1) % 256 →
    m = (⟨k, l, seq, if u.flag TEN_SPTX_SEL_ADDRV k then some (u.rd TEN_SPTX_SEL_ADDR k) else none, tget [] u.stage_ k⟩) →
    w = (((u.setLrt l fun r => { r with used := r.used + 1 }).setSpt p fun x => { x with msgs := x.msgs ++ [m] }).refreshTxq p) →
    exec (.tenSptxGo t f) s = .next ((((({ w with stage_ := tset [] w.stage_ k [] }).wr TEN_SPTX_RES_SEQ k seq).put TEN_SPTX_RES_OVF k false).wr
      TEN_SPTX_RES_FILL k 0).wr TEN_SPTX_RES_STATUS k 0))
  ∧ (∀ (s u : State) (t : Nat) (f : Func) (k st : Nat) (w : State), u = s.tick t → u.takesWrite f 0x68 = true → k = u.tn f →
    u.sptxCheck k = (st, none) → w = { u with stage_ := tset [] u.stage_ k [] } →
    exec (.tenSptxGo t f) s = .next ((((w.wr TEN_SPTX_RES_SEQ k ((u.rd TEN_SPTX_RES_SEQ k + 1) % 256)).put TEN_SPTX_RES_OVF k false).wr
      TEN_SPTX_RES_FILL k 0).wr TEN_SPTX_RES_STATUS k st))
  ∧ (∀ (s u : State) (t : Nat) (n quiet at_ : Nat) (m : SpMsg) (w x : State), u = s.tick t → u.spMayStart n quiet = true → u.spNext n = some m →
    w = u.charge m.lease (u.msgCost n m) → at_ = (if w.flag SP_CFG_DUPLEX n = true then w.now else w.now + w.spBits n 1) →
    x = ((w.setSpt n fun x => { x with msgs := x.msgs.erase m, cur := some ⟨m, at_, 0⟩ }).refreshTxq n) →
    exec (.spMessageStart t ⟨n, quiet⟩) s = .next ((if x.flag SP_CFG_DUPLEX n = true then x else x.emit (.serialDriver n true)).emit (.serialSend n at_ m.all)))
  ∧ (∀ (s u : State) (t : Nat) (n : Nat) (x : SpSend) (w : State), u = s.tick t → (u.spt n).cur = some x → u.spState n = spEnabled →
    w = (((u.msgGone x.msg).setSpt n fun y => { y with cur := none, txEnd := u.now, lineEnd := if u.flag SP_CFG_DUPLEX n then y.lineEnd else max y.lineEnd u.now }).driverOff n) →
    exec (.spMessageEnd t n) s = .next (((w.bump TEN_SPTX_SENT_COUNT x.msg.tenant).bump SP_TXMSG_COUNT n).refreshTxq n))
  ∧ (∀ (s u : State) (t : Nat) (f : Func) (n bits : Nat), u = s.tick t → n < 24 → bitAt bits 0 = true → u.takesWrite f (spOff n 4) = true →
    exec (.spEnable t f n bits) s = .next (u.spCommand n bits))
  ∧ (∀ (s u : State) (t : Nat) (f : Func) (n bits : Nat), u = s.tick t → n < 24 → bitAt bits 0 = false → u.takesWrite f (spOff n 4) = true →
    exec (.spDisable t f n bits) s = .next (u.spCommand n bits))
  ∧ (∀ (s u : State) (t : Nat) (f : Func) (n bits code : Nat) (w : State), u = s.tick t → n < 24 → bitAt bits 0 = true →
    u.takesWrite f (spOff n 4) = true →
    (w, code) = (if u.spState n = spAbsent then (u, 7) else if bitAt bits 1 = true then (u, 2) else if u.spState n = spDisabled then u.spTurnOn n
      else if u.spState n = spDraining ∧ u.flag SP_STAT_PEND_EN n = false then (u.put SP_STAT_PEND_EN n true, 0) else (u, 3)) →
    exec (.spEnable t f n bits) s = .next ((w.wr SP_CMDRES_RESULT n code).wr SP_CMDRES_CMD_SEQ n (w.rd SP_CMDRES_CMD_SEQ n + 1)))
  ∧ (∀ (s u : State) (t : Nat) (f : Func) (n bits code : Nat) (w : State), u = s.tick t → n < 24 → bitAt bits 0 = false →
    u.takesWrite f (spOff n 4) = true →
    (w, code) = (if u.spState n = spAbsent then (u, 7) else if bitAt bits 1 = false then (u, 2)
      else if u.spState n = spDisabled ∨ (u.spState n = spDraining ∧ u.flag SP_STAT_PEND_EN n = false) then (u, 3) else (u.spDisable n, 0)) →
    exec (.spDisable t f n bits) s = .next ((w.wr SP_CMDRES_RESULT n code).wr SP_CMDRES_CMD_SEQ n (w.rd SP_CMDRES_CMD_SEQ n + 1)))
  ∧ (∀ (s u : State) (t : Nat) (n : Nat), u = s.tick t → u.spState n = spDraining → exec (.spDrainEnd t n) s = .next (u.spDrainOver n))

/-- Sample ticks, lines, edges and commands of a discrete bank. A tick of a bank with supply samples, starts lines, applies commands and ends pulses;
one of a bank without it lifts a force and applies staged values. A switch of function begins once its break has passed; at a bank with supply a
pulse ends at its instant. A level change of a TS line of a bank with supply, neither breaking nor waiting for its reference, changes the level and
is reported with the time of its first tq, and at the time unit's PPS input is its edge; one of a CNT line changes the level, and where it rises
counts, with the overflow event at 2^24. Served writes of DB_OSET, DB_OCLR and DB_OPULSE hand the bank one command of their lines; one of DB_CNTCLR
clears the counters of its lines one after the other. A served read of DB_TSF0 takes the oldest time stamp, shows how many are left and latches its
other words for the reader, or reads 0 where there is none. A served write of DB_OC clears the named overcurrent bits, but for what the device sets
at that instant, and the lines wait for the next tick. An overcurrent of a driven line that has no overcurrent bit yet sets DB_OC and DB_EVT bit 2,
drives the line off and tells the bank's owner and, where another holds the line, that tenant. -/
def Obligations.DiscreteBanks : Prop :=
  (∀ (s u : State) (t : Nat) (b levels : Nat), u = s.tick t → u.bankUp b = true → exec (.bankSampleTick t b levels) s = .next (u.bankTick b levels))
  ∧ (∀ (s u : State) (t : Nat) (b levels : Nat), u = s.tick t → u.bankUp b = false →
    exec (.bankSampleTick t b levels) s = .next ((u.liftBank b).applyBank b))
  ∧ (∀ (s u : State) (t : Nat) (b line : Nat), u = s.tick t → (∃ x ∈ (u.bank b).breaks, x.1 = line ∧ x.2 ≤ u.now) →
    exec (.functionSwitchStart t b line) s = .next ((u.startFn b line).refreshDrive b))
  ∧ (∀ (s u : State) (t : Nat) (b line : Nat), u = s.tick t → u.bankUp b = true →
    exec (.pulseEnd t b line) s = .next (((u.endPulse b line).refreshDrive b).noteOut b (u.outKey b)))
  ∧ (∀ (s u : State) (t : Nat) (b line stamp : Nat) (rise : Bool) (w x : State), u = s.tick t → u.bankUp b = true → u.lineFn b line = 4 →
    (u.bank b).breaking line = false → bitAt (u.bank b).refDue line = false → bitAt (u.rd DB_IN_LEVEL b) line ≠ rise → w = u.setLevel b line rise →
    stamp = (w.stampAgo 16).fab / 2 ^ 24 → x = w.reportEdge b ⟨rise, line, stamp / 256 % 2 ^ 64, stamp % 256, (w.stampAgo 16).epoch % 256⟩ →
    exec (.fastEdge t b line rise) s = .next (if rise = true ∧ x.flag TU_CFG_PPSIN_EN 0 = true ∧ x.rd TU_PPS_PPSIN_LINE 0 = b * 16 + line then x.ppsInput stamp else x))
  ∧ (∀ (s u : State) (t : Nat) (b line : Nat) (rise : Bool) (w x : State), u = s.tick t → u.bankUp b = true → u.lineFn b line = 3 →
    (u.bank b).breaking line = false → bitAt (u.bank b).refDue line = false → bitAt (u.rd DB_IN_LEVEL b) line ≠ rise → w = u.setLevel b line rise →
    x = (w.wrA DB_CNT_COUNT b line (w.rdA DB_CNT_COUNT b line + 1)).note (DB_CNT_COUNT.key b line) .count 1 →
    exec (.fastEdge t b line rise) s = .next (if rise = false then w
      else if w.rdA DB_CNT_COUNT b line + 1 = 2 ^ 24 then (x.evt DB_CNTOVF_OVF b line).evt DB_EVT_EVT b 5 else x))
  ∧ (∀ (s u : State) (t : Nat) (f : Func) (b lines : Nat), u = s.tick t → u.takesWrite f (dbOff b 0xC) = true →
    exec (.dbOset t f b lines) s = .next (u.bankCmd b ⟨0, lines % 65536, 0, .host (u.tn f), 0, 0⟩))
  ∧ (∀ (s u : State) (t : Nat) (f : Func) (b lines : Nat), u = s.tick t → u.takesWrite f (dbOff b 0x10) = true →
    exec (.dbOclr t f b lines) s = .next (u.bankCmd b ⟨1, lines % 65536, 0, .host (u.tn f), 0, 0⟩))
  ∧ (∀ (s u : State) (t : Nat) (f : Func) (b lines : Nat), u = s.tick t → u.takesWrite f (dbOff b 0x14) = true →
    exec (.dbOpulse t f b lines) s = .next (u.bankCmd b ⟨2, lines % 65536, u.rd DB_PWIDTH_WIDTH b, .host (u.tn f), 0, 0⟩))
  ∧ (∀ (s u : State) (t : Nat) (f : Func) (b lines : Nat), u = s.tick t → u.takesWrite f (dbOff b 0xA0) = true →
    exec (.dbCntclr t f b lines) s = .next ((linesOf (lines % 65536)).foldl (fun (w : State) j => w.clearCount DB_CNT_COUNT b j) u))
  ∧ (∀ (s u : State) (t : Nat) (f : Func) (b : Nat) (e : TsEntry) (rest : List TsEntry) (w x : State), u = s.tick t →
    u.takesRead f (dbOff b 0xB0) = true → (u.bank b).fifo = e :: rest →
    w = ((u.setBank b fun d => { d with fifo := rest }).wr DB_TSCNT_COUNT b rest.length) →
    x = ({ w with host := { w.host with snaps := (List.range 3).foldl (fun ps i =>
      putPart ps f (⟨.db, b, 0, 0xB4 + 4 * i, false⟩ : Loc).key (tsWord e (i + 1))) w.host.snaps } }) →
    exec (.dbTsf0 t f b) s = .next (x.emit (.readDone f (dbOff b 0xB0) [tsWord e 0])))
  ∧ (∀ (s u : State) (t : Nat) (f : Func) (b : Nat) (x : State), u = s.tick t → u.takesRead f (dbOff b 0xB0) = true → (u.bank b).fifo = [] →
    x = ({ u with host := { u.host with snaps := (List.range 3).foldl (fun ps i =>
      putPart ps f (⟨.db, b, 0, 0xB4 + 4 * i, false⟩ : Loc).key 0) u.host.snaps } }) →
    exec (.dbTsf0 t f b) s = .next (x.emit (.readDone f (dbOff b 0xB0) [0])))
  ∧ (∀ (s u : State) (t : Nat) (f : Func) (b lines left : Nat), u = s.tick t → u.takesWrite f (dbOff b 0x34) = true →
    left = u.cleared DB_OC_OC b 0 lines →
    exec (.dbOc t f b lines) s = .next ((u.wr DB_OC_OC b left).setBank b fun d => { d with ocWait := d.ocWait ||| clearMask (u.rd DB_OC_OC b) left }))
  ∧ (∀ (s u : State) (t : Nat) (b line g : Nat) (w x : State), u = s.tick t → (u.isOut b line = true ∨ u.isPps b line = true) →
    bitAt (u.rd DB_OC_OC b) line = false → w = ((u.evt DB_OC_OC b line).evt DB_EVT_EVT b 2).refreshDrive b →
    g = bitsOf (w.rdA DB_GRANT_TENANT b (line / 3)) (8 * (line % 3)) 8 → x = w.eventLim (w.rd DB_OWNER_TENANT b) 0x0612 b (leBytes 2 (2 ^ line)) →
    exec (.overcurrent t b line) s = .next (if bitAt (x.rd DB_GRANTV_VALID b) line = true ∧ g ≠ w.rd DB_OWNER_TENANT b
      then x.eventLim g 0x0612 b (leBytes 2 (2 ^ line)) else x))

/-- Loss and return of a bank's field supply. At loss VF_OK clears, the bank goes down with its staged values applied, DB_EVT bit 0 is set and the owner
has a field-supply event; at return VF_OK is set, every input takes a new reference, DB_EVT bit 1 is set, the drive is worked out again and the
owner has the event. A loss of an absent supply and a return of a present one change nothing. -/
def Obligations.FieldSupply : Prop :=
  (∀ (s u : State) (t : Nat) (b : Nat) (w : State), u = s.tick t → u.flag DB_STAT_VF_OK b = true →
    w = (((u.put DB_STAT_VF_OK b false).bankDown b).applyBank b).evt DB_EVT_EVT b 0 →
    exec (.vfLost t b) s = .next (w.eventLim (w.rd DB_OWNER_TENANT b) 0x0611 b [0]))
  ∧ (∀ (s u : State) (t : Nat) (b : Nat) (w : State), u = s.tick t → u.flag DB_STAT_VF_OK b = false →
    w = (((u.put DB_STAT_VF_OK b true).setBank b fun d => { d with refDue := 65535, runs := [] }).evt DB_EVT_EVT b 1) →
    exec (.vfRet t b) s = .next ((w.refreshDrive b).eventLim (w.rd DB_OWNER_TENANT b) 0x0611 b [1]))
  ∧ (∀ (s u : State) (t : Nat) (b : Nat) (i : Instr), u = s.tick t →
    ((i = .vfLost t b ∧ u.flag DB_STAT_VF_OK b = false) ∨ (i = .vfRet t b ∧ u.flag DB_STAT_VF_OK b = true)) → exec i s = .next u)

/-- Cells, requests and responses on the ring. A cell that its ring port accepts goes by its type. A READ, MBOX_WRITE or DCMD request that waits in the
sink is served from it. One that arrives now and is accepted goes back where it did not arrive on the forward traffic, completes its own request
with the status NO_TARGET at its source, is counted in RG_RX and served at its target, is removed at the hop limit, and is forwarded elsewhere. An
accepted response goes back likewise, ends its request at its destination, is removed at its source and at the hop limit, and is forwarded
elsewhere. A cell not accepted has no effect but its acknowledgement. -/
def Obligations.RingCells : Prop :=
  (∀ (s u : State) (t : Nat) (port : Nat) (c : Cell) (w : State) (ok : Bool), u = s.tick t → isRingPort port = true → w = (u.accept port c).1 →
    ok = (u.accept port c).2 → exec (.cellReceive t port c) s = .next (if ok then w.routeCell port c else w))
  ∧ (∀ (s u : State) (t : Nat) (port : Nat) (c q : Cell) (i : Instr) (w : State), u = s.tick t →
    ((c.op = 1 ∧ i = .cellRead t port c) ∨ (c.op = 2 ∧ i = .mboxWrite t port c) ∨ (c.op = 3 ∧ i = .dcmd t port c)) →
    (u.ring_.sink.find? (fun x => x.src == c.src && x.tag == c.tag && x.op == c.op) = some q) →
    w = ({ u with ring_ := { u.ring_ with sink := u.ring_.sink.filter fun x => !(x.src == c.src && x.tag == c.tag && x.op == c.op) } }) →
    exec i s = .next (w.serve (some (ringOf port)) q))
  ∧ (∀ (s u : State) (t : Nat) (port : Nat) (c : Cell) (i : Instr) (w : State), u = s.tick t →
    ((c.op = 1 ∧ i = .cellRead t port c) ∨ (c.op = 2 ∧ i = .mboxWrite t port c) ∨ (c.op = 3 ∧ i = .dcmd t port c)) →
    (u.ring_.sink.find? (fun x => x.src == c.src && x.tag == c.tag && x.op == c.op) = none) → w = (u.accept port c).1 →
    (u.accept port c).2 = true → c.typ = 1 →
    exec i s = .next (if w.isForward port = false then w.passBack port c else if c.src = w.node then w.completeCtx c.tag 7 0 0 []
      else if c.dst = w.node then (w.bump RG_RX_REQ_COUNT 0).serve (some (ringOf port)) c
      else if c.hops + 1 ≥ 500 then w.hopLimit (ringOf port) c else w.forward port c))
  ∧ (∀ (s u : State) (t : Nat) (port : Nat) (c : Cell) (w : State), u = s.tick t → c.typ = 2 → w = (u.accept port c).1 →
    (u.accept port c).2 = true →
    exec (.rsp t port c) s = .next (if w.isForward port = false then w.passBack port c else if c.dst = w.node then w.takeRsp c
      else if c.src = w.node then w else if c.hops + 1 ≥ 500 then w.hopLimit (ringOf port) c else w.forward port c))
  ∧ (∀ (s u : State) (t : Nat) (port : Nat) (c : Cell) (i : Instr), u = s.tick t →
    ((c.op = 1 ∧ i = .cellRead t port c) ∨ (c.op = 2 ∧ i = .mboxWrite t port c) ∨ (c.op = 3 ∧ i = .dcmd t port c) ∨ (c.typ = 2 ∧ i = .rsp t port c)) →
    (u.ring_.sink.find? (fun x => x.src == c.src && x.tag == c.tag && x.op == c.op) = none) → (u.accept port c).2 = false →
    exec i s = .next (u.accept port c).1)

/-- MEMBER, CONSENT, COMMIT and DELAY cells. An accepted MEMBER or COMMIT cell that arrived on the forward traffic acts at the node, then is removed at
its source and at the hop limit and is forwarded elsewhere; otherwise it goes back. An accepted CONSENT cell is marked and wakes the node from
fabric sleep; at its source it ends the round. An accepted DELAY cell belongs to the link's delay exchange. A cell not accepted has no effect but
its acknowledgement. With an image, the node sends its own MEMBER cell on every ring that is on. A member last heard on a ring 4 ms ago is forgotten
there. -/
def Obligations.RingBroadcasts : Prop :=
  (∀ (s u : State) (t : Nat) (port : Nat) (c : Cell) (i : Instr) (w x : State), u = s.tick t →
    ((c.typ = 4 ∧ i = .member t port c) ∨ (c.typ = 6 ∧ i = .commit t port c)) → w = (u.accept port c).1 → (u.accept port c).2 = true →
    x = (if c.typ = 4 then w.heardMember (ringOf port) c else w.takeCommit) →
    exec i s = .next (if w.isForward port = false then w.passBack port c else if c.src = x.node then x
      else if c.hops + 1 ≥ 500 then x.hopLimit (ringOf port) c else x.forward port c))
  ∧ (∀ (s u : State) (t : Nat) (port : Nat) (c x : Cell) (w v : State), u = s.tick t → c.typ = 5 → w = (u.accept port c).1 →
    (u.accept port c).2 = true → x = w.consentMark c → v = w.leaveFabricSleep 1 →
    exec (.consent t port c) s = .next (if w.isForward port = false then w.passBack port c else if c.src = v.node then v.roundBack x
      else if c.hops + 1 ≥ 500 then v.hopLimit (ringOf port) c else v.forward port x))
  ∧ (∀ (s u : State) (t : Nat) (port : Nat) (c : Cell) (w : State), u = s.tick t → c.typ = 7 → w = (u.accept port c).1 →
    (u.accept port c).2 = true → exec (.delayCell t port c) s = .next (w.delayIn port c))
  ∧ (∀ (s u : State) (t : Nat) (port : Nat) (c : Cell) (i : Instr), u = s.tick t →
    ((c.typ = 4 ∧ i = .member t port c) ∨ (c.typ = 5 ∧ i = .consent t port c) ∨ (c.typ = 6 ∧ i = .commit t port c) ∨
      (c.typ = 7 ∧ i = .delayCell t port c)) → (u.accept port c).2 = false → exec i s = .next (u.accept port c).1)
  ∧ (∀ (s u : State) (t : Nat), u = s.tick t → u.noImage = false →
    exec (.memberSend t) s = .next (([0, 1].filter fun r => u.ringOn r).foldl (fun (y : State) r => (y.insertCell r (y.memberCell r)).1) u))
  ∧ (∀ (s u : State) (t : Nat) (node : Nat), u = s.tick t →
    exec (.memberTimeout t node) s = .next (u.memberGone node fun h => decide (h ≠ 0 ∧ h + 4 * tqPerMs ≤ u.now + 1)))

/-- Messages on a lane. Every message counts as a sign of life of its lane. On a lane in UP an ACK drops the acknowledged cells from the retry buffer
and lets more cells leave; on a pair link the mirror records they carried are acknowledged. A NAK, and the acknowledgement timeout of the oldest
cell after 2 us, send the buffer again from the cell named and look at the send limit. CREDIT returns 1 to 16 slots of a channel, up to 16 in all.
An IDENT word is kept; in UP a changed one is a link loss with reason 6; in IDENT and HELD the twelfth completes the identification. WRAPNOTE
records the wrap of a known neighbour on the port's ring. KEEP lets waiting cells leave. -/
def Obligations.LinkMessages : Prop :=
  (∀ (s u : State) (t : Nat) (port v : Nat) (w x : State) (gone : List HeldCell), u = s.tick t → w = u.heard port → w.lstate port = 4 →
    gone = ackedPart (w.lp port).buf (v % 4096) → x = (w.setLp port fun p => { p with buf := p.buf.drop gone.length }) →
    exec (.ack t port v) s = .next (if isRingPort port then x.pump port pumpMax else
      (x.ackMirror port gone).pumpMirror port [] (x.ackMirror port gone).pair.buf))
  ∧ (∀ (s u : State) (t : Nat) (port v : Nat), u = s.tick t → (u.heard port).lstate port = 4 →
    exec (.nak t port v) s = .next (((u.heard port).replay port (v % 4096)).checkSends port))
  ∧ (∀ (s u : State) (t : Nat) (port vc n : Nat), u = s.tick t → (u.heard port).lstate port = 4 → 1 ≤ n → n ≤ 16 →
    exec (.credit t port vc n) s = .next (((u.heard port).setLp port fun p => if vc = 0 then { p with cred0 := min 16 (p.cred0 + n) } else
      { p with cred1 := min 16 (p.cred1 + n) }).pump port pumpMax))
  ∧ (∀ (s u : State) (t : Nat) (port i v : Nat) (u1 w : State), u = s.tick t → i < 12 → u1 = (u.retryDue port).heard port →
    w = (if isRingPort port then u1.wrA RL_NB_IDENT port i v else u1.wrA PL_NB_IDENT (port - 4) i v) → w.lstate port = 4 →
    exec (.ident t port i v) s = .next (if u1.nb port i ≠ v % 65536 then w.loseLink port 6 else w))
  ∧ (∀ (s u : State) (t : Nat) (port i v : Nat) (u1 w x : State), u = s.tick t → i < 12 → u1 = (u.retryDue port).heard port →
    w = (if isRingPort port then u1.wrA RL_NB_IDENT port i v else u1.wrA PL_NB_IDENT (port - 4) i v) → (w.lstate port = 3 ∨ w.lstate port = 5) →
    x = (w.setLp port fun p => { p with ident := tset none p.ident i (some (v % 65536)) }) →
    exec (.ident t port i v) s = .next (if (x.lp port).ident.length = 12 then
      (x.setLp port fun p => { p with ident := [] }).identified port else x))
  ∧ (∀ (s u : State) (t : Nat) (port : Nat), u = s.tick t →
    exec (.keep t port) s = .next ((u.heard port).pump port (if isRingPort port then pumpMax else 0)))
  ∧ (∀ (s u : State) (t : Nat) (port v node : Nat) (w : State) (g : Member → Member), u = s.tick t → isRingPort port = true → w = u.heard port →
    w.lstate port = 4 → node = w.nb port 8 % 256 → node ≠ 0 →
    g = (fun m => if ringOf port = 0 then { m with wrapA := bitAt v 0 } else { m with wrapB := bitAt v 0 }) →
    exec (.wrapnote t port v) s = .next { w with ring_ := { w.ring_ with members := tupd {} w.ring_.members node g } }.refreshRings)
  ∧ (∀ (s u : State) (t : Nat) (port : Nat) (h : HeldCell) (rest : List HeldCell), u = s.tick t → (u.lp port).buf = h :: rest → u.lstate port = 4 →
    h.at_ + 2 * tqPerUs ≤ u.now → exec (.ackTimeout t port) s = .next ((u.replay port h.lseq).checkSends port))

/-- The link ports' state machine. A link loss that the receiver finds, without a message only after 16 us of silence, notes what the receiver saw and
loses the link with its reason; served RETRAIN loses it with reason 5. At a port not in UP the loss leaves the port as it is. Block lock held in
DOWN, with the board on and an image active, starts identification: LOCK 1, RFAULT and HIBER 0, state IDENT, the IDENT words sent. The retry timer's
end moves HELD or REJECTED to DOWN, HELD with its cells aborted; served FORGET does the same at a ring port in HELD, and at no other. -/
def Obligations.LinkPorts : Prop :=
  (∀ (s u : State) (t : Nat) (port reason : Nat) (hiber : Bool), u = s.tick t →
    (reason = 1 ∨ (reason = 2 ∧ (u.lp port).lastMsg + 16 * tqPerUs ≤ u.now) ∨ reason = 3) →
    exec (.linkLoss t port ⟨reason, hiber⟩) s = .next ((u.receiverLost port reason hiber).loseLink port reason))
  ∧ (∀ (s u : State) (t : Nat) (f : Func) (port : Nat), u = s.tick t → u.takesWrite f (linkCmdOff port) = true →
    exec (.retrain t f port) s = .next (u.loseLink port 5))
  ∧ (∀ (s u : State) (t : Nat) (port reason : Nat), u = s.tick t → u.lstate port ≠ 4 → u.loseLink port reason = u)
  ∧ (∀ (s u : State) (t : Nat) (port : Nat) (w : State), u = s.tick t → u.lstate port = 1 → u.sys.down = false → u.noImage = false →
    w = (if isRingPort port then ((u.put RL_STAT_LOCK port true).put RL_STAT_RFAULT port false).put RL_STAT_HIBER port false
      else ((u.put PL_STAT_LOCK (port - 4) true).put PL_STAT_RFAULT (port - 4) false).put PL_STAT_HIBER (port - 4) false) →
    exec (.blockLockHeld t port) s = .next (((w.setLp port fun p => { p with ident := [], heldId := [], rxExp := 0 }).setLstate port 3).sendIdent port))
  ∧ (∀ (s u : State) (t : Nat) (port a : Nat), u = s.tick t → (u.lp port).retryAt = some a → a ≤ u.now →
    exec (.retryTimerExpiry t port) s = .next (u.retryEnd port))
  ∧ (∀ (s u : State) (t : Nat) (f : Func) (port : Nat), u = s.tick t → u.takesWrite f (linkCmdOff port) = true →
    exec (.forget t f port) s = .next (if isRingPort port ∧ u.lstate port = 5 then u.retryEnd port else u))
  ∧ (∀ (s u : State) (t : Nat) (port : Nat), u = s.tick t → u.lstate port = 6 →
    u.retryEnd port = (u.setLp port fun p => { p with retryAt := none }).setLstate port 1)

/-- The remote window, request timeouts and sleep rounds. A served write of RR_CTL keeps NOTE, COUNT and an OP that the field accepts. With GO 1 an idle
window clears OVR, sets BUSY and sends its request; a busy one sets OVR and sends nothing; without GO nothing more happens. A request not answered
within RTMO us of its insertion completes with the status TIMEOUT. Served START of the ring owner begins a sleep round, that of another tenant has
no effect; the round ends with RESULT 4 when its time has passed. -/
def Obligations.RemoteRequests : Prop :=
  (∀ (s u : State) (t : Nat) (f : Func) (v k : Nat) (x w : State), u = s.tick t → u.takesWrite f 0xC3008 = true → k = u.tn f →
    x = (u.put RR_CTL_NOTE k (bitAt v 22)).wr RR_CTL_COUNT k (bitsOf v 16 5) →
    w = (if accepts RR_CTL_OP (bitsOf v 0 4) then x.wr RR_CTL_OP k (bitsOf v 0 4) else x) →
    exec (.remoteGo t f v) s = .next (if bitAt v 23 = false then w else if w.flag RR_RES_BUSY k then w.put RR_RES_OVR k true
      else ((w.put RR_RES_OVR k false).put RR_RES_BUSY k true).windowGo k))
  ∧ (∀ (s u : State) (t : Nat) (tag a : Nat) (c : Ctx), u = s.tick t → (u.ring_.ctx.find? (fun c => c.tag == tag) = some c) → c.at_ = some a →
    a + u.rd RG_RTMO_RTMO 0 * tqPerUs ≤ u.now → exec (.requestTimeout t tag) s = .next (u.completeCtx tag 8 0 0 []))
  ∧ (∀ (s u : State) (t : Nat) (f : Func), u = s.tick t → u.takesWrite f 0xC0100 = true →
    exec (.sleepStart t f) s = .next (if u.tn f = u.rd RG_CFG_RGOWNER 0 then u.beginRound else u))
  ∧ (∀ (s u : State) (t : Nat) (r : SleepRound), u = s.tick t → u.ring_.sleep = some r → r.by_ ≤ u.now →
    exec (.sleepRoundTimeout t) s = .next (u.endSleepRound 4 0 0))

/-- Gather starts, schedules and reduction. A served write of GT_START starts its group by doorbell for its tenant at the present time, advances SEQ and
reports the code in GT_SRES. A group with scheduled starts granted starts with trigger 1 at a schedule time reached since the last. The next element
of a running group, its status in hand, is reduced: one of status 0 is folded into the accumulator and counted, another is marked in the fault mask,
a saturation is noted, and after the last element the run ends. -/
def Obligations.Gathers : Prop :=
  (∀ (s u : State) (t : Nat) (f : Func) (g k code : Nat) (w : State), u = s.tick t → u.takesWrite f 0x91000 = true → k = u.tn f →
    w = (u.gatherStart (g % 1024) 0 (some k) false u.ns u.frac u.epoch8).1 →
    code = (u.gatherStart (g % 1024) 0 (some k) false u.ns u.frac u.epoch8).2 →
    exec (.gtStart t f g) s = .next ((w.wr GT_SRES_SEQ k (w.rd GT_SRES_SEQ k + 1)).wr GT_SRES_RESULT k code))
  ∧ (∀ (s u : State) (t : Nat) (g x : Nat) (d : GtDef) (w : State), u = s.tick t → u.groupDef g = some d → d.grant 1 = true →
    schedIn d (tget 0 u.gt.schedNs g) u.ns = some x → w = { u with gt := { u.gt with schedNs := tset 0 u.gt.schedNs g x } } →
    exec (.gatherSchedule t g) s = .next (w.gatherStart g 1 none false x 0 w.epoch8).1)
  ∧ (∀ (s u : State) (t : Nat) (g st v : Nat) (r r' : GtRun) (f : Int × Bool) (w z : State), u = s.tick t →
    (u.gt.runs.find? (fun x => x.start.group == g) = some r) → r.elems[r.done]? = some (some (st, v)) →
    f = (if st = 0 then r.fold r.done v else (r.acc, false)) →
    r' = { r with done := r.done + 1, acc := f.1, sat := r.sat || f.2, incl := (if st = 0 then r.incl + 1 else r.incl), fmask := (if st = 0 then r.fmask else setBitAt r.fmask r.done) } →
    w = (if f.2 then u.noteSat r' else u) →
    z = ({ w with gt := { w.gt with runs := w.gt.runs.map fun x => if x.start.group == r.start.group then r' else x } }) →
    exec (.gatherElementReduce t g) s = .next (if r'.start.gdef.nel ≤ r'.done then z.endRun r' else z))

/-- Heartbeats, paths, contest and the Clove. A paired unit sends a heartbeat on each pair link and probes its partner over the ring. One accepted on an
up pair link counts in PL_HBRX and is taken, and may set the time; one not accepted is not taken; a ring probe's is taken from a unit that has no
partner yet, else the probe counts alone. 750 us without one on a path that was OK, none waiting at this instant, clear its flag, count, set PR_EVT
bit 4 and tell the owner, and the loss of the last path is a pair loss. An expired join, a closed contest (after the Cloves of the instant) and 30
ms of isolation without a Clove move the unit's state on. An acting unit without a path sends its Clove every 10 ms. A mirroring unit takes the
records of an accepted MIRROR cell. -/
def Obligations.PairTimers : Prop :=
  (∀ (s u : State) (t : Nat) (w x : State), u = s.tick t → u.flag PR_CFG_PAIRED 0 = true → w = (u.sendPair 4 (.hb u.ownHeartbeat)).1 →
    x = (w.sendPair 5 (.hb w.ownHeartbeat)).1 →
    exec (.hbSend t) s = .next (x.request .probe 3 0 1 (x.rd PR_CFG_PNODE 0 * 2 ^ 24 + 2 * 2 ^ 20) (readBody 1)))
  ∧ (∀ (s u : State) (t : Nat) (path : Nat) (x : LaneCell) (hb : Heartbeat) (w : State) (ok : Bool), u = s.tick t → path < 2 →
    u.flag PR_CFG_PAIRED 0 = true → w = (u.acceptLane (4 + path) x).1 → ok = (u.acceptLane (4 + path) x).2 →
    exec (.hb t path ⟨x, hb⟩) s = .next (if ok then ((w.bump PL_HBRX_COUNT path).heartbeat path (some hb)).pairTime hb else w))
  ∧ (∀ (s u : State) (t : Nat) (x : LaneCell) (hb : Heartbeat), u = s.tick t → u.flag PR_CFG_PAIRED 0 = true →
    exec (.hb t 2 ⟨x, hb⟩) s = .next (u.heartbeat 2 (if u.pair.partner.isNone then some hb else none)))
  ∧ (∀ (s u : State) (t : Nat) (path : Nat) (w : State), u = s.tick t → path ≤ 2 → u.flag (pathFlag path) 0 = true →
    u.lastHb path + 750 * tqPerUs ≤ u.now → u.hbNow path = false → w = (((u.put (pathFlag path) 0 false).bump PR_HBMISS_COUNT 0).prEvt 4) →
    exec (.pathTimeout t path) s = .next (if (w.eventLim w.pairOwner 0x0902 path [1]).anyPath ∨ [0, 1, 2].any (w.eventLim w.pairOwner 0x0902 path [1]).hbNow
      then w.eventLim w.pairOwner 0x0902 path [1] else (w.eventLim w.pairOwner 0x0902 path [1]).pairLoss))
  ∧ (∀ (s u : State) (t : Nat) (a : Nat), u = s.tick t → u.pair.joinBy = some a → u.prState = prJoining → a ≤ u.now →
    exec (.joinTimeout t) s = .next u.startContest)
  ∧ (∀ (s u : State) (t : Nat) (d : Nat), u = s.tick t → u.pair.contestD = some d → u.prState = prContest → d + 800 * tqPerUs ≤ u.now →
    [0, 1, 2].any u.hbNow = false → exec (.contestClose t) s = .next u.clovesNow.closeContest)
  ∧ (∀ (s u : State) (t : Nat), u = s.tick t → u.prState = prStandby → u.flag PR_STAT_ISOL 0 = true → u.pair.cloveSeen + 30 * tqPerMs ≤ u.now →
    exec (.isolationTimeout t) s = .next u.startContest)
  ∧ (∀ (s u : State) (t : Nat), u = s.tick t → u.flag PR_CFG_PAIRED 0 = true → u.flag PR_STAT_ACTING 0 = true → u.anyPath = false →
    u.prState ≠ prContest → u.pair.cloveSent + 10 * tqPerMs ≤ u.now →
    exec (.clovePeriodic t) s = .next (u.setPair fun x => { x with cloveSent := u.now }).sendClove)
  ∧ (∀ (s u : State) (t : Nat) (port : Nat) (x : LaneCell) (recs : List MirrorRec) (w : State), u = s.tick t → (port = 4 ∨ port = 5) →
    w = (u.acceptLane port x).1 → (u.acceptLane port x).2 = true → w.mirrors = true →
    exec (.mirrorRecs t ⟨port, x, recs⟩) s = .next (w.takeRecords recs))

/-- Resynchronisation and the planned swap. An accepted SNAP cell at a mirroring, SYNCING unit applies its records; the last one then sets MIRROR_OK and
PR_EVT bit 6, tells the pair owner the MSEQ and moves the unit to STANDBY. A served SWAP shows its RESULT and advances CMD_SEQ; a possible one
(RESULT 0) opens the swap, sets SWAPPING and lets every port settle. Once every port has stopped, the handover record and the SWAP cell go to each
pair link, and the swap is sent if a SWAP cell went out. An accepted SWAP cell at a mirroring, STANDBY unit applies its records, refuses a handover
record it cannot read, raises its epoch and makes it ACTIVE. A cell that its link does not accept does no more. -/
def Obligations.PairSwap : Prop :=
  (∀ (s u : State) (t : Nat) (port : Nat) (x : LaneCell) (recs : List MirrorRec) (w : State), u = s.tick t → (port = 4 ∨ port = 5) →
    w = (u.acceptLane port x).1 → (u.acceptLane port x).2 = true → w.mirrors = true → w.prState = prSyncing →
    exec (.snapRecs t ⟨port, x, recs⟩ false) s = .next (recs.foldl (fun (y : State) (r : MirrorRec) => y.applyRecord r.body) w))
  ∧ (∀ (s u : State) (t : Nat) (port : Nat) (x : LaneCell) (recs : List MirrorRec) (w v : State), u = s.tick t → (port = 4 ∨ port = 5) →
    w = (u.acceptLane port x).1 → (u.acceptLane port x).2 = true → w.mirrors = true → w.prState = prSyncing →
    v = (((recs.foldl (fun (y : State) (r : MirrorRec) => y.applyRecord r.body) w).put PR_STAT_MIRROR_OK 0 true).prEvt 6) →
    exec (.snapRecs t ⟨port, x, recs⟩ true) s = .next ((v.eventLim v.pairOwner 0x0904 0 (1 :: leBytes 3 (v.rd PR_MSEQ_MSEQ 0))).role prStandby 1))
  ∧ (∀ (s u : State) (t : Nat) (f : Func) (w x : State), u = s.tick t → u.takesWrite f 0xB000C = true → u.swapResult = 0 →
    w = (u.wr PR_CMDRES_RESULT 0 0).wr PR_CMDRES_CMD_SEQ 0 (u.rd PR_CMDRES_CMD_SEQ 0 + 1) →
    x = ((w.setPair fun y => { y with swap := some { round := w.pair.nextSwap, at_ := w.now }, nextSwap := (y.nextSwap + 1) % 256 })) →
    exec (.swap t f) s = .next ((List.range 64).foldl (fun (y : State) p => y.settlePort p) (x.put PR_STAT_SWAPPING 0 true)))
  ∧ (∀ (s u : State) (t : Nat) (f : Func) (r : Nat), u = s.tick t → u.takesWrite f 0xB000C = true → u.swapResult = r → r ≠ 0 →
    exec (.swap t f) s = .next ((u.wr PR_CMDRES_RESULT 0 r).wr PR_CMDRES_CMD_SEQ 0 (u.rd PR_CMDRES_CMD_SEQ 0 + 1)))
  ∧ (∀ (s u : State) (t : Nat) (y : SwapSt) (i ho : PairItem) (w x : State) (a b : Bool), u = s.tick t → u.pair.swap = some y → y.sent = false →
    64 ≤ y.stopped.length → i = PairItem.swap ((u.rd PR_MSEQ_MSEQ 0 + 2 ^ 24 - 1) % 2 ^ 24) y.round → ho = PairItem.handover u.swapRecord →
    w = ((u.sendPair 4 ho).1.sendPair 4 i).1 → a = ((u.sendPair 4 ho).1.sendPair 4 i).2 → x = ((w.sendPair 5 ho).1.sendPair 5 i).1 →
    b = ((w.sendPair 5 ho).1.sendPair 5 i).2 →
    exec (.swapPortsStopped t) s = .next (if a ∨ b then x.setPair fun z => { z with swap := some { y with sent := true } } else x))
  ∧ (∀ (s u : State) (t : Nat) (port epoch : Nat) (x : LaneCell) (recs : List MirrorRec) (record : List Byte) (w y v : State), u = s.tick t →
    (port = 4 ∨ port = 5) → w = (u.acceptLane port x).1 → (u.acceptLane port x).2 = true → w.mirrors = true → w.prState = prStandby →
    y = w.takeRecords recs →
    v = (if recordRefused (y.rd CU_RUN1_SCHEMA_MIN 0) (y.rd CU_RUN0_SCHEMA 0) y.img.hash record then y.refuseSwap else y) →
    exec (.swapCell t epoch ⟨port, x, recs, record⟩) s = .next ((v.wr PR_EPOCH_EPOCH 0 (max (v.rd PR_EPOCH_EPOCH 0) epoch)).role prActive 5))
  ∧ (∀ (s u : State) (t : Nat) (port epoch : Nat) (x : LaneCell) (recs : List MirrorRec) (last : Bool) (record : List Byte) (i : Instr),
    u = s.tick t → (i = .snapRecs t ⟨port, x, recs⟩ last ∨ i = .mirrorRecs t ⟨port, x, recs⟩ ∨ i = .swapCell t epoch ⟨port, x, recs, record⟩) →
    (port = 4 ∨ port = 5) → (u.acceptLane port x).2 = false → exec i s = .next (u.acceptLane port x).1)

/-- The interrupt controller's source and target commands. With the Interrupt domain on a source's input takes its driving level, with it off nothing is
sensed. Served IC_SETB and IC_CLRB set or clear P of every source of the writer that their bits name; IC_SETN sets P of the one own source named,
with PRI 0 nothing; IC_CLRN clears P of the own source named, unless an event of this instant set it; neither touches another's source. IC_CLAIM of
a target of the function returns what its claim gives, of any other vector 0. IC_COMPLETE finishes the source at a target of the function, else
nothing. IC_SRC of an own source is written, of another not. IC_TCFG of a target of the function takes COAL and THR, and CNT unless 0, closes the
window without COAL, and arms; of another vector it does nothing. A coalescing window that has lasted TIME us closes and releases the message of a
deliverable, armed target. -/
def Obligations.SourceCommands : Prop :=
  (∀ (s u : State) (t : Nat) (src : Nat), u = s.tick t → exec (.sourceInputChange t src) s = .next (if u.domOn 138 then u.inputChange src else u))
  ∧ (∀ (s u : State) (t : Nat) (f : Func) (i v : Nat), u = s.tick t → u.takesWrite f (icOff 0 (4 * i)) = true →
    exec (.icSetb t f i v) s = .next (u.eachBit (u.tn f) i v State.setPend))
  ∧ (∀ (s u : State) (t : Nat) (f : Func) (i v : Nat), u = s.tick t → u.takesWrite f (icOff 0 (0x100 + 4 * i)) = true →
    exec (.icClrb t f i v) s = .next (u.eachBit (u.tn f) i v State.clrPend))
  ∧ (∀ (s u : State) (t : Nat) (f : Func) (v k : Nat), u = s.tick t → u.takesWrite f (icOff 0 0x1E0) = true → k = v % 1024 →
    exec (.icSetn t f v) s = .next (if u.srcOwner k = some (u.tn f) ∧ u.rdA IC_SRC_PRI 0 k ≠ 0 then (u.wrA IC_SRC_P 0 k 1).settleAll k else u))
  ∧ (∀ (s u : State) (t : Nat) (f : Func) (v k : Nat), u = s.tick t → u.takesWrite f (icOff 0 0x1E4) = true → k = v % 1024 →
    exec (.icClrn t f v) s = .next (if u.srcOwner k = some (u.tn f) ∧ u.justSet (IC_SRC_P.key 0 k) 0 = false then (u.wrA IC_SRC_P 0 k 0).settleAll k else u))
  ∧ (∀ (s u : State) (t : Nat) (f : Func) (vec g : Nat), u = s.tick t → u.takesRead f (icOff 3 (vec * 0x20 + 8)) = true →
    u.targetOf f vec = some g → exec (.icClaim t f vec) s = .next ((u.claim g).1.emit (.readDone f (icOff 3 (vec * 0x20 + 8)) [(u.claim g).2])))
  ∧ (∀ (s u : State) (t : Nat) (f : Func) (vec : Nat), u = s.tick t → u.takesRead f (icOff 3 (vec * 0x20 + 8)) = true → u.targetOf f vec = none →
    exec (.icClaim t f vec) s = .next (u.emit (.readDone f (icOff 3 (vec * 0x20 + 8)) [0])))
  ∧ (∀ (s u : State) (t : Nat) (f : Func) (vec v g : Nat), u = s.tick t → u.takesWrite f (icOff 3 (vec * 0x20 + 0xC)) = true →
    u.targetOf f vec = some g → exec (.icComplete t f vec v) s = .next (u.finish (u.tn f) g (v % 1024)))
  ∧ (∀ (s u : State) (t : Nat) (f : Func) (vec v off : Nat) (i : Instr), u = s.tick t →
    ((i = .icComplete t f vec v ∧ off = vec * 0x20 + 0xC) ∨ (i = .icTcfg t f vec v ∧ off = vec * 0x20)) → u.takesWrite f (icOff 3 off) = true →
    u.targetOf f vec = none → exec i s = .next u)
  ∧ (∀ (s u : State) (t : Nat) (f : Func) (src v : Nat), u = s.tick t → u.takesWrite f (icOff (1 + src / 512) (4 * (src % 512))) = true →
    exec (.icSrc t f src v) s = .next (if u.srcOwner src = some (u.tn f) then u.writeSrc (u.tn f) src v else u))
  ∧ (∀ (s u : State) (t : Nat) (f : Func) (vec v g : Nat) (w x y : State), u = s.tick t → u.takesWrite f (icOff 3 (vec * 0x20)) = true →
    u.targetOf f vec = some g → w = (if bitsOf v 8 8 = 0 then u else u.wr IC_TCFG_CNT g (bitsOf v 8 8)) →
    x = (w.put IC_TCFG_COAL g (bitAt v 4)).wr IC_TCFG_THR g (bitsOf v 0 4) → y = (if bitAt v 4 then x else x.setWindow g none) →
    exec (.icTcfg t f vec v) s = .next (y.rearm g))
  ∧ (∀ (s u : State) (t : Nat) (g : Nat) (x : WinSt) (w : State), u = s.tick t → u.window g = some x →
    x.at_ + u.rd IC_TTIME_TIME g * 1000 * ivlNs ≤ u.time.ivl → w = u.setWindow g none →
    exec (.coalesceTimeout t g) s = .next (if w.deliverable g ∧ w.flag IC_TSTAT_ARMED g then w.release g else w))

/-- The end of a hold. The end of a hold of a mapped target ends that hold: the vector's Mask, the Function Mask, MSI-X disabled, bus mastering off,
D3hot, or the link's L1 with WAKE of its targets. The targets it held are judged; with bus mastering or D0 back the function's held completions and
records move on first. At a target that is not mapped it has no effect. -/
def Obligations.HoldEnds : Prop :=
  (∀ (s u : State) (t : Nat) (g : Nat) (h : HoldEnd), u = s.tick t → u.targetFunc g = none → exec (.holdEnd t g h) s = .next u)
  ∧ (∀ (s u : State) (t : Nat) (g : Nat) (f : Func), u = s.tick t → u.targetFunc g = some f →
    exec (.holdEnd t g .unmask) s = .next ((u.setFunc f fun x => { x with msix := tupd {} x.msix (u.vecOf g) fun e => { e with mask := false } }).judge g))
  ∧ (∀ (s u : State) (t : Nat) (g : Nat) (f : Func), u = s.tick t → u.targetFunc g = some f →
    exec (.holdEnd t g .functionMask) s = .next ((u.setFunc f fun x => { x with fmask := false }).judgeWhere (· == f)))
  ∧ (∀ (s u : State) (t : Nat) (g : Nat) (f : Func), u = s.tick t → u.targetFunc g = some f →
    exec (.holdEnd t g .msixEnable) s = .next ((u.setFunc f fun x => { x with msixEn := true }).judgeWhere (· == f)))
  ∧ (∀ (s u : State) (t : Nat) (g : Nat) (f : Func), u = s.tick t → u.targetFunc g = some f →
    exec (.holdEnd t g .busMaster) s = .next ((u.setFunc f fun x => { x with busMaster := true }).resumeFunc f))
  ∧ (∀ (s u : State) (t : Nat) (g : Nat) (f : Func), u = s.tick t → u.targetFunc g = some f →
    exec (.holdEnd t g .d0) s = .next ((u.setFunc f fun x => { x with d3hot := false }).resumeFunc f))
  ∧ (∀ (s u : State) (t : Nat) (g : Nat) (f : Func) (w : State), u = s.tick t → u.targetFunc g = some f →
    w = (u.setLink f.link fun l => { l with l1 := false, exiting := false }) →
    exec (.holdEnd t g .linkL0) s = .next ((((w.img.targets.filter fun x => x.2.link == f.link).map (·.1)).foldl (fun (y : State) k =>
      y.put IC_TSTAT_WAKE k false) w).judgeWhere fun x => x.link == f.link))

/-- Fault events, rails and causes. An event whose detail is no cause for its source (a rail in its band, a supply, junction or stage time within its
limit, a test source without TEST) changes nothing. Any other event of a powered source 64 to 127 resets that port's queue and the faults it finds
are collected; at an unpowered one it changes nothing. Any other event of source 196 asserts it and fails the nets its detail names; of the
remaining sources it asserts the source with its detail. Equal rails of a powered, defined source that is not set yet set RAILEQ and make an event
of the rail class. A cause of kind E that is not present any more is cleared, and nothing else changes. -/
def Obligations.FaultSources : Prop :=
  (∀ (s u : State) (t : Nat) (src detail : Nat), u = s.tick t → u.detailIsCause src detail = false → exec (.faultEvent t src detail) s = .next u)
  ∧ (∀ (s u : State) (t : Nat) (src detail : Nat), u = s.tick t → u.detailIsCause src detail = true → 64 ≤ src → src < 128 →
    exec (.faultEvent t src detail) s = .next (if u.srcPowered src then (u.queueReset (src - 64)).settleFaults else u))
  ∧ (∀ (s u : State) (t : Nat) (src detail : Nat), u = s.tick t → u.detailIsCause src detail = true → (src < 64 ∨ 128 ≤ src) →
    exec (.faultEvent t src detail) s = .next (if src = 196 then (u.faultAssert src detail).netFail (detail % 16) true else u.faultAssert src detail))
  ∧ (∀ (s u : State) (t : Nat) (src : Nat), u = s.tick t → faultReserved src = false → u.srcPowered src = true → u.rdA FC_SRC_RAILEQ 0 src = 0 →
    exec (.railFault t src) s = .next ((u.wrA FC_SRC_RAILEQ 0 src 1).railEvent src))
  ∧ (∀ (s u : State) (t : Nat) (src : Nat), u = s.tick t → kindL src = false → u.causePresent src = false →
    ∃ v, exec (.causeExpiry t src) s = .next v ∧ v.rdA FC_SRC_CAUSE 0 src = 0 ∧ v = { u with regs := v.regs } ∧ u.regsBut v [FC_SRC_CAUSE.key 0 src])

/-- Taking fault records, clearing and testing groups. A served read of FC_REC_0 returns the first word of the record first in severity order and takes
that record out of the store, its other six words latched for the reader; on an empty store it returns 0, sets UNDER and latches zeros. A served
write of FC_GCLR clears a group of the writer's own; TEST of such a group sets TEST and asserts the group's test source, or clears both. At a group
of another tenant both have no effect. -/
def Obligations.FaultRecords : Prop :=
  (∀ (s u : State) (t : Nat) (f : Func) (r : FaultRec) (w x : State), u = s.tick t → u.takesRead f 0x20004 = true → topRec u.fc.fifo = some r →
    w = (u.setFifo (u.fc.fifo.filter fun x => x.id != r.id)) →
    x = ({ w with host := { w.host with snaps := (List.range 6).foldl (fun ps i => putPart ps f (⟨.fc, 0, 0, 8 + 4 * i, false⟩ : Loc).key (r.words[i]?.getD 0)) w.host.snaps } }) →
    exec (.fcRec0 t f) s = .next (x.emit (.readDone f 0x20004 [r.word0])))
  ∧ (∀ (s u : State) (t : Nat) (f : Func) (w x : State), u = s.tick t → u.takesRead f 0x20004 = true → topRec u.fc.fifo = none →
    w = u.evt FC_FSTAT_UNDER 0 0 →
    x = ({ w with host := { w.host with snaps := (List.range 6).foldl (fun ps i => putPart ps f (⟨.fc, 0, 0, 8 + 4 * i, false⟩ : Loc).key 0) w.host.snaps } }) →
    exec (.fcRec0 t f) s = .next (x.emit (.readDone f 0x20004 [0])))
  ∧ (∀ (s u : State) (t : Nat) (f : Func) (g v : Nat), u = s.tick t → u.takesWrite f (0x21000 + g * 0x20 + 0xC) = true →
    exec (.fcGclr t f g v) s = .next (if g < 16 ∧ u.gOwner g = u.tn f then u.clearGroup g v else u))
  ∧ (∀ (s u : State) (t : Nat) (f : Func) (g : Nat) (on : Bool) (w : State), u = s.tick t → u.takesWrite f (0x21000 + g * 0x20 + 0x14) = true →
    g < 16 → u.gOwner g = u.tn f → w = u.wrA FC_GTEST_TEST 0 g (b2n on) →
    exec (.faultTest t f g on) s = .next (if on then w.faultAssert (240 + g) 0 else w.wrA FC_SRC_CAUSE 0 (240 + g) 0))
  ∧ (∀ (s u : State) (t : Nat) (f : Func) (g : Nat) (on : Bool), u = s.tick t → u.takesWrite f (0x21000 + g * 0x20 + 0x14) = true →
    (16 ≤ g ∨ u.gOwner g ≠ u.tn f) → exec (.faultTest t f g on) s = .next u)

/-- Power domain commands. Every served write of a power command while BUSY only sets OVR. Else it clears OVR and DOMAIN_OFF and DOMAIN_ON are judged in
order: refused with RESULT 1 for no domain, 2 where the tenant may not switch it, 3 with its reason where it may not go off now, 4 where it stands
so already; otherwise the switch begins, with BUSY 1. Its end takes the domain down, or up where its supply is good, counts it in PM_DOMSW and
completes with RESULT 0; one not good completes with 10. -/
def Obligations.PowerDomains : Prop :=
  (∀ (s u : State) (t : Nat) (f : Func) (k d o p : Nat) (i : Instr), u = s.tick t →
    i ∈ [.domainOff t f d, .domainOn t f d, .setOp t f o, .paceCal t f, .sleep t f p, .wake t f p, .vetoSet t f p, .vetoClr t f p, .wakeAck t f p, .fabricWake t f] →
    u.takesWrite f 0x78 = true → k = u.tn f → u.flag TEN_PWR_RES_BUSY k = true → exec i s = .next (u.put TEN_PWR_RES_OVR k true))
  ∧ (∀ (s u : State) (t : Nat) (f : Func) (d k : Nat) (on : Bool) (i : Instr) (w : State), u = s.tick t →
    ((i = .domainOff t f d ∧ on = false) ∨ (i = .domainOn t f d ∧ on = true)) → u.takesWrite f 0x78 = true → k = u.tn f →
    u.flag TEN_PWR_RES_BUSY k = false → w = u.put TEN_PWR_RES_OVR k false → exec i s = .next (if 140 ≤ d then w.domRefused k d 1 0 on
      else if w.domOwner d ≠ some k ∨ bitAt (w.rdA PM_DSW_SW 0 (d / 24)) (d % 24) = false then w.domRefused k d 2 0 on
      else if on = false ∧ w.offReason d ≠ 0 then w.domRefused k d 3 (w.offReason d) on
      else if w.domOn d = on then w.domRefused k d 4 0 on
      else { w with pm := { w.pm with switches := w.pm.switches ++ [(⟨d, on, k, w.now⟩ : DomSwitch)] } }.put TEN_PWR_RES_BUSY k true))
  ∧ (∀ (s u : State) (t : Nat) (d : Nat) (x : DomSwitch), u = s.tick t → (u.pm.switches.find? (fun x => x.domain == d && !x.on) = some x) →
    exec (.domainOffDone t d) s = .next ((((u.endSwitch d false).domDown d).bump PM_DOMSW_COUNT 0).pwrDone x.tenant 0 0))
  ∧ (∀ (s u : State) (t : Nat) (d : Nat) (good : Bool) (x : DomSwitch), u = s.tick t →
    (u.pm.switches.find? (fun x => x.domain == d && x.on) = some x) →
    exec (.domainOnDone t d good) s = .next (if good then (((u.endSwitch d true).domUp d).bump PM_DOMSW_COUNT 0).pwrDone x.tenant 0 0
      else (u.endSwitch d true).pwrDone x.tenant 10 0))

/-- The operating point and the pace monitor. A served SET_OP that finds BUSY 0 completes with its result, and with result 0 moves the operating point
first. A slew that has had its time settles: SLEW 0, VCORE and GOV at their goal, the pace estimate worked out anew, and the owner told. A pace
sample shows itself in PM_TJ, RAW and MAX, the estimate follows it, a running calibration notes a temperature more than 5 degrees away, and source
195 is asserted above the governing point's limit, else its cause ends. PACE_CAL of another than the power owner completes with 2; of the owner it
begins a calibration, with CAL and BUSY 1. Its end after 100 ms clears CAL and completes with 0, the factor of the operating point stored, or with
11 and why not: 10000 frames or more committed, a slew, or the temperature moved. -/
def Obligations.OperatingPoint : Prop :=
  (∀ (s u : State) (t : Nat) (f : Func) (o k r : Nat) (w : State), u = s.tick t → u.takesWrite f 0x78 = true → k = u.tn f →
    u.flag TEN_PWR_RES_BUSY k = false → w = u.put TEN_PWR_RES_OVR k false → r = w.opResult k o →
    exec (.setOp t f o) s = .next ((if r = 0 then w.setOp o else w).pwrDone k r 0))
  ∧ (∀ (s u : State) (t : Nat) (o gap : Nat) (w : State), u = s.tick t → o = u.rd PM_STAT_OP 0 →
    gap = (if u.pm.slewFrom ≥ opMv o then u.pm.slewFrom - opMv o else opMv o - u.pm.slewFrom) → u.flag PM_STAT_SLEW 0 = true →
    u.pm.slewAt * 10 + (gap - 5) * tqPerUs + 20 * tqPerUs ≤ u.now * 10 →
    w = (((u.put PM_STAT_SLEW 0 false).wr PM_STAT_VCORE 0 (opMv o)).wr PM_STAT_GOV 0 o).refreshEst →
    exec (.slewSettled t) s = .next (w.event w.opOwner 0x0C02 o (leBytes 2 ((w.now - w.pm.slewFirst) / tqPerUs))))
  ∧ (∀ (s u : State) (t : Nat) (ps tj gov : Nat) (far : CalSt → Bool) (w x y : State), u = s.tick t → gov = u.rd PM_STAT_GOV 0 →
    w = ((u.wr PM_TJ_TJ 0 tj).wr PM_PACE_RAW_PS 0 ps).wr PM_PACE_MAX_PS 0 (max (u.rd PM_PACE_MAX_PS 0) (ps % 65536)) →
    x = (w.note (PM_PACE_MAX_PS.key 0 0) .largest (ps % 65536)).refreshEst →
    far = (fun c => decide ((fromTwos 16 (x.rd PM_TJ_TJ 0) - fromTwos 16 c.tj).natAbs > 5)) →
    y = ({ x with pm := { x.pm with cal := x.pm.cal.map fun c => { c with moved := c.moved || far c } } }) →
    exec (.paceSample t ps tj) s = .next (if ps % 65536 > stageLimit gov (fromTwos 16 (y.rd PM_TJ_TJ 0)) then y.faultAssert 195 (ps % 65536) else y.wrA FC_SRC_CAUSE 0 195 0))
  ∧ (∀ (s u : State) (t : Nat) (f : Func) (k : Nat) (w x : State), u = s.tick t → u.takesWrite f 0x78 = true → k = u.tn f →
    u.flag TEN_PWR_RES_BUSY k = false → w = u.put TEN_PWR_RES_OVR k false →
    x = { w with pm := { w.pm with cal := some { tenant := k, at_ := w.now, commits := w.commits, tj := w.rd PM_TJ_TJ 0, slewed := w.flag PM_STAT_SLEW 0 } } } →
    exec (.paceCal t f) s = .next (if k = w.pwOwner then (x.put PM_STAT_CAL 0 true).put TEN_PWR_RES_BUSY k true else w.pwrDone k 2 0))
  ∧ (∀ (s u : State) (t : Nat) (factor why : Nat) (c : CalSt) (w x : State), u = s.tick t → u.pm.cal = some c → c.at_ + 100 * tqPerMs ≤ u.now →
    why = (if (u.commits + 2 ^ 26 - c.commits) % 2 ^ 24 ≥ 10000 then 1 else if c.slewed then 2 else if c.moved then 3 else 0) →
    w = ({ u with pm := { u.pm with cal := none } }).put PM_STAT_CAL 0 false →
    x = (if why = 0 then (w.wrA PM_CALF_FACTOR 0 (w.rd PM_STAT_OP 0) factor).refreshEst else w) →
    exec (.paceCalDone t factor) s = .next (x.pwrDone c.tenant (if why = 0 then 0 else 11) why))

/-- Anise commands of a port's owner. A served SLEEP, WAKE, VETO_SET, VETO_CLR or WAKE_ACK that finds BUSY 0 clears OVR and completes: with 1 for no
port, with 2 for a port without Anise or of another owner, else with what the port gives. SLEEP starts a round (0), or gives the bar: 7, 8 or 9.
WAKE wakes a sleeping port (0) and gives 7 at another. VETO_SET and VETO_CLR write the veto (0), or give 4 where it stands so. WAKE_ACK of a woken
port gives 0, and with WGATE ends the wait for its answer; at another port it gives 7. FABRIC_WAKE gives 2 to another than the power owner, 4 where
the fabric does not sleep, else leaves the fabric sleep with 0. -/
def Obligations.AniseCommands : Prop :=
  (∀ (s u : State) (t : Nat) (f : Func) (p k : Nat) (i : Instr) (w : State), u = s.tick t →
    i ∈ [.sleep t f p, .wake t f p, .vetoSet t f p, .vetoClr t f p, .wakeAck t f p] → u.takesWrite f 0x78 = true → k = u.tn f →
    u.flag TEN_PWR_RES_BUSY k = false → w = u.put TEN_PWR_RES_OVR k false →
    (64 ≤ p ∨ w.flag FB_OWNER_VALID p = false ∨ w.fbOwner p ≠ k ∨ w.aniseOn p = false) → exec i s = .next (w.pwrDone k (if 64 ≤ p then 1 else 2) 0))
  ∧ (∀ (s u : State) (t : Nat) (f : Func) (p k : Nat) (w : State), u = s.tick t → u.takesWrite f 0x78 = true → k = u.tn f →
    u.flag TEN_PWR_RES_BUSY k = false → w = u.put TEN_PWR_RES_OVR k false → p < 64 → w.flag FB_OWNER_VALID p = true → w.fbOwner p = k →
    w.aniseOn p = true →
    exec (.sleep t f p) s = .next (if w.roundBar p = 0 then (w.startAnise p false).pwrDone k 0 0 else w.pwrDone k (w.roundBar p) 0))
  ∧ (∀ (s u : State) (t : Nat) (f : Func) (p k : Nat) (w : State), u = s.tick t → u.takesWrite f 0x78 = true → k = u.tn f →
    u.flag TEN_PWR_RES_BUSY k = false → w = u.put TEN_PWR_RES_OVR k false → p < 64 → w.flag FB_OWNER_VALID p = true → w.fbOwner p = k →
    w.aniseOn p = true →
    exec (.wake t f p) s = .next (if w.fstate p = fbAsleep then ((w.wakePort p).wrA PM_PSLP_FSL 0 p 0).pwrDone k 0 0 else w.pwrDone k 7 0))
  ∧ (∀ (s u : State) (t : Nat) (f : Func) (p k : Nat) (w : State), u = s.tick t → u.takesWrite f 0x78 = true → k = u.tn f →
    u.flag TEN_PWR_RES_BUSY k = false → w = u.put TEN_PWR_RES_OVR k false → p < 64 → w.flag FB_OWNER_VALID p = true → w.fbOwner p = k →
    w.aniseOn p = true →
    exec (.vetoSet t f p) s = .next (if w.rdA PM_PSLP_VETO 0 p = 1 then w.pwrDone k 4 0 else (w.wrA PM_PSLP_VETO 0 p 1).pwrDone k 0 0))
  ∧ (∀ (s u : State) (t : Nat) (f : Func) (p k : Nat) (w : State), u = s.tick t → u.takesWrite f 0x78 = true → k = u.tn f →
    u.flag TEN_PWR_RES_BUSY k = false → w = u.put TEN_PWR_RES_OVR k false → p < 64 → w.flag FB_OWNER_VALID p = true → w.fbOwner p = k →
    w.aniseOn p = true →
    exec (.vetoClr t f p) s = .next (if w.rdA PM_PSLP_VETO 0 p = 0 then w.pwrDone k 4 0 else (w.wrA PM_PSLP_VETO 0 p 0).pwrDone k 0 0))
  ∧ (∀ (s u : State) (t : Nat) (f : Func) (p k : Nat) (w : State), u = s.tick t → u.takesWrite f 0x78 = true → k = u.tn f →
    u.flag TEN_PWR_RES_BUSY k = false → w = u.put TEN_PWR_RES_OVR k false → p < 64 → w.flag FB_OWNER_VALID p = true → w.fbOwner p = k →
    w.aniseOn p = true →
    exec (.wakeAck t f p) s = .next (if w.rdA PM_PSLP_ASTATE 0 p ≠ 5 then w.pwrDone k 7 0 else if w.rdA PM_ARD1_WGATE 0 p ≠ 0 then (w.wakeHanded p).pwrDone k 0 0 else w.pwrDone k 0 0))
  ∧ (∀ (s u : State) (t : Nat) (f : Func) (k : Nat) (w : State), u = s.tick t → u.takesWrite f 0x78 = true → k = u.tn f →
    u.flag TEN_PWR_RES_BUSY k = false → w = u.put TEN_PWR_RES_OVR k false →
    exec (.fabricWake t f) s = .next (if k ≠ w.pwOwner then w.pwrDone k 2 0 else if w.flag PM_STAT_FSLEPT 0 = false then w.pwrDone k 4 0
      else (w.leaveFabricSleep 2).pwrDone k 0 0))

/-- The ends of Anise rounds, sleep entry and wakes. In state 2 a round whose query was sent ends with reason 3 a window after it was sent; one whose
query was not sent withdraws it and ends with 6 a window after it was submitted. A port due to sleep enters ASLEEP at its first boundary without a
frame in progress or ending, with Anise state 4; the coordinator's round ends with 1 and keeps whether it was fabric sleep; its queued frames return
with 0x4E, its staged values act and the faults found are collected. 50 ms without an answer to a wake put the port back to state 4, count and tell
the owner. -/
def Obligations.AniseTimers : Prop :=
  (∀ (s u : State) (t : Nat) (p a : Nat), u = s.tick t → u.rdA PM_PSLP_ASTATE 0 p = 2 → (u.an p).sentAt = some a → a + u.aniseWin p ≤ u.now →
    exec (.aniseWindowTimeout t p) s = .next (u.endRound p 3))
  ∧ (∀ (s u : State) (t : Nat) (p : Nat), u = s.tick t → u.rdA PM_PSLP_ASTATE 0 p = 2 → (u.an p).sentAt = none →
    (u.an p).subAt + u.aniseWin p ≤ u.now → exec (.aniseWindowTimeout t p) s = .next ((u.withdrawDev p .aniseQuery).settleFaults.endRound p 6))
  ∧ (∀ (s u : State) (t : Nat) (p : Nat) (w : State), u = s.tick t → (u.an p).sleepDue = true → (u.port p).cur = none → (u.port p).tail = false →
    (u.onBus p = true ∨ u.fstate p = fbIntegrating) →
    w = (if u.rdA PM_PSLP_ASTATE 0 p = 3 then (u.endRound p 1).wrA PM_PSLP_FSL 0 p (b2n (u.an p).fabric) else (u.wrA PM_PSLP_ASTATE 0 p 4).setAn p fun a => { a with sleepDue := false }) →
    exec (.aniseSleepEntry t p) s = .next (((w.setFstate p fbAsleep).portReturns p 0x4E).settlePort p).settleFaults)
  ∧ (∀ (s u : State) (t : Nat) (p : Nat), u = s.tick t → u.rdA PM_PSLP_ASTATE 0 p = 5 → (u.an p).wokenAt + 50 * tqPerMs ≤ u.now →
    exec (.wakeAnswerTimeout t p) s = .next (((u.wrA PM_PSLP_ASTATE 0 p 4).bump PM_WAKE_TMO_COUNT 0).wakeEvent p 3))

/-- Sessions of the image slots. Every served command of CU_CMD while BUSY only sets OVR. Else it clears OVR, and OPEN is refused with 2 to a tenant
that is neither the activation owner nor a carrier, with 3 while a session is open, with 5 where the spare slot holds the base and FORCE is 0;
otherwise it starts the erase, with NOFALLBACK where it erases the base. The end of an erase opens the slot of an open session and completes with 0.
CLOSE and ABORT of a tenant without the session complete as the state of the session says; CLOSE of the session's tenant stores the slot where its
header is sound and its words complete, else marks it bad, reports it, ends the session and completes; ABORT empties the slot, ends the session and
completes with 0. -/
def Obligations.ImageSessions : Prop :=
  (∀ (s u : State) (t : Nat) (f : Func) (force : Bool) (i : Instr), u = s.tick t →
    i ∈ [.sessionOpen t f force, .sessionClose t f, .sessionAbort t f, .activate t f, .activateCold t f, .rollfwd t f] →
    u.takesWrite f 0x38004 = true → u.flag CU_RES_BUSY 0 = true → exec i s = .next (u.put CU_RES_OVR 0 true))
  ∧ (∀ (s u : State) (t : Nat) (f : Func) (force : Bool) (k : Nat) (w x : State), u = s.tick t → u.takesWrite f 0x38004 = true → k = u.tn f →
    u.flag CU_RES_BUSY 0 = false → w = u.put CU_RES_OVR 0 false → x = (if w.holdsBase w.spareSlot then w.put CU_STAT_NOFALLBACK 0 true else w) →
    exec (.sessionOpen t f force) s = .next (if k ≠ w.actOwner ∧ w.carrier k = false then w.cuDone 2 0
      else if w.flag CU_STAT_SESSION 0 then w.cuDone 3 0 else if w.holdsBase w.spareSlot ∧ force = false then w.cuDone 5 0
      else x.beginErase w.spareSlot k))
  ∧ (∀ (s u : State) (t : Nat) (w x : State), u = s.tick t → u.cu.erasing = true → w = (u.setCu fun c => { c with erasing := false }) →
    x = (if w.flag CU_STAT_SESSION 0 then w.setNvm w.spareSlot fun x => { x with st := slOpen } else w) →
    exec (.eraseDone t) s = .next (x.cuDone 0 0))
  ∧ (∀ (s u : State) (t : Nat) (f : Func) (k : Nat) (i : Instr) (w : State), u = s.tick t → (i = .sessionClose t f ∨ i = .sessionAbort t f) →
    u.takesWrite f 0x38004 = true → k = u.tn f → u.flag CU_RES_BUSY 0 = false → w = u.put CU_RES_OVR 0 false → w.sessionOf k = false →
    exec i s = .next (w.noSession k))
  ∧ (∀ (s u : State) (t : Nat) (f : Func) (k b : Nat) (ok : Bool) (w : State), u = s.tick t → u.takesWrite f 0x38004 = true → k = u.tn f →
    u.flag CU_RES_BUSY 0 = false → w = u.put CU_RES_OVR 0 false → w.sessionOf k = true → b = w.spareSlot →
    ok = ((w.nvm b).headerOk && (w.nvm b).complete) →
    exec (.sessionClose t f) s = .next ((((w.setNvm b fun x => { x with st := if ok then slStored else slBad, closed := ok }).xferEvent
      (if ok then 0 else 4)).endSession).cuDone (if ok then 0 else 4) (if ok then 0 else 1)))
  ∧ (∀ (s u : State) (t : Nat) (f : Func) (k : Nat) (w : State), u = s.tick t → u.takesWrite f 0x38004 = true → k = u.tn f →
    u.flag CU_RES_BUSY 0 = false → w = u.put CU_RES_OVR 0 false → w.sessionOf k = true →
    exec (.sessionAbort t f) s = .next (w.abortSession.cuDone 0 0))

/-- The transfer window and pulls. A write of the transfer window by a function that answers and may write there programs its words into the slot of
tenant 0's session; one in a gap, without that session or to a slot that takes no words programs nothing and is counted in CU_XFER_REJ, as is one of
which a word is not taken; a write that the access rules refuse is refused. A served PULL_GO completes with 1 where the writer has no session or the
slot takes no words, shows 5 while a pull runs, completes with 2 and an event for a bad length or offset, a bad offset counted too, and otherwise
starts the pull of the words that fit, with BUSY 1. Read data of a pull are programmed as they arrive; those of a cancelled read do nothing. -/
def Obligations.ImageTransfer : Prop :=
  (∀ (s u : State) (t : Nat) (f : Func) (off : Nat) (data : List Nat) (x : State × Bool), u = s.tick t → u.answers f = true → u.quiet f = false →
    u.refusal ⟨f, 0, 0x1000000 + off, true, data.length, off % 4 == 0, 0⟩ = none → x = u.programAll u.spareSlot (off / 4) data →
    exec (.windowWrite t f off data) s = .next (if u.inGap ∨ u.sessionOf 0 = false ∨ u.slotTakes = false then u.bump CU_XFER_REJ_COUNT 0
      else if x.2 then x.1 else x.1.bump CU_XFER_REJ_COUNT 0))
  ∧ (∀ (s u : State) (t : Nat) (f : Func) (off : Nat) (data : List Nat) (a : Access) (r : Nat), u = s.tick t → u.answers f = true →
    u.quiet f = false → a = ⟨f, 0, 0x1000000 + off, true, data.length, off % 4 == 0, 0⟩ → u.refusal a = some r →
    exec (.windowWrite t f off data) s = .next (u.refuse a r))
  ∧ (∀ (s u : State) (t : Nat) (f : Func) (k n : Nat) (x : Pull), u = s.tick t → u.takesWrite f 0x3A014 = true → k = u.tn f →
    n = min (u.rd CU_PULL_LEN_WORDS 0) (slotWords - u.rd CU_PULL_OFF_WORD 0) →
    x = ({ link := f.link, tenant := k, addr := u.rd CU_PULL_A0_ADDR 0 + u.rd CU_PULL_A1_ADDR 0 * 2 ^ 24 + u.rd CU_PULL_A2_ADDR 0 * 2 ^ 48, off := u.rd CU_PULL_OFF_WORD 0, len := n, met := if n < u.rd CU_PULL_LEN_WORDS 0 then 2 else 0 }) →
    exec (.pullGo t f) s = .next (if u.sessionOf k = false ∨ u.slotTakes = false then u.pullDone 1
      else if u.flag CU_PULL_RES_BUSY 0 then u.wr CU_PULL_RES_RESULT 0 5
      else if u.rd CU_PULL_LEN_WORDS 0 = 0 ∨ u.rd CU_PULL_LEN_WORDS 0 > 1048576 then (u.pullDone 2).xferEvent 2
      else if u.rd CU_PULL_OFF_WORD 0 ≥ slotWords then (u.xferRej.pullDone 2).xferEvent 2
      else ((u.setCu fun c => { c with pull := some x }).put CU_PULL_RES_BUSY 0 true).pushPull))
  ∧ (∀ (s u : State) (t : Nat) (link tag : Nat) (x : HostRead) (r : ReadResult), u = s.tick t → u.readOf link tag = some x → x.what = .pull →
    exec (.pullDone t link tag r) s = .next (if x.dead then u.endRead link tag else (u.endRead link tag).pullRead r))

/-- Activation, the warm restart and the rollback counter. A served ACTIVATE, ACTIVATE_COLD or ROLLFWD that finds BUSY 0 clears OVR and completes with 2
to another than the activation owner. Of the owner, ACTIVATE completes with 3 without an image or an activatable slot, else starts the check with
PHASE 1 and BUSY 1; ACTIVATE_COLD completes with 3 without an activatable slot, else names the slot in BOOTSEL, with BUSY 1, and the reset follows
10 us later; ROLLFWD completes with 3 without an image or where the partner runs another, with 6 where SECVER is not larger, else starts the OTP
write with BUSY 1. A check that fails returns to RUN with RESULT 4 and the failed rule's code and event; one that passes names the slot in BOOTSEL,
fails the Anise rounds, writes the handover record and begins the gap. The gap's end reads the record, loads the image with what it carries, or
without where the record is refused, then with a check event of code 5; it counts, completes with 0 and releases all that was held. A finished
rollback write stores the value and completes a waiting command. -/
def Obligations.Activation : Prop :=
  (∀ (s u : State) (t : Nat) (f : Func) (k : Nat) (i : Instr) (w : State), u = s.tick t →
    (i = .activate t f ∨ i = .activateCold t f ∨ i = .rollfwd t f) → u.takesWrite f 0x38004 = true → k = u.tn f → u.flag CU_RES_BUSY 0 = false →
    w = u.put CU_RES_OVR 0 false → k ≠ w.actOwner → exec i s = .next (w.cuDone 2 0))
  ∧ (∀ (s u : State) (t : Nat) (f : Func) (k : Nat) (w : State), u = s.tick t → u.takesWrite f 0x38004 = true → k = u.tn f →
    u.flag CU_RES_BUSY 0 = false → w = u.put CU_RES_OVR 0 false → k = w.actOwner →
    exec (.activate t f) s = .next (if w.noImage ∨ w.activatable = false then w.cuDone 3 0
      else (w.wr CU_STAT_PHASE 0 phCheck).put CU_RES_BUSY 0 true))
  ∧ (∀ (s u : State) (t : Nat) (f : Func) (k : Nat) (w x : State), u = s.tick t → u.takesWrite f 0x38004 = true → k = u.tn f →
    u.flag CU_RES_BUSY 0 = false → w = u.put CU_RES_OVR 0 false → k = w.actOwner →
    x = (w.wr CU_STAT_BOOTSEL 0 w.spareSlot).put CU_RES_BUSY 0 true →
    exec (.activateCold t f) s = .next (if w.activatable then x.setCu fun c => { c with coldAt := some (x.now + 10 * tqPerUs) } else w.cuDone 3 0))
  ∧ (∀ (s u : State) (t : Nat) (f : Func) (k v : Nat) (w : State), u = s.tick t → u.takesWrite f 0x38004 = true → k = u.tn f →
    u.flag CU_RES_BUSY 0 = false → w = u.put CU_RES_OVR 0 false → k = w.actOwner → v = w.rd CU_RUN1_SECVER 0 →
    exec (.rollfwd t f) s = .next (if w.noImage ∨ w.partnerDiffers then w.cuDone 3 0 else if v ≤ w.cu.otp.roll then w.cuDone 6 0
      else (w.setCu fun c => { c with otpWrites := c.otpWrites ++ [.roll v] }).put CU_RES_BUSY 0 true))
  ∧ (∀ (s u : State) (t : Nat) (nvm : Bool) (k : Nat) (v : Verdict) (w x y : State), u = s.tick t → u.rd CU_STAT_PHASE 0 = phCheck →
    k = u.spareSlot → v = u.checkSlot k false nvm → w = u.noteCheck k v →
    x = (match v with | .pass l => (w.wr CU_STAT_BOOTSEL 0 k).setCu fun c => { c with next := some l, gapAt := w.now } | .fail _ _ => w) →
    y = ((List.range 64).foldl (fun (z : State) p => z.failRound p 7) x) → exec (.checkDone t nvm) s = .next (match v with
      | .fail c _ => ((w.wr CU_STAT_PHASE 0 phRun).cuDone 4 c).checkEvent k c 1 (w.rd CU_LAST1_SECTION 0) (w.rd CU_LAST1_ENTRY 0)
      | .pass l => ((y.gapEvent [1]).setCu fun c => { c with record := y.handover l }).wr CU_STAT_PHASE 0 phGap))
  ∧ (∀ (s u : State) (t : Nat) (l : Loaded) (k us : Nat) (bad : Bool) (w x y z : State), u = s.tick t → u.cu.next = some l →
    k = u.rd CU_STAT_BOOTSEL 0 → us = (u.now - u.cu.gapAt) / tqPerUs →
    bad = recordRefused (l.ver[3]?.getD 0) (l.ver[2]?.getD 0) l.img.hash u.cu.record →
    w = (((u.tapEnd.setCu fun c => { c with next := none, record := [] }).wr CU_STAT_PHASE 0 phRun).wr CU_GAP_US 0 us) →
    x = (((w.activate l k false !bad).bump CU_ACTS_COUNT 0).cuDone 0 0).gapEvent (2 :: leBytes 3 us) →
    y = (if bad then x.checkEvent k 5 3 0 0 else x) →
    z = ((List.range 24).foldl (fun (z : State) n => z.releaseSp n) ((List.range 64).foldl (fun (z : State) p => z.releasePort p) y)) →
    exec (.gapEnd t) s = .next (((((z.host.rings.map (·.1)).foldl (fun (z : State) r => z.releaseRing r) z).settleFaults.drainLink 0).drainLink 1).judgeWhere fun _ => true))
  ∧ (∀ (s u : State) (t : Nat) (v : Nat) (rest : List OtpWrite) (w : State), u = s.tick t → u.cu.otpWrites = .roll v :: rest →
    w = (u.setCu fun c => { c with otp := c.otp.write (.roll v), otpWrites := rest }) →
    exec (.otpWriteDone t) s = .next (if w.flag CU_RES_BUSY 0 then w.cuDone 0 0 else w))
  ∧ (∀ (s u : State) (t : Nat) (a b : List Byte) (rest : List OtpWrite), u = s.tick t → u.cu.otpWrites = .enroll a b :: rest →
    exec (.otpWriteDone t) s = .next (u.setCu fun c => { c with otp := c.otp.write (.enroll a b), otpWrites := rest }))

/-- Resets, boot and PERST. Power-on, brown-out, RESET_N and the reset of an ACTIVATE_COLD whose instant has come reset the device with causes 0, 1, 2
and 3, RESETS starting at 0 at power-on and advancing else. Boot of a device that is down loads the image of BOOTSEL where its check passes, else
the other slot's with FALLBACK set and the failure reported, and without one ends without image; a boot that finds both slots empty ends without
image. PERST high lets a link come up where the device is up and its domain on; PERST low resets a link that is up and takes it down, ending its
reads. -/
def Obligations.StartUp : Prop :=
  (∀ (s u : State) (t : Nat), u = s.tick t → exec (.powerOn t) s = .next (u.resetDevice 0 0 false false))
  ∧ (∀ (s u : State) (t : Nat) (low : Bool), u = s.tick t → exec (.brownOut t low) s = .next (u.resetDevice 1 (u.sys.resets + 1) (!low) u.sys.pin))
  ∧ (∀ (s u : State) (t : Nat), u = s.tick t → exec (.resetN t) s = .next (u.resetDevice 2 (u.sys.resets + 1) true true))
  ∧ (∀ (s u : State) (t : Nat) (a : Nat), u = s.tick t → u.cu.coldAt = some a → a ≤ u.now →
    exec (.commandReset t) s = .next (u.resetDevice 3 (u.sys.resets + 1) true false))
  ∧ (∀ (s u : State) (t : Nat) (start count a : Nat) (nvm1 nvm2 : Bool), u = s.tick t → u.sys.down = true → a = u.rd CU_STAT_BOOTSEL 0 →
    exec (.boot t start count nvm1 nvm2) s = .next (match u.bootCheck a nvm1 with
      | (w, .ok l) => w.bootImage l a start count
      | (w, .error (c, sec, entry)) => match w.bootCheck (1 - a) nvm2 with
      | (x, .ok l) => ((((((x.wr CU_STAT_BOOTSEL 0 (1 - a)).put CU_STAT_FALLBACK 0 true).setCu fun y =>
      { y with fallback := some (a, c) }).bootImage l (1 - a) start count).checkEvent a c 2 sec entry).tellFallback)
      | (x, .error _) => x.bootBare start count))
  ∧ (∀ (s u : State) (t : Nat) (start count : Nat) (nvm1 nvm2 : Bool), u = s.tick t → u.sys.down = true → (∀ k, (u.nvm k).st = slEmpty) →
    exec (.boot t start count nvm1 nvm2) s = .next (u.bootBare start count))
  ∧ (∀ (s u : State) (t : Nat) (link : Nat), u = s.tick t → link ≤ 1 →
    exec (.perst t link true) s = .next (u.setLink link fun l => { l with perst := false, up := !u.sys.down && u.domOn (106 + link) }))
  ∧ (∀ (s u : State) (t : Nat) (link : Nat) (w : State), u = s.tick t → link ≤ 1 → w = (if (u.link link).up then u.resetLink link else u) →
    exec (.perst t link false) s = .next (w.setLink link fun l =>
      { l with perst := true, up := false, reads := [], credit := none, l1 := false, exiting := false }))

/-- The test access port. TAP_RESET and IDCODE load the IDCODE instruction, IDCODE shifting out the identification; SAMPLE_PRELOAD shifts out the
boundary cells, a free value; EXTEST, EXTEST_PULSE, EXTEST_TRAIN, CLAMP, HIGHZ and BYPASS load their instruction and change nothing but the test
access port and what leaves the device. -/
def Obligations.BoundaryScan : Prop :=
  (∀ (s u : State) (t : Nat), u = s.tick t → exec (.tapReset t) s = .next (u.tapLoad tapIdcode))
  ∧ (∀ (s u : State) (t : Nat), u = s.tick t → exec (.idcode t) s = .next ((u.tapLoad tapIdcode).emit (.tapData idcodeValue)))
  ∧ (∀ (s u : State) (t : Nat), u = s.tick t →
    exec (.samplePreload t) s = .next (((u.tapLoad tapSample).emit (.tapData (Config.boundaryCells (u.tapLoad tapSample).fresh))).draw))
  ∧ (∀ (s u : State) (t : Nat) (i : Instr) (code : Nat), u = s.tick t →
    (i, code) ∈ [(.extest t, tapExtest), (.extestPulse t, tapPulse), (.extestTrain t, tapTrain), (.clampPins t, tapClamp), (.highz t, tapHighz), (.bypass t, tapBypass)] →
    ∃ v, exec i s = .next v ∧ v.tap = ⟨code, true⟩ ∧ v = { u with tap := v.tap, out := v.out })

/-- Terminations, temperatures, level causes and the Mace net. A termination arm of a terminated port that is not off switches off and raises the port's
source; another changes nothing; an arm comes back. A thermal shutdown of a port marks it hot once and raises its source, and a recovery of a hot
one ends that, with the level cause unless a dominant time-out holds it. The end of a level cause ends it at its source, lets waiting wakes through
for source 188, and ends a port's dominant hold for sources 0 to 63; for a source of 64 on of kind L, other than 188 and 196, it clears the rail bit
and the cause and nothing else. Equal rails of a group's Mace net assert source 196 and fail the net; parted ones end the failure, and the cause of
source 196 once no net is failed. -/
def Obligations.HardwareEvents : Prop :=
  (∀ (s u : State) (t : Nat) (p arm : Nat), u = s.tick t →
    exec (.termArmDisconnect t p arm) s = .next (if (u.port p).term = true ∧ arm < 2 ∧ (u.port p).armOff.contains arm = false then
      (u.setPort p fun x => { x with armOff := x.armOff ++ [arm] }).faultAssert p (2 * 2 ^ 16 + p) else u))
  ∧ (∀ (s u : State) (t : Nat) (p arm : Nat), u = s.tick t →
    exec (.termArmReconnect t p arm) s = .next (u.setPort p fun x => { x with armOff := x.armOff.filter (· != arm) }))
  ∧ (∀ (s u : State) (t : Nat) (p : Nat), u = s.tick t →
    exec (.thermalShutdown t p) s = .next (if p < 64 ∧ (u.port p).hot = false then (u.setPort p fun x => { x with hot := true }).faultAssert p
      (2 * 2 ^ 16 + p) else u))
  ∧ (∀ (s u : State) (t : Nat) (p : Nat) (w : State), u = s.tick t → p < 64 → (u.port p).hot = true →
    w = (u.setPort p fun x => { x with hot := false }) → exec (.thermalRecovery t p) s = .next (if (w.port p).txdomHold then w else w.levelEnd p))
  ∧ (∀ (s u : State) (t : Nat) (src : Nat) (w : State), u = s.tick t → w = u.levelEnd src →
    exec (.levelCauseEnd t src) s = .next (if src = 188 then w.handWaiting else if src < 64 then w.setPort src fun x => { x with txdomHold := false } else w))
  ∧ (∀ (s u : State) (t : Nat) (src : Nat), u = s.tick t → 64 ≤ src → src ≠ 188 → src ≠ 196 → kindL src = true →
    exec (.levelCauseEnd t src) s = .next ((u.wrA FC_SRC_RAILEQ 0 src 0).wrA FC_SRC_CAUSE 0 src 0))
  ∧ (∀ (s u : State) (t : Nat) (g : Nat) (eq : Bool) (w : State), u = s.tick t → g < 16 → w = u.netFail g false →
    exec (.maceNetRailEqual t g eq) s = .next (if eq then (u.faultAssert 196 g).netFail g true
      else if (List.range 16).any fun k => w.rdA FC_GSTAT_NETFAIL 0 k != 0 then w else w.wrA FC_SRC_CAUSE 0 196 0))

/-- NAK repeats, the frame store's scrub, lease records and posted credit. An outstanding NAK of a lane in UP is repeated after 2 us. A scrub of a
frame-store slot whose bank is on counts a corrected error, or counts an uncorrected one, removes the deliveries that hold the slot with reason 7
and raises the bank's source; beyond slot 32767, or with the bank off, it finds nothing. Every 10 ms the transmit leases that lack tokens are
recorded. Returned credit lets posted writes of its link leave. -/
def Obligations.Housekeeping : Prop :=
  (∀ (s u : State) (t : Nat) (port a : Nat), u = s.tick t → (u.lp port).nakAt = some a → u.lstate port = 4 → a + 2 * tqPerUs ≤ u.now →
    exec (.nakRepeat t port) s = .next ((u.say port 2 (u.lp port).rxExp).setLp port fun p => { p with nakAt := some u.now }))
  ∧ (∀ (s u : State) (t : Nat) (frame : Nat) (bad : Bool), u = s.tick t → frame < 32768 → u.domOn (108 + u.slotBank frame) = true →
    exec (.frameStoreScrub t frame bad) s = .next (if bad then ((u.bump FS_ECC_UNC_COUNT (u.slotBank frame)).purge (fun d => d.slot == some frame) 7).faultAssert
      (128 + u.slotBank frame) frame else u.bump FS_ECC_CORR_COUNT (u.slotBank frame)))
  ∧ (∀ (s u : State) (t : Nat) (frame : Nat) (bad : Bool), u = s.tick t → (32768 ≤ frame ∨ u.domOn (108 + u.slotBank frame) = false) →
    exec (.frameStoreScrub t frame bad) s = .next u)
  ∧ (∀ (s u : State) (t : Nat), u = s.tick t →
    exec (.leaseRecordPeriodic t) s = .next ((u.img.leases.zipIdx).foldl (fun (y : State) (x : Lease × Nat) =>
      if x.1.tx && decide (y.tokens x.2 < x.1.burst * 160 * 4096) then y.noteLease x.2 else y) u))
  ∧ (∀ (s u : State) (t : Nat) (link n : Nat), u = s.tick t →
    exec (.postedCreditReturn t link n) s = .next ((u.setLink link fun l => { l with credit := l.credit.map (· + n) }).drainLink link))

/-- A step runs the command at the front of the queue. With a command at the front of the queue, a step is that command's exec on the state with the
queue's rest. On an empty queue a step gives a next state that differs at most in L1 of the two links: a link that is up, may enter ASPM L1 and has
nothing under way is in L1 then, any other stays as it is; that is the model's own choice (log entries 2 and 118). -/
def Obligations.StepRunsFront : Prop :=
  (∀ (s : State) (c : Instr) (rest : List Instr), step { s with pending := c :: rest } = exec c { s with pending := rest })
  ∧ (∀ s : State, s.pending = [] → ∃ v, step s = .next v ∧ v = { s with host := { s.host with links := v.host.links } }
      ∧ ∀ k ≤ 1, v.link k = { s.link k with l1 := (s.link k).l1 || ((s.link k).up && (s.link k).aspm && (s.link k).waiting.isEmpty && (s.link k).reads.isEmpty) })

/-- What reset leaves. In the state after reset no command waits, the register store is in canonical form, every register field reads the value of its
Reset column (0 where that column says IMG), the ones that are not 0 being PQ_HEAD1 EMPTY, IC_TCFG CNT, IC_TTIME TIME, IC_TSTAT ARMED and FC_FSTAT
EMPTY, each 1; no field has a staged copy, no frame-store slot is held, no fault record waits, no port is on its bus, and nothing has been emitted.
The contents of the OTP and of the image slots there are the model's own choice (log entry 7). -/
def Obligations.ResetState : Prop :=
  State.reset.pending = [] ∧ State.reset.regsCanonical ∧ (∀ (f : Fld) (i j : Nat), State.reset.rdA f i j = f.rst)
  ∧ (∀ p, State.reset.rd PQ_HEAD1_EMPTY p = 1) ∧ (∀ g, State.reset.rd IC_TCFG_CNT g = 1 ∧ State.reset.rd IC_TTIME_TIME g = 1 ∧ State.reset.rd IC_TSTAT_ARMED g = 1)
  ∧ State.reset.rd FC_FSTAT_EMPTY 0 = 1
  ∧ (∀ (f : Fld) (i j : Nat), State.reset.stagedVal f i j = State.reset.rdA f i j)
  ∧ (∀ k, (State.reset.slot k).holders = 0) ∧ State.reset.fc.fifo = [] ∧ (∀ p, State.reset.rd FB_STAT_STATE p = 0) ∧ State.reset.out = []

/-- Which tenant a virtual function is. With S the split of the image: VF n of H0 is tenant n for n from 1 to S, and VF n of H1 is tenant S + n for n
from 1 to 255 - S. -/
def Obligations.TenantNumbers : Prop :=
  (∀ (s : State) (n : Nat), 1 ≤ n → n ≤ s.img.split → s.tenantNo ⟨0, n⟩ = some n)
  ∧ (∀ (s : State) (n : Nat), 1 ≤ n → n ≤ 255 - s.img.split → s.tenantNo ⟨1, n⟩ = some (s.img.split + n))

/-- No two functions bear one tenant's number but the two PFs. Two functions that have the same tenant number are one function, or both are PFs of the
two links and the number is 0; and every tenant number is at most 255 where the split is at most 255. -/
def Obligations.TenantsAreApart : Prop :=
  (∀ (s : State) (f g : Func) (k : Nat), s.tenantNo f = some k → s.tenantNo g = some k → f = g ∨ (k = 0 ∧ f.fn = 0 ∧ g.fn = 0))
  ∧ (∀ (s : State) (f : Func) (k : Nat), s.img.split ≤ 255 → s.tenantNo f = some k → k ≤ 255)

/-- Where a mailbox lies. Word w of mailbox m, for m from 0 to 8,191 and w from 0 to 31, is what the offset 0x400000 + (m / 16) * 0x1000 + (m mod 16) *
0x80 + 4 * w of BAR0 reaches, for every function; that offset lies in the lower, active half of its page. -/
def Obligations.MailboxMap : Prop :=
  ∀ (s : State) (f : Func) (m w : Nat), m < 8192 → w < 32 →
    s.place f (0x400000 + m / 16 * 0x1000 + m % 16 * 0x80 + 4 * w) = .mbox m w
    ∧ (0x400000 + m / 16 * 0x1000 + m % 16 * 0x80 + 4 * w) % 0x1000 < 0x800

/-- The unused offsets of a descriptor ring's control block. For each of the 256 rings of a function, the control offsets 0x2C to 0x3C read 0 to a read
that is served, and a write to them that is served changes nothing. -/
def Obligations.UnusedRingOffsets : Prop :=
  (∀ (s u : State) (t : Nat) (a : Access) (found : List Found) (r c : Nat), u = s.tick t → r < 256 → c ∈ [0x2C, 0x30, 0x34, 0x38, 0x3C] →
    a.bar = 0 → a.write = false → a.dwords = 1 → a.off = 0x8000 + r / 32 * 0x1000 + r % 32 * 0x40 + c → u.serves a = true →
    exec (.wideGroupRead t a found) s = .next (u.emit (.readDone a.f a.off [0])))
  ∧ (∀ (s u : State) (t : Nat) (a : Access) (r c : Nat), u = s.tick t → r < 256 → c ∈ [0x2C, 0x30, 0x34, 0x38, 0x3C] →
    a.bar = 0 → a.write = true → a.off = 0x8000 + r / 32 * 0x1000 + r % 32 * 0x40 + c → u.serves a = true →
    exec (.registerWrite t a) s = .next u)

/-- A read of FC_REC0 from an empty FIFO. A served read of FC_REC0 while no record waits returns 0, so VALID is 0; it sets UNDER and pops nothing;
FC_REC1 to FC_REC6 then read 0 to the same function; no other register and, but for the function's latched words, the note of the device's update at
this instant and the emitted answer, nothing else changes. -/
def Obligations.FaultReadEmpty : Prop :=
  ∀ (s u : State) (t : Nat) (f : Func), u = s.tick t → u.takesRead f 0x20004 = true → u.fc.fifo = [] →
    ∃ v, exec (.fcRec0 t f) s = .next v ∧ v.out = u.out ++ [.readDone f 0x20004 [0]] ∧ v.rd FC_FSTAT_UNDER 0 = 1 ∧ v.fc.fifo = []
      ∧ (∀ i, i < 6 → v.place f (0x20008 + 4 * i) = .reg ⟨.fc, 0, 0, 8 + 4 * i, false⟩ ∧ v.readReg f ⟨.fc, 0, 0, 8 + 4 * i, false⟩ = 0)
      ∧ u.regsBut v [FC_FSTAT_UNDER.key 0 0] ∧ v = { u with regs := v.regs, out := v.out, inst_ := v.inst_, host := { u.host with snaps := v.host.snaps } }

/-- A response that no request waits for. A response cell for this node that arrives intact and in order on a forward lane and whose TAG names no
waiting request, because the request has completed or never was, is counted in RG_LATE_RSP, which saturates, marks the late-response event and is
discarded: beyond those two fields and the note of the device's updates at this instant nothing changes. -/
def Obligations.LateResponse : Prop :=
  ∀ (s u w : State) (t port : Nat) (c : Cell), u = s.tick t → c.typ = 2 → u.accept port c = (w, true) → w.isForward port = true → c.dst = w.node →
    (∀ x ∈ w.ring_.ctx, x.tag ≠ c.tag) → w.rd RG_LATE_RSP_COUNT 0 < 2 ^ 24 →
    ∃ v, exec (.rsp t port c) s = .next v ∧ v.rd RG_LATE_RSP_COUNT 0 = min (w.rd RG_LATE_RSP_COUNT 0 + 1) (2 ^ 24 - 1)
      ∧ v = { w with regs := v.regs, inst_ := v.inst_ } ∧ w.regsBut v [RG_LATE_RSP_COUNT.key 0 0, RG_EVT_EVT.key 0 0]

/-- What a host write of a field does, by its access code. A write that reaches no bit of a field changes nothing. One that reaches every bit of a field
in which the written value has its width: an RW field takes the value, unless the value is a reserved code of the field, which leaves all as it was;
a W1C field that the device has not updated at this instant clears exactly the bits written 1, one whose bits the device set at this instant keeps
those; a W1S field sets exactly the bits written 1; an RO or RWI field and what a WO field shows stay; an RWB field keeps its active value, and its
staged copy takes the value where the value is in the field's range; no field but the written one changes, apart from PEND of the instance's PG_STAT
for an RWB field. -/
def Obligations.WriteByAccessCode : Prop :=
  (∀ (s : State) (f : Fld) (i j x : Nat), s.writeField f i j x 0 = s)
  ∧ ∀ (s : State) (f : Fld) (i j x : Nat), 0 < f.w → s.rdA f i j < 2 ^ f.w → x < 2 ^ f.w →
    (f.acc = .rw → accepts f x = true → (s.writeField f i j x (2 ^ f.w - 1)).rdA f i j = x)
    ∧ (f.acc = .rw → accepts f x = false → s.writeField f i j x (2 ^ f.w - 1) = s)
    ∧ (f.acc = .w1c → s.instant.upd.find? (fun u => u.key == f.key i j) = none →
        ∀ k, ((s.writeField f i j x (2 ^ f.w - 1)).rdA f i j).testBit k = ((s.rdA f i j).testBit k && !x.testBit k))
    ∧ (f.acc = .w1c → ∀ n, s.instant.upd.find? (fun u => u.key == f.key i j) = some ⟨f.key i j, .bits, n⟩ →
        ∀ k, ((s.writeField f i j x (2 ^ f.w - 1)).rdA f i j).testBit k = ((s.rdA f i j).testBit k && (!x.testBit k || n.testBit k)))
    ∧ (f.acc = .w1s → ∀ k, ((s.writeField f i j x (2 ^ f.w - 1)).rdA f i j).testBit k = ((s.rdA f i j).testBit k || x.testBit k))
    ∧ (f.acc = .ro ∨ f.acc = .rwi ∨ f.acc = .wo → s.writeField f i j x (2 ^ f.w - 1) = s)
    ∧ (f.acc = .rwb → f.key i j ≠ PG_STAT_PEND.key (f.blk.code * 1024 + i) 0 → s.stagedVal f i j < 2 ^ f.w →
        (s.writeField f i j x (2 ^ f.w - 1)).rdA f i j = s.rdA f i j
        ∧ ∀ y, s.stageable f i (s.stagedVal f i j) x (2 ^ f.w - 1) = some y → y < 2 ^ f.w →
          (s.writeField f i j x (2 ^ f.w - 1)).stagedVal f i j = y ∧ (s.writeField f i j x (2 ^ f.w - 1)).rd PG_STAT_PEND (f.blk.code * 1024 + i) = 1)
    ∧ s.regsBut (s.writeField f i j x (2 ^ f.w - 1)) [f.key i j, PG_STAT_PEND.key (f.blk.code * 1024 + i) 0]

/-- How a counter advances. Adding to a counter that a host clears by writing 1s leaves the sum, or the largest value of its width where the sum is
larger, so a counter at that value stays there; adding to a counter that a host cannot write leaves the sum modulo 2 to the power of its width, as
the chapters that state a wrapping counter say; no other field changes. -/
def Obligations.CountersSaturate : Prop :=
  ∀ (s : State) (f : Fld) (i j n : Nat),
    (f.acc ≠ .ro → (s.addA f i j n).rdA f i j = min (s.rdA f i j + n) (2 ^ f.w - 1))
    ∧ (f.acc = .ro → (s.addA f i j n).rdA f i j = (s.rdA f i j + n) % 2 ^ f.w)
    ∧ s.regsBut (s.addA f i j n) [f.key i j]

/-- The value of a triplicated field. The value that the vote finds in three copies is the one that at least two copies with good parity hold; where no
value is held by two such copies the vote finds none. -/
def Obligations.VoteIsMajority : Prop :=
  (∀ (c : Copies) (v : Nat), copiesMajority c = some v ↔
    (c.aGood = true ∧ c.bGood = true ∧ c.a = v ∧ c.b = v) ∨ (c.aGood = true ∧ c.cGood = true ∧ c.a = v ∧ c.c = v)
      ∨ (c.bGood = true ∧ c.cGood = true ∧ c.b = v ∧ c.c = v))
  ∧ (∀ c : Copies, copiesMajority c = none ↔
    ¬ (c.aGood = true ∧ c.bGood = true ∧ c.a = c.b) ∧ ¬ (c.aGood = true ∧ c.cGood = true ∧ c.a = c.c)
      ∧ ¬ (c.bGood = true ∧ c.cGood = true ∧ c.b = c.c))

/-- Where a new entry stands in a priority queue. Adding an entry to a queue whose entries are in key order leaves them in key order and keeps every
queued entry in its place relative to the others. The new entry takes the place before which every entry has a smaller key, or an equal one and is a
mirror entry where the new one is none, or is alike in that and either was not inserted at this instant or stands no later in the turn order; the
entry after it, if any, is not of that kind, and none after it has a smaller key. The insertion is counted and no other queue changes. -/
def Obligations.QueueInsertion : Prop :=
  (∀ (s : State) (p : Nat) (e : QEntry), (s.queue p).entries.Pairwise (fun a b => a.key ≤ b.key) →
    ((s.addEntry p e).queue p).entries.Pairwise (fun a b => a.key ≤ b.key))
  ∧ (∀ (s : State) (p : Nat) (e : QEntry), (s.queue p).entries.Pairwise (fun a b => a.key ≤ b.key) →
    ∃ a b, (s.queue p).entries = a ++ b ∧ ((s.addEntry p e).queue p).entries = a ++ { e with seq := (s.queue p).freeSeq, born := s.now } :: b
      ∧ (∀ x ∈ a, x.key < e.key ∨ (x.key = e.key ∧ ((x.mirror = true ∧ e.mirror = false) ∨ (x.mirror = e.mirror ∧ (x.born ≠ s.now ∨ x.turn ≤ e.turn)))))
      ∧ (∀ x ∈ b.head?, e.key < x.key ∨ (x.key = e.key ∧ ((x.mirror = false ∧ e.mirror = true) ∨ (x.mirror = e.mirror ∧ x.born = s.now ∧ e.turn < x.turn))))
      ∧ ∀ x ∈ b, e.key ≤ x.key)
  ∧ (∀ (s : State) (p q : Nat) (e : QEntry), q ≠ p → (s.addEntry p e).queue q = s.queue q)
  ∧ (∀ (s : State) (p : Nat) (e : QEntry), (s.addEntry p e).rd PQ_INSERT_COUNT p = (s.rd PQ_INSERT_COUNT p + 1) % 2 ^ 24)

/-- A step takes one command off the queue and time does not run backwards. From every state, a step that gives a next state leaves the waiting commands
without their first one, in their order, adds none, and leaves the clock at or after where it stood. -/
def Obligations.StepKeepsQueueAndClock : Prop :=
  ∀ s v : State, step s = .next v → v.pending = s.pending.tail ∧ s.now ≤ v.now

/-- What is programmed once stays. From every state, a step that gives a next state leaves the roll-forward floor of the OTP at or above where it stood
and an enrolled owner key as it was, over resets as well. -/
def Obligations.OtpOnlyRises : Prop :=
  ∀ s v : State, step s = .next v → s.cu.otp.roll ≤ v.cu.otp.roll ∧ ∀ o, s.cu.otp.owner = some o → v.cu.otp.owner = some o

/-- The interval count never falls but in a reset. From every state, a step whose command is not POWER_ON, BROWN_OUT, RESET_N, COMMAND_RESET, BOOT or
OTP_WRITE_DONE and that gives a next state leaves the interval count at or above where it stood, so no step of the time base moves it back. -/
def Obligations.IntervalNeverFalls : Prop :=
  ∀ s v : State, (∀ c ∈ s.pending.head?, c.special = false) → step s = .next v → s.time.ivl ≤ v.time.ivl

/-- Equal registers are equal data. From every state whose register store is in canonical form (keys strictly rising), a step that gives a next state
leaves it so; that the state after reset has the form is a clause of ResetState. -/
def Obligations.RegistersStayCanonical : Prop :=
  ∀ s v : State, s.regsCanonical → step s = .next v → v.regsCanonical

/-- No command stops the device. Every command on every state, with every operand, gives a next state: none ends in a fault or a refusal. -/
def Obligations.EveryCommandAnswers : Prop :=
  ∀ (c : Instr) (s : State), ∃ v, exec c s = .next v

end
end

