-- ==== Sys2Proof/Laws/Table.lean ====
section
/-! SUPPORT. What each operation over sparse tables reads back as, and that each keeps the canonical form. -/

namespace Sys2Proof.Machine

variable {α : Type}

@[simp] theorem tget_tdel_same (d : α) (t : Tbl α) (k : Nat) : tget d (tdel t k) k = d := by
  induction t with
  | nil => rfl
  | cons e t ih => obtain ⟨k', v⟩ := e; simp only [tdel]; split <;> simp_all [tget]

theorem tget_tdel_other (d : α) (t : Tbl α) (k j : Nat) (h : j ≠ k) : tget d (tdel t k) j = tget d t j := by
  induction t with
  | nil => rfl
  | cons e t ih =>
    obtain ⟨k', v⟩ := e
    simp only [tdel]; split
    · subst k; simp [tget, ih, Ne.symm h]
    · simp [tget, ih]

@[simp] theorem tget_tput_same (d : α) (t : Tbl α) (k : Nat) (v : α) : tget d (tput t k v) k = v := by
  induction t with
  | nil => simp [tput, tget]
  | cons e t ih => obtain ⟨k', w⟩ := e; simp only [tput]; split_ifs <;> simp_all [tget]

theorem tget_tput_other (d : α) (t : Tbl α) (k j : Nat) (v : α) (h : j ≠ k) : tget d (tput t k v) j = tget d t j := by
  induction t with
  | nil => simp [tput, tget, Ne.symm h]
  | cons e t ih =>
    obtain ⟨k', w⟩ := e
    simp only [tput]; split_ifs with h1 h2
    · simp [tget, Ne.symm h]
    · subst h2; simp [tget, Ne.symm h]
    · simp [tget, ih]

theorem mem_tdel (t : Tbl α) (k : Nat) (e : Nat × α) (h : e ∈ tdel t k) : e ∈ t := by
  induction t with
  | nil => exact h
  | cons x t ih =>
    obtain ⟨k', w⟩ := x
    simp only [tdel] at h; split at h <;> simp_all
    rcases h with h | h
    · exact .inl h
    · exact .inr (ih h)

theorem mem_tput (t : Tbl α) (k : Nat) (v : α) (e : Nat × α) (h : e ∈ tput t k v) : e = (k, v) ∨ e ∈ t := by
  induction t with
  | nil => simpa [tput] using h
  | cons x t ih =>
    obtain ⟨k', w⟩ := x
    simp only [tput] at h; split_ifs at h <;> simp_all
    · rcases h with h | h
      · exact .inl h
      · exact .inr (.inr h)
    · rcases h with h | h
      · exact .inr (.inl h)
      · rcases ih h with h | h
        · exact .inl h
        · exact .inr (.inr h)

theorem pairwise_tdel (t : Tbl α) (k : Nat) (h : t.Pairwise fun a b => a.1 < b.1) : (tdel t k).Pairwise fun a b => a.1 < b.1 := by
  induction t with
  | nil => exact h
  | cons x t ih =>
    obtain ⟨k', w⟩ := x
    rw [List.pairwise_cons] at h
    simp only [tdel]; split
    · exact ih h.2
    · exact List.pairwise_cons.2 ⟨fun e he => h.1 e (mem_tdel t k e he), ih h.2⟩

theorem pairwise_tput (t : Tbl α) (k : Nat) (v : α) (h : t.Pairwise fun a b => a.1 < b.1) :
    (tput t k v).Pairwise fun a b => a.1 < b.1 := by
  induction t with
  | nil => simp [tput]
  | cons x t ih =>
    obtain ⟨k', w⟩ := x
    have h' := h
    rw [List.pairwise_cons] at h
    simp only [tput]; split_ifs with h1 h2
    · refine List.pairwise_cons.2 ⟨fun e he => ?_, h'⟩
      rcases List.mem_cons.1 he with rfl | he
      · exact h1
      · exact Nat.lt_trans h1 (h.1 e he)
    · subst h2; exact List.pairwise_cons.2 ⟨h.1, h.2⟩
    · refine List.pairwise_cons.2 ⟨fun e he => ?_, ih h.2⟩
      rcases mem_tput t k v e he with rfl | he
      · show k' < k
        omega
      · exact h.1 e he

variable [DecidableEq α]

/-- Reading what was written. -/
@[simp] theorem tget_tset_same (d : α) (t : Tbl α) (k : Nat) (v : α) : tget d (tset d t k v) k = v := by
  unfold tset; split <;> simp_all

/-- A write leaves every other key alone, whatever default it is read with. -/
theorem tget_tset_other (d d' : α) (t : Tbl α) (k j : Nat) (v : α) (h : j ≠ k) : tget d' (tset d t k v) j = tget d' t j := by
  unfold tset; split
  · exact tget_tdel_other _ _ _ _ h
  · exact tget_tput_other _ _ _ _ _ h

@[simp] theorem tget_tupd_same (d : α) (t : Tbl α) (k : Nat) (f : α → α) : tget d (tupd d t k f) k = f (tget d t k) := by
  simp [tupd]

theorem tget_tupd_other (d d' : α) (t : Tbl α) (k j : Nat) (f : α → α) (h : j ≠ k) : tget d' (tupd d t k f) j = tget d' t j :=
  tget_tset_other _ _ _ _ _ _ h

/-- The canonical form is kept by a write. -/
theorem twf_tset (d : α) (t : Tbl α) (k : Nat) (v : α) (h : twf d t = true) : twf d (tset d t k v) = true := by
  simp only [twf, Bool.and_eq_true, decide_eq_true_eq, List.all_eq_true] at h ⊢
  unfold tset; split
  · exact ⟨pairwise_tdel t k h.1, fun e he => h.2 e (mem_tdel t k e he)⟩
  · refine ⟨pairwise_tput t k v h.1, fun e he => ?_⟩
    rcases mem_tput t k v e he with rfl | he
    · simpa using ‹_›
    · exact h.2 e he

/-- The canonical form is kept by a change. -/
theorem twf_tupd (d : α) (t : Tbl α) (k : Nat) (f : α → α) (h : twf d t = true) : twf d (tupd d t k f) = true :=
  twf_tset _ _ _ _ h

end Sys2Proof.Machine
end

