-- ==== Sys2Proof/Laws/Stable.lean ====
section
/-! SUPPORT. Predicates of a state that no operation disturbs but those that move the clock, the queue, the interval count or the OTP.
`Stable P` says which updates `P` survives; every operation of the model then has one lemma `<name>_keeps`. -/

namespace Sys2Proof.Machine

/-- `P` survives a register write, the loss of register entries, and every change that leaves the queue, the clock, the registers, the
interval count and the OTP as they are. -/
structure Stable (P : State → Prop) : Prop where
  regs : ∀ (s : State) (f : Fld) (i j v : Nat), P s → P (s.wrA f i j v)
  sub : ∀ (s : State) (r : Tbl Nat), r.Sublist s.regs → P s → P { s with regs := r }
  frame : ∀ s v : State, v.pending = s.pending → v.now = s.now → v.regs = s.regs → v.time.ivl = s.time.ivl → v.cu.otp = s.cu.otp → P s → P v

variable {P : State → Prop}

theorem Stable.fresh (hP : Stable P) (s : State) (x : Nat) (h : P s) : P { s with fresh := x } := hP.frame s _ rfl rfl rfl rfl rfl h
theorem Stable.out (hP : Stable P) (s : State) (x : List Emission) (h : P s) : P { s with out := x } := hP.frame s _ rfl rfl rfl rfl rfl h
theorem Stable.noMaj (hP : Stable P) (s : State) (x : List Nat) (h : P s) : P { s with noMaj := x } := hP.frame s _ rfl rfl rfl rfl rfl h
theorem Stable.noMajStaged (hP : Stable P) (s : State) (x : List Nat) (h : P s) : P { s with noMajStaged := x } :=
  hP.frame s _ rfl rfl rfl rfl rfl h
theorem Stable.stagedBoth (hP : Stable P) (s : State) (x : Tbl Nat) (y : List Nat) (h : P s) : P { s with staged := x, noMajStaged := y } :=
  hP.frame s _ rfl rfl rfl rfl rfl h
theorem Stable.stagedMaj (hP : Stable P) (s : State) (x : Tbl Nat) (y : List Nat) (h : P s) : P { s with staged := x, noMaj := y } :=
  hP.frame s _ rfl rfl rfl rfl rfl h
theorem Stable.staged (hP : Stable P) (s : State) (x : Tbl Nat) (h : P s) : P { s with staged := x } := hP.frame s _ rfl rfl rfl rfl rfl h
theorem Stable.copies (hP : Stable P) (s : State) (x : Tbl Triple) (h : P s) : P { s with copies := x } := hP.frame s _ rfl rfl rfl rfl rfl h
theorem Stable.copiesStaged (hP : Stable P) (s : State) (x : Tbl Triple) (h : P s) : P { s with copiesStaged := x } :=
  hP.frame s _ rfl rfl rfl rfl rfl h
theorem Stable.copiesMaj (hP : Stable P) (s : State) (x : Tbl Triple) (y : List Nat) (h : P s) : P { s with copies := x, noMaj := y } :=
  hP.frame s _ rfl rfl rfl rfl rfl h
theorem Stable.copiesBoth (hP : Stable P) (s : State) (x : Tbl Triple) (y : List Nat) (h : P s) :
    P { s with copiesStaged := x, noMajStaged := y } := hP.frame s _ rfl rfl rfl rfl rfl h
theorem Stable.discard (hP : Stable P) (s : State) (x : Tbl Nat) (y : Tbl Triple) (z : List Nat) (h : P s) :
    P { s with staged := x, copiesStaged := y, noMajStaged := z } := hP.frame s _ rfl rfl rfl rfl rfl h
theorem Stable.inst (hP : Stable P) (s : State) (x : InstantSt) (h : P s) : P { s with inst_ := x } := hP.frame s _ rfl rfl rfl rfl rfl h
theorem Stable.time (hP : Stable P) (s : State) (x : TimeSt) (hx : x.ivl = s.time.ivl) (h : P s) : P { s with time := x } :=
  hP.frame s _ rfl rfl rfl hx rfl h
theorem Stable.host (hP : Stable P) (s : State) (x : HostSt) (h : P s) : P { s with host := x } := hP.frame s _ rfl rfl rfl rfl rfl h
theorem Stable.img (hP : Stable P) (s : State) (x : Image) (h : P s) : P { s with img := x } := hP.frame s _ rfl rfl rfl rfl rfl h
theorem Stable.leaseRt (hP : Stable P) (s : State) (x : Tbl LeaseRt) (h : P s) : P { s with leaseRt := x } := hP.frame s _ rfl rfl rfl rfl rfl h
theorem Stable.fb (hP : Stable P) (s : State) (x : Tbl FbSt) (h : P s) : P { s with fb := x } := hP.frame s _ rfl rfl rfl rfl rfl h
theorem Stable.tt (hP : Stable P) (s : State) (x : Tbl TtSt) (h : P s) : P { s with tt := x } := hP.frame s _ rfl rfl rfl rfl rfl h
theorem Stable.anise (hP : Stable P) (s : State) (x : Tbl AniseSt) (h : P s) : P { s with anise := x } := hP.frame s _ rfl rfl rfl rfl rfl h
theorem Stable.pm (hP : Stable P) (s : State) (x : PmSt) (h : P s) : P { s with pm := x } := hP.frame s _ rfl rfl rfl rfl rfl h
theorem Stable.pq (hP : Stable P) (s : State) (x : Tbl PqSt) (h : P s) : P { s with pq := x } := hP.frame s _ rfl rfl rfl rfl rfl h
theorem Stable.rx (hP : Stable P) (s : State) (x : RxSt) (h : P s) : P { s with rx := x } := hP.frame s _ rfl rfl rfl rfl rfl h
theorem Stable.ru (hP : Stable P) (s : State) (x : ReflexSt) (h : P s) : P { s with ru := x } := hP.frame s _ rfl rfl rfl rfl rfl h
theorem Stable.sp (hP : Stable P) (s : State) (x : Tbl SpSt) (h : P s) : P { s with sp := x } := hP.frame s _ rfl rfl rfl rfl rfl h
theorem Stable.stage (hP : Stable P) (s : State) (x : Tbl (List Byte)) (h : P s) : P { s with stage_ := x } := hP.frame s _ rfl rfl rfl rfl rfl h
theorem Stable.db (hP : Stable P) (s : State) (x : Tbl DbSt) (h : P s) : P { s with db := x } := hP.frame s _ rfl rfl rfl rfl rfl h
theorem Stable.gt (hP : Stable P) (s : State) (x : GatherSt) (h : P s) : P { s with gt := x } := hP.frame s _ rfl rfl rfl rfl rfl h
theorem Stable.ring (hP : Stable P) (s : State) (x : RingSt) (h : P s) : P { s with ring_ := x } := hP.frame s _ rfl rfl rfl rfl rfl h
theorem Stable.pair (hP : Stable P) (s : State) (x : PairSt) (h : P s) : P { s with pair := x } := hP.frame s _ rfl rfl rfl rfl rfl h
theorem Stable.ic (hP : Stable P) (s : State) (x : IcSt) (h : P s) : P { s with ic := x } := hP.frame s _ rfl rfl rfl rfl rfl h
theorem Stable.fc (hP : Stable P) (s : State) (x : FcSt) (h : P s) : P { s with fc := x } := hP.frame s _ rfl rfl rfl rfl rfl h
theorem Stable.cu (hP : Stable P) (s : State) (x : CuSt) (hx : x.otp = s.cu.otp) (h : P s) : P { s with cu := x } :=
  hP.frame s _ rfl rfl rfl rfl hx h
theorem Stable.sys (hP : Stable P) (s : State) (x : SysSt) (h : P s) : P { s with sys := x } := hP.frame s _ rfl rfl rfl rfl rfl h
theorem Stable.tap (hP : Stable P) (s : State) (x : TapSt) (h : P s) : P { s with tap := x } := hP.frame s _ rfl rfl rfl rfl rfl h

theorem Stable.rxSp (hP : Stable P) (s : State) (x : RxSt) (y : Tbl SpSt) (h : P s) : P { s with rx := x, sp := y } :=
  hP.frame s _ rfl rfl rfl rfl rfl h

theorem Stable.items (hP : Stable P) (s : State) (x : RxSt) (y : HostSt) (z : Tbl SpSt) (h : P s) : P { s with rx := x, host := y, sp := z } :=
  hP.frame s _ rfl rfl rfl rfl rfl h
theorem Stable.hostPair (hP : Stable P) (s : State) (x : HostSt) (y : PairSt) (h : P s) : P { s with host := x, pair := y } :=
  hP.frame s _ rfl rfl rfl rfl rfl h
theorem Stable.hostSp (hP : Stable P) (s : State) (x : HostSt) (y : Tbl SpSt) (h : P s) : P { s with host := x, sp := y } :=
  hP.frame s _ rfl rfl rfl rfl rfl h

theorem Stable.subFrame (hP : Stable P) (s v : State) (hr : v.regs.Sublist s.regs) (h1 : v.pending = s.pending) (h2 : v.now = s.now)
    (h3 : v.time.ivl = s.time.ivl) (h4 : v.cu.otp = s.cu.otp) (h : P s) : P v :=
  hP.frame { s with regs := v.regs } v h1 h2 rfl h3 h4 (hP.sub s _ hr h)

/-! ### Outcomes -/

/-- An outcome gives a next state, and that state meets `P`. -/
structure NextKeeps (P : State → Prop) (o : Host.Outcome State Fault Refusal) : Prop where
  next : ∃ v, o = .next v ∧ P v

theorem NextKeeps.keeps {o : Host.Outcome State Fault Refusal} (h : NextKeeps P o) (v : State) (hv : o = .next v) : P v := by
  obtain ⟨w, rfl, hw⟩ := h.next
  cases hv; exact hw

theorem next_keeps {a : State} (h : P a) : NextKeeps P (.next a) := ⟨a, rfl, h⟩

theorem ite_next_keeps {c : Prop} [Decidable c] {a b : Host.Outcome State Fault Refusal} (ha : NextKeeps P a) (hb : NextKeeps P b) :
    NextKeeps P (if c then a else b) := by split <;> assumption

/-! ### Shapes of terms -/

theorem ite_keeps {c : Prop} [Decidable c] {a b : State} (ha : P a) (hb : P b) : P (if c then a else b) := by split <;> assumption

theorem ite_fst_keeps {α : Type} {c : Prop} [Decidable c] {a b : State × α} (ha : P a.1) (hb : P b.1) : P (if c then a else b).1 := by
  split <;> assumption

theorem of_fst {α : Type} {e : State × α} {a : State} {b : α} (he : e = (a, b)) (h : P e.1) : P a := by rw [he] at h; exact h

theorem foldl_keeps {α : Type} (f : State → α → State) (hf : ∀ s a, P s → P (f s a)) (l : List α) (s : State) (h : P s) : P (l.foldl f s) := by
  induction l generalizing s with
  | nil => exact h
  | cons a l ih => exact ih _ (hf _ _ h)

theorem foldl_fst_keeps {α β : Type} (f : State × β → α → State × β) (hf : ∀ s a, P s.1 → P (f s a).1) (l : List α) (s : State × β) (h : P s.1) :
    P (l.foldl f s).1 := by
  induction l generalizing s with
  | nil => exact h
  | cons a l ih => exact ih _ (hf _ _ h)

end Sys2Proof.Machine
end

