-- ==== Sys2Proof/Laws/KeepsCore.lean ====
section
/-! SUPPORT. Every operation of the model keeps a stable predicate: the shared operations, objects, deliveries, registers, interrupts, configuration space and mailboxes. -/

set_option linter.unusedTactic false
set_option linter.unreachableTactic false
set_option linter.unusedVariables false

namespace Sys2Proof.Machine

variable {P : State → Prop}

theorem State.rewritten_keeps (hP : Stable P) (s : State) (k : Nat) (staged : Bool) (hs : P s) : P (s.rewritten k staged) := by
  unfold State.rewritten
  repeat' first | with_reducible assumption | with_reducible apply ite_keeps | (intro _; intros) | with_reducible apply hP.copiesStaged | with_reducible apply hP.copies | with_reducible apply hP.copiesMaj | with_reducible apply hP.copiesBoth

theorem State.wrA_keeps (hP : Stable P) (s : State) (f : Fld) (i j v : Nat) (hs : P s) : P (s.wrA f i j v) := hP.regs s f i j v hs

theorem State.wr_keeps (hP : Stable P) (s : State) (f : Fld) (i v : Nat) (hs : P s) : P (s.wr f i v) := by
  unfold State.wr
  repeat' first | with_reducible assumption | with_reducible apply State.wrA_keeps hP

theorem State.put_keeps (hP : Stable P) (s : State) (f : Fld) (i : Nat) (b : Bool) (hs : P s) : P (s.put f i b) := by
  unfold State.put
  repeat' first | with_reducible assumption | with_reducible apply State.wr_keeps hP

theorem State.note_keeps (hP : Stable P) (s : State) (k : Nat) (kind : UpdKind) (n : Nat) (hs : P s) : P (s.note k kind n) := by
  unfold State.note
  repeat' first | with_reducible assumption | (intro _; intros) | with_reducible apply hP.inst

theorem State.noteWrite_keeps (hP : Stable P) (s : State) (k : Nat) (staged : Bool) (hs : P s) : P (s.noteWrite k staged) := by
  unfold State.noteWrite
  repeat' first | with_reducible assumption | (intro _; intros) | with_reducible apply hP.inst

theorem State.clearCount_keeps (hP : Stable P) (s : State) (f : Fld) (i j : Nat) (hs : P s) : P (s.clearCount f i j) := by
  unfold State.clearCount
  repeat' first | with_reducible assumption | with_reducible apply State.wrA_keeps hP

theorem State.addA_keeps (hP : Stable P) (s : State) (f : Fld) (i j n : Nat) (hs : P s) : P (s.addA f i j n) := by
  unfold State.addA
  repeat' first | with_reducible assumption | with_reducible apply ite_keeps | with_reducible apply State.wrA_keeps hP | with_reducible apply State.note_keeps hP

theorem State.bump_keeps (hP : Stable P) (s : State) (f : Fld) (i : Nat) (hs : P s) : P (s.bump f i) := by
  unfold State.bump
  repeat' first | with_reducible assumption | with_reducible apply State.addA_keeps hP

theorem State.bumpSat_keeps (hP : Stable P) (s : State) (f : Fld) (i : Nat) (hs : P s) : P (s.bumpSat f i) := by
  unfold State.bumpSat
  repeat' first | with_reducible assumption | with_reducible apply State.wr_keeps hP

theorem State.drop1_keeps (hP : Stable P) (s : State) (f : Fld) (i : Nat) (hs : P s) : P (s.drop1 f i) := by
  unfold State.drop1
  repeat' first | with_reducible assumption | with_reducible apply State.wr_keeps hP

theorem State.evtA_keeps (hP : Stable P) (s : State) (f : Fld) (i j n : Nat) (hs : P s) : P (s.evtA f i j n) := by
  unfold State.evtA
  repeat' first | with_reducible assumption | with_reducible apply State.wrA_keeps hP | with_reducible apply State.note_keeps hP

theorem State.evt_keeps (hP : Stable P) (s : State) (f : Fld) (i n : Nat) (hs : P s) : P (s.evt f i n) := by
  unfold State.evt
  repeat' first | with_reducible assumption | with_reducible apply State.evtA_keeps hP

theorem State.timeMark_keeps (hP : Stable P) (s : State) (hs : P s) : P (s.timeMark) := by
  unfold State.timeMark
  repeat' first | with_reducible assumption | (intro _; intros) | with_reducible apply hP.time | rfl

theorem State.draw_keeps (hP : Stable P) (s : State) (hs : P s) : P (s.draw) := by
  unfold State.draw
  repeat' first | with_reducible assumption | (intro _; intros) | with_reducible apply hP.fresh

theorem State.emit_keeps (hP : Stable P) (s : State) (e : Emission) (hs : P s) : P (s.emit e) := by
  unfold State.emit
  repeat' first | with_reducible assumption | (intro _; intros) | with_reducible apply hP.out

theorem State.setLink_keeps (hP : Stable P) (s : State) (k : Nat) (f : LinkSt → LinkSt) (hs : P s) : P (s.setLink k f) := by
  unfold State.setLink
  repeat' first | with_reducible assumption | (intro _; intros) | with_reducible apply hP.host

theorem State.setFunc_keeps (hP : Stable P) (s : State) (f : Func) (g : FnSt → FnSt) (hs : P s) : P (s.setFunc f g) := by
  unfold State.setFunc
  repeat' first | with_reducible assumption | (intro _; intros) | with_reducible apply hP.host

theorem State.setRing_keeps (hP : Stable P) (s : State) (r : Nat) (f : Ring → Ring) (hs : P s) : P (s.setRing r f) := by
  unfold State.setRing
  repeat' first | with_reducible assumption | (intro _; intros) | with_reducible apply hP.host

theorem State.setPort_keeps (hP : Stable P) (s : State) (p : Nat) (f : FbSt → FbSt) (hs : P s) : P (s.setPort p f) := by
  unfold State.setPort
  repeat' first | with_reducible assumption | (intro _; intros) | with_reducible apply hP.fb

theorem State.setQueue_keeps (hP : Stable P) (s : State) (p : Nat) (f : PqSt → PqSt) (hs : P s) : P (s.setQueue p f) := by
  unfold State.setQueue
  repeat' first | with_reducible assumption | (intro _; intros) | with_reducible apply hP.pq

theorem State.setLrt_keeps (hP : Stable P) (s : State) (l : Nat) (f : LeaseRt → LeaseRt) (hs : P s) : P (s.setLrt l f) := by
  unfold State.setLrt
  repeat' first | with_reducible assumption | with_reducible apply ite_keeps | (intro _; intros) | with_reducible apply hP.leaseRt

theorem State.setMbox_keeps (hP : Stable P) (s : State) (m : Nat) (f : Mailbox → Mailbox) (hs : P s) : P (s.setMbox m f) := by
  unfold State.setMbox
  repeat' first | with_reducible assumption | (intro _; intros) | with_reducible apply hP.rx

theorem State.setProd_keeps (hP : Stable P) (s : State) (r c : Nat) (hs : P s) : P (s.setProd r c) := by
  unfold State.setProd
  repeat' first | with_reducible assumption | with_reducible apply State.wr_keeps hP

theorem State.setCons_keeps (hP : Stable P) (s : State) (r c : Nat) (hs : P s) : P (s.setCons r c) := by
  unfold State.setCons
  repeat' first | with_reducible assumption | with_reducible apply State.wr_keeps hP

theorem State.noteEntry_keeps (hP : Stable P) (s : State) (r : Nat) (hs : P s) : P (s.noteEntry r) := by
  unfold State.noteEntry
  repeat' first | with_reducible assumption | with_reducible apply ite_keeps | with_reducible apply State.put_keeps hP | with_reducible apply State.evtA_keeps hP

theorem State.spendCredit_keeps (hP : Stable P) (s : State) (link : Nat) (hs : P s) : P (s.spendCredit link) := by
  unfold State.spendCredit
  repeat' first | with_reducible assumption | with_reducible apply State.setLink_keeps hP

theorem State.writeEntry_keeps (hP : Stable P) (s : State) (r : Nat) (bytes : List Byte) (hs : P s) : P (s.writeEntry r bytes) := by
  unfold State.writeEntry
  repeat' first | with_reducible assumption | with_reducible apply ite_keeps | with_reducible apply State.emit_keeps hP | with_reducible apply State.setProd_keeps hP | with_reducible apply State.noteEntry_keeps hP | with_reducible apply State.spendCredit_keeps hP

theorem State.dropIn_keeps (hP : Stable P) (s : State) (r : Nat) (hs : P s) : P (s.dropIn r) := by
  unfold State.dropIn
  repeat' first | with_reducible assumption | with_reducible apply State.bump_keeps hP | with_reducible apply State.setRing_keeps hP

theorem State.issueEq_keeps (hP : Stable P) (s : State) (t code object ns : Nat) (detail : List Byte) (hs : P s) : P (s.issueEq t code object ns detail) := by
  unfold State.issueEq
  repeat' first | with_reducible assumption | with_reducible apply ite_keeps | with_reducible apply State.bump_keeps hP | with_reducible apply State.setRing_keeps hP | with_reducible apply State.writeEntry_keeps hP | with_reducible apply State.dropIn_keeps hP

theorem State.event_keeps (hP : Stable P) (s : State) (t code object : Nat) (detail : List Byte) (hs : P s) : P (s.event t code object detail) := by
  unfold State.event
  repeat' first | with_reducible assumption | with_reducible apply ite_keeps | with_reducible apply State.bump_keeps hP | with_reducible apply State.setLink_keeps hP | with_reducible apply State.issueEq_keeps hP

theorem State.eventLim_keeps (hP : Stable P) (s : State) (t code object : Nat) (detail : List Byte) (hs : P s) : P (s.eventLim t code object detail) := by
  unfold State.eventLim
  repeat' first | with_reducible assumption | with_reducible apply ite_keeps | with_reducible apply State.event_keeps hP | (intro _; intros) | with_reducible apply hP.host

theorem State.issueCq_keeps (hP : Stable P) (s : State) (c : Comp) (hs : P s) : P (s.issueCq c) := by
  unfold State.issueCq
  repeat' first | with_reducible assumption | with_reducible apply ite_keeps | with_reducible apply State.drop1_keeps hP | with_reducible apply State.writeEntry_keeps hP | (intro _; intros) | with_reducible apply hP.host

theorem State.complete_keeps (hP : Stable P) (s : State) (c : Comp) (nocomp : Bool) (hs : P s) : P (s.complete c nocomp) := by
  unfold State.complete
  repeat' first | with_reducible assumption | with_reducible apply ite_keeps | with_reducible apply State.drop1_keeps hP | with_reducible apply State.setLink_keeps hP | with_reducible apply State.setRing_keeps hP | with_reducible apply State.issueCq_keeps hP

theorem State.setGrp_keeps (hP : Stable P) (s : State) (g : Nat) (f : GroupSt → GroupSt) (hs : P s) : P (s.setGrp g f) := by
  unfold State.setGrp
  repeat' first | with_reducible assumption | (intro _; intros) | with_reducible apply hP.gt

theorem State.setNvm_keeps (hP : Stable P) (s : State) (k : Nat) (f : SlotSt → SlotSt) (hs : P s) : P (s.setNvm k f) := by
  unfold State.setNvm
  repeat' first | with_reducible assumption | with_reducible apply ite_keeps | (intro _; intros) | with_reducible apply hP.cu | rfl

theorem State.setCu_keeps (hP : Stable P) (s : State) (f : CuSt → CuSt) (hs : P s) (hf : ∀ c, (f c).otp = c.otp) : P (s.setCu f) :=
  hP.cu s _ (hf _) hs

theorem State.setSlot_keeps (hP : Stable P) (s : State) (k : Nat) (f : StoredFrame → StoredFrame) (hs : P s) : P (s.setSlot k f) := by
  unfold State.setSlot
  repeat' first | with_reducible assumption | (intro _; intros) | with_reducible apply hP.rx

theorem State.takeSlot_keeps (hP : Stable P) (s : State) (fr : StoredFrame) (hs : P s) : P (s.takeSlot fr).1 := by
  unfold State.takeSlot
  repeat' first | with_reducible assumption | with_reducible apply ite_keeps | with_reducible apply State.wr_keeps hP | with_reducible apply State.setSlot_keeps hP | with_reducible apply ite_fst_keeps

theorem State.freeSlot_keeps (hP : Stable P) (s : State) (k : Nat) (hs : P s) : P (s.freeSlot k) := by
  unfold State.freeSlot
  repeat' first | with_reducible assumption | with_reducible apply State.wr_keeps hP | with_reducible apply State.drop1_keeps hP | with_reducible apply State.setSlot_keeps hP

theorem State.letGo_keeps (hP : Stable P) (s : State) (k : Nat) (hs : P s) : P (s.letGo k) := by
  unfold State.letGo
  repeat' first | with_reducible assumption | with_reducible apply ite_keeps | with_reducible apply State.setSlot_keeps hP | with_reducible apply State.freeSlot_keeps hP

theorem State.gatherReleased_keeps (hP : Stable P) (s : State) (g : Nat) (hs : P s) : P (s.gatherReleased g) := by
  unfold State.gatherReleased
  repeat' first | with_reducible assumption | with_reducible apply State.note_keeps hP | (intro _; intros) | with_reducible apply hP.gt

theorem State.releaseDeliv_keeps (hP : Stable P) (s : State) (d : Deliv) (hs : P s) : P (s.releaseDeliv d) := by
  unfold State.releaseDeliv
  repeat' first | with_reducible assumption | with_reducible apply ite_keeps | with_reducible apply State.setLrt_keeps hP | with_reducible apply State.letGo_keeps hP | with_reducible apply State.gatherReleased_keeps hP | with_reducible refine of_fst (by assumption) ?_ | (intro _; intros) | split | (simp only []) | with_reducible apply hP.rx | with_reducible apply hP.sp | with_reducible apply hP.rxSp

theorem State.countDrop_keeps (hP : Stable P) (s : State) (r reason : Nat) (hs : P s) : P (s.countDrop r reason) := by
  unfold State.countDrop
  repeat' first | with_reducible assumption | with_reducible apply State.wr_keeps hP | with_reducible apply State.bump_keeps hP

theorem State.dropRq_keeps (hP : Stable P) (s : State) (r port : Nat) (hs : P s) : P (s.dropRq r port) := by
  unfold State.dropRq
  repeat' first | with_reducible assumption | with_reducible apply ite_keeps | with_reducible apply State.setRing_keeps hP | with_reducible apply State.dropIn_keeps hP | with_reducible apply State.event_keeps hP

theorem State.reportDrop_keeps (hP : Stable P) (s : State) (d : Deliv) (reason : Nat) (hs : P s) : P (s.reportDrop d reason) := by
  unfold State.reportDrop
  repeat' first | with_reducible assumption | with_reducible apply ite_keeps | with_reducible apply State.addA_keeps hP | with_reducible apply State.bump_keeps hP | with_reducible apply State.dropIn_keeps hP | with_reducible apply State.event_keeps hP | with_reducible apply State.eventLim_keeps hP | with_reducible apply State.countDrop_keeps hP | with_reducible apply State.dropRq_keeps hP | with_reducible refine of_fst (by assumption) ?_ | (intro _; intros) | split

theorem State.dropDeliv_keeps (hP : Stable P) (s : State) (d : Deliv) (reason : Nat) (hs : P s) : P (s.dropDeliv d reason) := by
  unfold State.dropDeliv
  repeat' first | with_reducible assumption | with_reducible apply State.releaseDeliv_keeps hP | with_reducible apply State.reportDrop_keeps hP

theorem State.writeRec_keeps (hP : Stable P) (s : State) (d : Deliv) (hs : P s) : P (s.writeRec d) := by
  unfold State.writeRec
  repeat' first | with_reducible assumption | with_reducible apply ite_keeps | with_reducible apply State.addA_keeps hP | with_reducible apply State.bump_keeps hP | with_reducible apply State.setRing_keeps hP | with_reducible apply State.writeEntry_keeps hP | with_reducible apply State.releaseDeliv_keeps hP

theorem State.issueRq_keeps (hP : Stable P) (s : State) (d : Deliv) (hs : P s) : P (s.issueRq d) := by
  unfold State.issueRq
  repeat' first | with_reducible assumption | with_reducible apply ite_keeps | with_reducible apply State.wr_keeps hP | with_reducible apply State.setRing_keeps hP | with_reducible apply State.dropDeliv_keeps hP | with_reducible apply State.writeRec_keeps hP

theorem State.issueMsix_keeps (hP : Stable P) (s : State) (link fn vec : Nat) (hs : P s) : P (s.issueMsix link fn vec) := by
  unfold State.issueMsix
  repeat' first | with_reducible assumption | with_reducible apply State.emit_keeps hP | with_reducible apply State.spendCredit_keeps hP

theorem State.issuePost_keeps (hP : Stable P) (s : State) (link : Nat) (x0 : Post) (hs : P s) : P (s.issuePost link x0) := by
  unfold State.issuePost
  repeat' first | with_reducible assumption | with_reducible apply State.issueEq_keeps hP | with_reducible apply State.issueCq_keeps hP | with_reducible apply State.issueRq_keeps hP | with_reducible apply State.issueMsix_keeps hP | (intro _; intros) | split

theorem State.post_keeps (hP : Stable P) (s : State) (link : Nat) (p : Post) (hs : P s) : P (s.post link p) := by
  unfold State.post
  repeat' first | with_reducible assumption | with_reducible apply ite_keeps | with_reducible apply State.setLink_keeps hP | with_reducible apply State.issuePost_keeps hP

theorem State.drainPosts_keeps (hP : Stable P) (s : State) (link : Nat) (k : Nat) (hs : P s) : P (s.drainPosts link k) := by
  induction k generalizing s with
  | zero => exact hs
  | succ k ih =>
    unfold State.drainPosts
    repeat' first | with_reducible assumption | with_reducible apply ih | with_reducible apply ite_keeps | with_reducible apply State.setLink_keeps hP | with_reducible apply State.issuePost_keeps hP | with_reducible refine of_fst (by assumption) ?_ | (intro _; intros) | split

theorem State.drainHeld_keeps (hP : Stable P) (s : State) (r : Nat) (k : Nat) (hs : P s) : P (s.drainHeld r k) := by
  induction k generalizing s with
  | zero => exact hs
  | succ k ih =>
    unfold State.drainHeld
    repeat' first | with_reducible assumption | with_reducible apply ih | with_reducible apply ite_keeps | with_reducible apply State.wr_keeps hP | with_reducible apply State.setRing_keeps hP | with_reducible apply State.dropDeliv_keeps hP | with_reducible apply State.writeRec_keeps hP | with_reducible refine of_fst (by assumption) ?_ | (intro _; intros) | split

theorem State.tapEnd_keeps (hP : Stable P) (s : State) (hs : P s) : P (s.tapEnd) := by
  unfold State.tapEnd
  repeat' first | with_reducible assumption | with_reducible apply ite_keeps | with_reducible apply State.emit_keeps hP | (intro _; intros) | with_reducible apply hP.tap

theorem State.refuse_keeps (hP : Stable P) (s : State) (a : Access) (reason : Nat) (hs : P s) : P (s.refuse a reason) := by
  unfold State.refuse
  repeat' first | with_reducible assumption | with_reducible apply ite_keeps | with_reducible apply State.bump_keeps hP | with_reducible apply State.emit_keeps hP | with_reducible apply State.event_keeps hP

theorem State.stage_keeps (hP : Stable P) (s : State) (f : Fld) (i j v : Nat) (hs : P s) : P (s.stage f i j v) := by
  unfold State.stage
  repeat' first | with_reducible assumption | with_reducible apply State.rewritten_keeps hP | with_reducible apply State.put_keeps hP | with_reducible apply State.noteWrite_keeps hP | (intro _; intros) | with_reducible apply hP.staged

theorem State.applyField_keeps (hP : Stable P) (s : State) (f : Fld) (i j : Nat) (hs : P s) : P (s.applyField f i j) := by
  unfold State.applyField
  repeat' first | with_reducible assumption | with_reducible apply State.rewritten_keeps hP | with_reducible apply State.wrA_keeps hP | with_reducible apply State.noteWrite_keeps hP | (intro _; intros) | with_reducible apply hP.staged

theorem State.applyStaged_keeps (hP : Stable P) (s : State) (i : Inst) (hs : P s) : P (s.applyStaged i) := by
  unfold State.applyStaged
  repeat' first | with_reducible assumption | with_reducible apply ite_keeps | with_reducible apply State.wr_keeps hP | with_reducible apply State.put_keeps hP | with_reducible apply State.applyField_keeps hP | with_reducible apply ite_fst_keeps | with_reducible apply foldl_keeps | with_reducible apply foldl_fst_keeps | with_reducible refine of_fst (by assumption) ?_ | (intro _; intros)

theorem State.discardStaged_keeps (hP : Stable P) (s : State) (i : Inst) (hs : P s) : P (s.discardStaged i) := by
  unfold State.discardStaged
  repeat' first | with_reducible assumption | with_reducible apply State.put_keeps hP | with_reducible apply ite_fst_keeps | with_reducible apply foldl_keeps | with_reducible apply foldl_fst_keeps | with_reducible refine of_fst (by assumption) ?_ | (intro _; intros) | split | (simp only []) | with_reducible apply hP.staged | with_reducible apply hP.copiesMaj | with_reducible apply hP.copiesBoth | with_reducible apply hP.discard

theorem State.writeField_keeps (hP : Stable P) (s : State) (f : Fld) (i j x m : Nat) (hs : P s) : P (s.writeField f i j x m) := by
  unfold State.writeField
  repeat' first | with_reducible assumption | with_reducible apply ite_keeps | with_reducible apply State.wrA_keeps hP | with_reducible apply State.stage_keeps hP | with_reducible refine of_fst (by assumption) ?_ | (intro _; intros) | split

theorem State.writeWord_keeps (hP : Stable P) (s : State) (l : Loc) (v bits : Nat) (hs : P s) : P (s.writeWord l v bits) := by
  unfold State.writeWord
  repeat' first | with_reducible assumption | with_reducible apply State.writeField_keeps hP | with_reducible apply foldl_keeps | with_reducible apply foldl_fst_keeps | (intro _; intros)

theorem State.hold_keeps (hP : Stable P) (s : State) (f : Func) (l : Loc) (v : Nat) (hs : P s) : P (s.hold f l v) := by
  unfold State.hold
  repeat' first | with_reducible assumption | (intro _; intros) | with_reducible apply hP.host

theorem State.commitGroup_keeps (hP : Stable P) (s : State) (f : Func) (l : Loc) (first n v : Nat) (hs : P s) : P (s.commitGroup f l first n v) := by
  unfold State.commitGroup
  repeat' first | with_reducible assumption | with_reducible apply State.writeWord_keeps hP | with_reducible apply foldl_keeps | with_reducible apply foldl_fst_keeps | with_reducible refine of_fst (by assumption) ?_ | (intro _; intros) | split | (simp only []) | with_reducible apply hP.host

theorem State.dropParts_keeps (hP : Stable P) (s : State) (f : Func) (hs : P s) : P (s.dropParts f) := by
  unfold State.dropParts
  repeat' first | with_reducible assumption | (intro _; intros) | with_reducible apply hP.host

theorem State.writeRing_keeps (hP : Stable P) (s : State) (f : Func) (l : Loc) (v bits : Nat) (hs : P s) : P (s.writeRing f l v bits) := by
  unfold State.writeRing
  repeat' first | with_reducible assumption | with_reducible apply ite_keeps | with_reducible apply State.writeWord_keeps hP | with_reducible apply State.hold_keeps hP | with_reducible apply State.commitGroup_keeps hP

theorem State.writeGather_keeps (hP : Stable P) (s : State) (l : Loc) (v bits : Nat) (hs : P s) : P (s.writeGather l v bits) := by
  unfold State.writeGather
  repeat' first | with_reducible assumption | with_reducible apply ite_keeps | with_reducible apply State.writeWord_keeps hP | with_reducible apply foldl_keeps | with_reducible apply foldl_fst_keeps | with_reducible refine of_fst (by assumption) ?_ | (intro _; intros) | split | (simp only []) | with_reducible apply hP.gt

theorem State.writeReg_keeps (hP : Stable P) (s : State) (f : Func) (l : Loc) (v : Nat) (hs : P s) : P (s.writeReg f l v) := by
  unfold State.writeReg
  repeat' first | with_reducible assumption | with_reducible apply ite_keeps | with_reducible apply State.writeWord_keeps hP | with_reducible apply State.hold_keeps hP | with_reducible apply State.commitGroup_keeps hP | with_reducible apply State.writeRing_keeps hP | with_reducible apply State.writeGather_keeps hP | with_reducible refine of_fst (by assumption) ?_ | (intro _; intros) | split

theorem State.hostWriteOr_keeps (hP : Stable P) (s : State) (f : Func) (off : Nat) (g k : State → State) (hs : P s) (hg : ∀ v, P v → P (g v)) (hk : ∀ v, P v → P (k v)) : P (s.hostWriteOr f off g k) := by
  unfold State.hostWriteOr
  repeat' first | with_reducible assumption | with_reducible apply hg | with_reducible apply hk | with_reducible apply ite_keeps | with_reducible apply State.refuse_keeps hP | with_reducible refine of_fst (by assumption) ?_ | (intro _; intros) | split

theorem State.hostWrite_keeps (hP : Stable P) (s : State) (f : Func) (off : Nat) (k : State → State) (hs : P s) (hk : ∀ v, P v → P (k v)) : P (s.hostWrite f off k) := by
  unfold State.hostWrite
  repeat' first | with_reducible assumption | with_reducible apply hk | with_reducible apply State.bump_keeps hP | with_reducible apply State.hostWriteOr_keeps hP | (intro _; intros)

theorem State.hostReads_keeps (hP : Stable P) (s : State) (a : Access) (k : State → State × List Nat) (hs : P s) (hk : ∀ v, P v → P (k v).1) : P (s.hostReads a k) := by
  unfold State.hostReads
  repeat' first | with_reducible assumption | with_reducible apply hk | with_reducible apply ite_keeps | with_reducible apply State.emit_keeps hP | with_reducible apply State.refuse_keeps hP | with_reducible apply ite_fst_keeps | with_reducible refine of_fst (by assumption) ?_ | (intro _; intros) | split

theorem State.hostRead_keeps (hP : Stable P) (s : State) (f : Func) (off : Nat) (k : State → State × Nat) (hs : P s) (hk : ∀ v, P v → P (k v).1) : P (s.hostRead f off k) := by
  unfold State.hostRead
  repeat' first | with_reducible assumption | with_reducible apply hk | with_reducible apply State.hostReads_keeps hP

theorem State.writeMsix_keeps (hP : Stable P) (s : State) (f : Func) (off v : Nat) (hs : P s) : P (s.writeMsix f off v) := by
  unfold State.writeMsix
  repeat' first | with_reducible assumption | with_reducible apply ite_keeps | with_reducible apply State.setFunc_keeps hP

theorem State.sendMsg_keeps (hP : Stable P) (s : State) (g : Nat) (hs : P s) : P (s.sendMsg g) := by
  unfold State.sendMsg
  repeat' first | with_reducible assumption | with_reducible apply State.wr_keeps hP | with_reducible apply State.put_keeps hP | with_reducible apply State.note_keeps hP | with_reducible apply State.bump_keeps hP | with_reducible apply State.post_keeps hP | with_reducible refine of_fst (by assumption) ?_ | (intro _; intros) | split | (simp only []) | with_reducible apply hP.ic

theorem State.setWindow_keeps (hP : Stable P) (s : State) (g : Nat) (w : Option WinSt) (hs : P s) : P (s.setWindow g w) := by
  unfold State.setWindow
  repeat' first | with_reducible assumption | with_reducible apply State.put_keeps hP | (intro _; intros) | with_reducible apply hP.ic

theorem State.release_keeps (hP : Stable P) (s : State) (g : Nat) (hs : P s) : P (s.release g) := by
  unfold State.release
  repeat' first | with_reducible assumption | with_reducible apply ite_keeps | with_reducible apply State.sendMsg_keeps hP | (intro _; intros) | with_reducible apply hP.ic

theorem State.judge_keeps (hP : Stable P) (s : State) (g : Nat) (hs : P s) : P (s.judge g) := by
  unfold State.judge
  repeat' first | with_reducible assumption | with_reducible apply ite_keeps | with_reducible apply State.sendMsg_keeps hP | with_reducible apply State.setWindow_keeps hP | with_reducible apply State.release_keeps hP

theorem State.coalesce_keeps (hP : Stable P) (s : State) (g : Nat) (hs : P s) : P (s.coalesce g) := by
  unfold State.coalesce
  repeat' first | with_reducible assumption | with_reducible apply State.setWindow_keeps hP | with_reducible refine of_fst (by assumption) ?_ | (intro _; intros) | split

theorem State.becamePending_keeps (hP : Stable P) (s : State) (k : Nat) (hs : P s) : P (s.becamePending k) := by
  unfold State.becamePending
  repeat' first | with_reducible assumption | with_reducible apply ite_keeps | with_reducible apply State.put_keeps hP | with_reducible apply State.bump_keeps hP | with_reducible apply State.setLink_keeps hP | with_reducible apply State.coalesce_keeps hP | with_reducible refine of_fst (by assumption) ?_ | (intro _; intros) | split | (simp only [])

theorem State.settle_keeps (hP : Stable P) (s : State) (k : Nat) (hs : P s) : P (s.settle k) := by
  unfold State.settle
  repeat' first | with_reducible assumption | with_reducible apply ite_keeps | with_reducible apply State.wrA_keeps hP | with_reducible apply State.becamePending_keeps hP

theorem State.settleAll_keeps (hP : Stable P) (s : State) (k : Nat) (hs : P s) : P (s.settleAll k) := by
  unfold State.settleAll
  repeat' first | with_reducible assumption | with_reducible apply State.judge_keeps hP | with_reducible apply State.settle_keeps hP

theorem State.setPend_keeps (hP : Stable P) (s : State) (k : Nat) (hs : P s) : P (s.setPend k) := by
  unfold State.setPend
  repeat' first | with_reducible assumption | with_reducible apply ite_keeps | with_reducible apply State.wrA_keeps hP | with_reducible apply State.settleAll_keeps hP

theorem State.clrPend_keeps (hP : Stable P) (s : State) (k : Nat) (hs : P s) : P (s.clrPend k) := by
  unfold State.clrPend
  repeat' first | with_reducible assumption | with_reducible apply ite_keeps | with_reducible apply State.wrA_keeps hP | with_reducible apply State.settleAll_keeps hP

theorem State.inputChange_keeps (hP : Stable P) (s : State) (k : Nat) (hs : P s) : P (s.inputChange k) := by
  unfold State.inputChange
  repeat' first | with_reducible assumption | with_reducible apply ite_keeps | with_reducible apply State.wrA_keeps hP | with_reducible apply State.note_keeps hP | with_reducible apply State.settleAll_keeps hP

theorem State.senseAll_keeps (hP : Stable P) (s : State) (hs : P s) : P (s.senseAll) := by
  unfold State.senseAll
  repeat' first | with_reducible assumption | with_reducible apply State.wrA_keeps hP | with_reducible apply State.settleAll_keeps hP | with_reducible apply foldl_keeps | with_reducible apply foldl_fst_keeps | (intro _; intros)

theorem State.rearm_keeps (hP : Stable P) (s : State) (g : Nat) (hs : P s) : P (s.rearm g) := by
  unfold State.rearm
  repeat' first | with_reducible assumption | with_reducible apply State.put_keeps hP | with_reducible apply State.judge_keeps hP

theorem State.claim_keeps (hP : Stable P) (s : State) (g : Nat) (hs : P s) : P (s.claim g).1 := by
  unfold State.claim
  repeat' first | with_reducible assumption | with_reducible apply ite_keeps | with_reducible apply State.wrA_keeps hP | with_reducible apply State.wr_keeps hP | with_reducible apply State.rearm_keeps hP | with_reducible apply ite_fst_keeps | with_reducible refine of_fst (by assumption) ?_ | (intro _; intros) | split | (simp only []) | with_reducible apply hP.ic

theorem State.finish_keeps (hP : Stable P) (s : State) (t g k : Nat) (hs : P s) : P (s.finish t g k) := by
  unfold State.finish
  repeat' first | with_reducible assumption | with_reducible apply ite_keeps | with_reducible apply State.wrA_keeps hP | with_reducible apply State.wr_keeps hP | with_reducible apply State.bump_keeps hP | with_reducible apply State.eventLim_keeps hP | with_reducible apply State.rearm_keeps hP | (intro _; intros) | with_reducible apply hP.ic

theorem State.resetSrc_keeps (hP : Stable P) (s : State) (k : Nat) (hs : P s) : P (s.resetSrc k) := by
  unfold State.resetSrc
  repeat' first | with_reducible assumption | with_reducible apply State.wrA_keeps hP | (intro _; intros) | with_reducible apply hP.ic

theorem State.resetTarget_keeps (hP : Stable P) (s : State) (g : Nat) (hs : P s) : P (s.resetTarget g) := by
  unfold State.resetTarget
  repeat' first | with_reducible assumption | with_reducible apply State.wr_keeps hP | with_reducible apply State.put_keeps hP | with_reducible apply State.setWindow_keeps hP | (intro _; intros) | with_reducible apply hP.ic

theorem State.resetIrq_keeps (hP : Stable P) (s : State) (f : Func) (hs : P s) : P (s.resetIrq f) := by
  unfold State.resetIrq
  repeat' first | with_reducible assumption | with_reducible apply State.resetSrc_keeps hP | with_reducible apply State.resetTarget_keeps hP | with_reducible apply foldl_keeps

theorem State.judgeWhere_keeps (hP : Stable P) (s : State) (p : Func → Bool) (hs : P s) : P (s.judgeWhere p) := by
  unfold State.judgeWhere
  repeat' first | with_reducible assumption | with_reducible apply State.judge_keeps hP | with_reducible apply foldl_keeps

theorem State.eachBit_keeps (hP : Stable P) (s : State) (t i v : Nat) (g : State → Nat → State) (hs : P s) (hg : ∀ v x, P v → P (g v x)) : P (s.eachBit t i v g) := by
  unfold State.eachBit
  repeat' first | with_reducible assumption | with_reducible apply hg | with_reducible apply ite_keeps | with_reducible apply foldl_keeps | with_reducible apply foldl_fst_keeps | (intro _; intros)

theorem State.writeSrc_keeps (hP : Stable P) (s : State) (t k v : Nat) (hs : P s) : P (s.writeSrc t k v) := by
  unfold State.writeSrc
  repeat' first | with_reducible assumption | with_reducible apply ite_keeps | with_reducible apply State.wrA_keeps hP | with_reducible apply State.bump_keeps hP | with_reducible apply State.judge_keeps hP | with_reducible apply State.coalesce_keeps hP | with_reducible apply State.settleAll_keeps hP

theorem State.readConfig_keeps (hP : Stable P) (s : State) (a : Access) (hs : P s) : P (s.readConfig a) := by
  unfold State.readConfig
  repeat' first | with_reducible assumption | with_reducible apply ite_keeps | with_reducible apply State.emit_keeps hP

theorem State.writeConfig_keeps (hP : Stable P) (s : State) (a : Access) (hs : P s) : P (s.writeConfig a) := by
  unfold State.writeConfig
  repeat' first | with_reducible assumption | with_reducible apply ite_keeps | with_reducible apply State.setLink_keeps hP | with_reducible apply State.setFunc_keeps hP | with_reducible refine of_fst (by assumption) ?_ | (intro _; intros) | split

theorem State.idle_keeps (hP : Stable P) (s : State) (hs : P s) : P (s.idle) := by
  unfold State.idle
  repeat' first | with_reducible assumption | with_reducible apply State.setLink_keeps hP | with_reducible apply foldl_keeps | with_reducible apply foldl_fst_keeps | (intro _; intros)

theorem State.readMsix_keeps (hP : Stable P) (s : State) (a : Access) (hs : P s) : P (s.readMsix a) := by
  unfold State.readMsix
  repeat' first | with_reducible assumption | with_reducible apply ite_keeps | with_reducible apply State.emit_keeps hP

theorem State.mailArrive_keeps (hP : Stable P) (s : State) (m : Nat) (a : Arrival) (hs : P s) : P (s.mailArrive m a) := by
  unfold State.mailArrive
  repeat' first | with_reducible assumption | with_reducible apply ite_keeps | with_reducible apply State.setMbox_keeps hP

theorem State.closeMailboxes_keeps (hP : Stable P) (s : State) (f : Func) (hs : P s) : P (s.closeMailboxes f) := by
  unfold State.closeMailboxes
  repeat' first | with_reducible assumption | with_reducible apply State.setMbox_keeps hP | with_reducible apply foldl_keeps | with_reducible apply foldl_fst_keeps | with_reducible refine of_fst (by assumption) ?_ | (intro _; intros)

theorem State.openBox_keeps (hP : Stable P) (s : State) (f : Func) (m : Nat) (hs : P s) : P (s.openBox f m).1 := by
  unfold State.openBox
  repeat' first | with_reducible assumption | with_reducible apply ite_keeps | with_reducible apply State.setMbox_keeps hP | with_reducible apply ite_fst_keeps

theorem State.closeBox_keeps (hP : Stable P) (s : State) (m : Nat) (hs : P s) : P (s.closeBox m).1 := by
  unfold State.closeBox
  repeat' first | with_reducible assumption | with_reducible apply ite_keeps | with_reducible apply State.setMbox_keeps hP | with_reducible apply ite_fst_keeps

end Sys2Proof.Machine
end

