-- ==== Sys2Proof/Laws/KeepsPort.lean ====
section
/-! SUPPORT. Every operation of the model keeps a stable predicate: link ports, queues, field bus ports, banks, faults and votes. -/

set_option linter.unusedTactic false
set_option linter.unreachableTactic false
set_option linter.unusedVariables false

namespace Sys2Proof.Machine

variable {P : State → Prop}

theorem State.setLp_keeps (hP : Stable P) (s : State) (n : Nat) (f : LinkPort → LinkPort) (hs : P s) : P (s.setLp n f) := by
  unfold State.setLp
  repeat' first | with_reducible assumption | (intro _; intros) | with_reducible apply hP.ring

theorem State.dropDelay_keeps (hP : Stable P) (s : State) (n : Nat) (hs : P s) : P (s.dropDelay n) := by
  unfold State.dropDelay
  repeat' first | with_reducible assumption | with_reducible apply ite_keeps | with_reducible apply State.wrA_keeps hP | (intro _; intros) | with_reducible apply hP.time | rfl

theorem State.setLstate_keeps (hP : Stable P) (s : State) (n v : Nat) (hs : P s) : P (s.setLstate n v) := by
  unfold State.setLstate
  repeat' first | with_reducible assumption | with_reducible apply ite_keeps | with_reducible apply State.wr_keeps hP | with_reducible apply State.applyStaged_keeps hP | with_reducible apply State.dropDelay_keeps hP

theorem State.bumpPort_keeps (hP : Stable P) (s : State) (n : Nat) (ring pair : Fld) (hs : P s) : P (s.bumpPort n ring pair) := by
  unfold State.bumpPort
  repeat' first | with_reducible assumption | with_reducible apply ite_keeps | with_reducible apply State.bump_keeps hP

theorem State.sendNow_keeps (hP : Stable P) (s : State) (n : Nat) (c : Cell) (hs : P s) : P (s.sendNow n c) := by
  unfold State.sendNow
  repeat' first | with_reducible assumption | with_reducible apply ite_keeps | with_reducible apply State.emit_keeps hP | with_reducible apply State.setLp_keeps hP | with_reducible apply State.bumpPort_keeps hP

theorem State.setInsQ_keeps (hP : Stable P) (s : State) (ring vc : Nat) (l : List Cell) (hs : P s) : P (s.setInsQ ring vc l) := by
  unfold State.setInsQ
  repeat' first | with_reducible assumption | (intro _; intros) | with_reducible apply hP.ring

theorem State.insertHead_keeps (hP : Stable P) (s : State) (n ring vc : Nat) (hs : P s) : P (s.insertHead n ring vc) := by
  unfold State.insertHead
  repeat' first | with_reducible assumption | with_reducible apply ite_keeps | with_reducible apply State.bump_keeps hP | with_reducible apply State.sendNow_keeps hP | with_reducible apply State.setInsQ_keeps hP | with_reducible refine of_fst (by assumption) ?_ | (intro _; intros) | split | (simp only []) | with_reducible apply hP.ring

theorem State.useSlot_keeps (hP : Stable P) (s : State) (n vc : Nat) (hs : P s) : P (s.useSlot n vc) := by
  unfold State.useSlot
  repeat' first | with_reducible assumption | with_reducible apply ite_keeps | with_reducible apply State.setLp_keeps hP

theorem State.freed_keeps (hP : Stable P) (s : State) (m vc : Nat) (hs : P s) : P (s.freed m vc) := by
  unfold State.freed
  repeat' first | with_reducible assumption | with_reducible apply ite_keeps | with_reducible apply State.emit_keeps hP

theorem State.pump_keeps (hP : Stable P) (s : State) (n : Nat) (k : Nat) (hs : P s) : P (s.pump n k) := by
  induction k generalizing s with
  | zero => exact hs
  | succ k ih =>
    unfold State.pump
    repeat' first | with_reducible assumption | with_reducible apply ih | with_reducible apply ite_keeps | with_reducible apply State.setLp_keeps hP | with_reducible apply State.sendNow_keeps hP | with_reducible apply State.insertHead_keeps hP | with_reducible apply State.useSlot_keeps hP | with_reducible apply State.freed_keeps hP | with_reducible refine of_fst (by assumption) ?_ | (intro _; intros) | split

theorem State.transitOn_keeps (hP : Stable P) (s : State) (n : Nat) (c : Cell) (hs : P s) : P (s.transitOn n c) := by
  unfold State.transitOn
  repeat' first | with_reducible assumption | with_reducible apply ite_keeps | with_reducible apply State.setLp_keeps hP | with_reducible apply State.pump_keeps hP

theorem State.insertCell_keeps (hP : Stable P) (s : State) (ring : Nat) (c : Cell) (hs : P s) : P (s.insertCell ring c).1 := by
  unfold State.insertCell
  repeat' first | with_reducible assumption | with_reducible apply ite_keeps | with_reducible apply State.setInsQ_keeps hP | with_reducible apply State.pump_keeps hP | with_reducible apply ite_fst_keeps

theorem State.say_keeps (hP : Stable P) (s : State) (n kind v : Nat) (hs : P s) : P (s.say n kind v) := by
  unfold State.say
  repeat' first | with_reducible assumption | with_reducible apply State.emit_keeps hP

theorem State.sendIdent_keeps (hP : Stable P) (s : State) (n : Nat) (hs : P s) : P (s.sendIdent n) := by
  unfold State.sendIdent
  repeat' first | with_reducible assumption | with_reducible apply State.say_keeps hP | with_reducible apply foldl_keeps | with_reducible apply foldl_fst_keeps | (intro _; intros)

theorem State.resend_keeps (hP : Stable P) (s : State) (n : Nat) (h : HeldCell) (hs : P s) : P (s.resend n h) := by
  unfold State.resend
  repeat' first | with_reducible assumption | with_reducible apply State.emit_keeps hP | with_reducible refine of_fst (by assumption) ?_ | (intro _; intros) | split

theorem State.sendFrom_keeps (hP : Stable P) (s : State) (n v : Nat) (hs : P s) : P (s.sendFrom n v) := by
  unfold State.sendFrom
  repeat' first | with_reducible assumption | with_reducible apply ite_keeps | with_reducible apply State.setLp_keeps hP | with_reducible apply State.resend_keeps hP | with_reducible apply foldl_keeps | with_reducible apply foldl_fst_keeps | (intro _; intros)

theorem State.replay_keeps (hP : Stable P) (s : State) (n v : Nat) (hs : P s) : P (s.replay n v) := by
  unfold State.replay
  repeat' first | with_reducible assumption | with_reducible apply State.bumpPort_keeps hP | with_reducible apply State.sendFrom_keeps hP

theorem State.pushPair_keeps (hP : Stable P) (s : State) (n : Nat) (x : PairItem) (hs : P s) : P (s.pushPair n x) := by
  unfold State.pushPair
  repeat' first | with_reducible assumption | with_reducible apply State.bump_keeps hP | with_reducible apply State.emit_keeps hP | with_reducible apply State.setLp_keeps hP

theorem State.sendPair_keeps (hP : Stable P) (s : State) (n : Nat) (x : PairItem) (hs : P s) : P (s.sendPair n x).1 := by
  unfold State.sendPair
  repeat' first | with_reducible assumption | with_reducible apply ite_keeps | with_reducible apply State.pushPair_keeps hP | with_reducible apply ite_fst_keeps

theorem State.sendRecord_keeps (hP : Stable P) (s : State) (n : Nat) (r : MirrorHeld) (hs : P s) : P (s.sendRecord n r).1 := by
  unfold State.sendRecord
  repeat' first | with_reducible assumption | with_reducible apply ite_keeps | with_reducible apply State.sendPair_keeps hP | with_reducible apply State.mirror_keeps hP | with_reducible apply ite_fst_keeps

theorem State.setMirror_keeps (hP : Stable P) (s : State) (l : List MirrorHeld) (hs : P s) : P (s.setMirror l) := by
  unfold State.setMirror
  repeat' first | with_reducible assumption | with_reducible apply State.wr_keeps hP | (intro _; intros) | with_reducible apply hP.pair

theorem State.pumpMirror_keeps (hP : Stable P) (s : State) (n : Nat) (done rest : List MirrorHeld) (hs : P s) : P (s.pumpMirror n done rest) := by
  induction rest generalizing s done with
  | nil => exact State.setMirror_keeps hP _ _ hs
  | cons r rest ih =>
    unfold State.pumpMirror
    repeat' first | with_reducible assumption | with_reducible apply ih | with_reducible apply ite_keeps | with_reducible apply State.sendRecord_keeps hP

theorem State.mirrorStale_keeps (hP : Stable P) (s : State) (hs : P s) : P (s.mirrorStale) := by
  unfold State.mirrorStale
  repeat' first | with_reducible assumption | with_reducible apply ite_keeps | with_reducible apply State.put_keeps hP | with_reducible apply State.evt_keeps hP | with_reducible apply State.eventLim_keeps hP

theorem State.mirror_keeps (hP : Stable P) (s : State) (b : MirrorBody) (hs : P s) : P (s.mirror b) := by
  unfold State.mirror
  repeat' first | with_reducible assumption | with_reducible apply ite_keeps | with_reducible apply State.wr_keeps hP | with_reducible apply State.sendRecord_keeps hP | with_reducible apply State.setMirror_keeps hP | with_reducible apply State.mirrorStale_keeps hP

theorem State.ackMirror_keeps (hP : Stable P) (s : State) (n : Nat) (cells : List HeldCell) (hs : P s) : P (s.ackMirror n cells) := by
  unfold State.ackMirror
  repeat' first | with_reducible assumption | with_reducible apply ite_keeps | with_reducible apply State.setMirror_keeps hP

theorem State.elemDone_keeps (hP : Stable P) (s : State) (g e st v : Nat) (hs : P s) : P (s.elemDone g e st v) := by
  unfold State.elemDone
  repeat' first | with_reducible assumption | with_reducible apply ite_keeps | (intro _; intros) | with_reducible apply hP.gt

theorem State.finishReq_keeps (hP : Stable P) (s : State) (what : CtxFor) (gaddr st reason dropped : Nat) (words : List Nat) (hs : P s) : P (s.finishReq what gaddr st reason dropped words) := by
  unfold State.finishReq
  repeat' first | with_reducible assumption | with_reducible apply ite_keeps | with_reducible apply State.wrA_keeps hP | with_reducible apply State.wr_keeps hP | with_reducible apply State.put_keeps hP | with_reducible apply State.addA_keeps hP | with_reducible apply State.bump_keeps hP | with_reducible apply State.evt_keeps hP | with_reducible apply State.eventLim_keeps hP | with_reducible apply State.elemDone_keeps hP | with_reducible apply foldl_keeps | with_reducible apply foldl_fst_keeps | with_reducible refine of_fst (by assumption) ?_ | (intro _; intros) | split | (simp only [])

theorem State.completeCtx_keeps (hP : Stable P) (s : State) (tag st reason dropped : Nat) (words : List Nat) (hs : P s) : P (s.completeCtx tag st reason dropped words) := by
  unfold State.completeCtx
  repeat' first | with_reducible assumption | with_reducible apply State.finishReq_keeps hP | with_reducible refine of_fst (by assumption) ?_ | (intro _; intros) | split | (simp only []) | with_reducible apply hP.ring

theorem State.abortCells_keeps (hP : Stable P) (s : State) (n : Nat) (why : Cell → Nat) (hs : P s) : P (s.abortCells n why) := by
  unfold State.abortCells
  repeat' first | with_reducible assumption | with_reducible apply ite_keeps | with_reducible apply State.eventLim_keeps hP | with_reducible apply State.setLp_keeps hP | with_reducible apply State.insertCell_keeps hP | with_reducible apply State.completeCtx_keeps hP | with_reducible apply foldl_keeps | with_reducible apply foldl_fst_keeps | with_reducible refine of_fst (by assumption) ?_ | (intro _; intros) | split | (simp only [])

theorem State.refreshRings_keeps (hP : Stable P) (s : State) (hs : P s) : P (s.refreshRings) := by
  unfold State.refreshRings
  repeat' first | with_reducible assumption | with_reducible apply State.wr_keeps hP

theorem State.linkEvent_keeps (hP : Stable P) (s : State) (n old why : Nat) (hs : P s) : P (s.linkEvent n old why) := by
  unfold State.linkEvent
  repeat' first | with_reducible assumption | with_reducible apply ite_keeps | with_reducible apply State.eventLim_keeps hP

theorem State.setWrap_keeps (hP : Stable P) (s : State) (n : Nat) (on : Bool) (hs : P s) : P (s.setWrap n on) := by
  unfold State.setWrap
  repeat' first | with_reducible assumption | with_reducible apply ite_keeps | with_reducible apply State.put_keeps hP | with_reducible apply State.evt_keeps hP | with_reducible apply State.eventLim_keeps hP | with_reducible apply State.say_keeps hP | with_reducible apply State.refreshRings_keeps hP | with_reducible apply foldl_keeps | with_reducible apply foldl_fst_keeps | (intro _; intros)

theorem State.reroute_keeps (hP : Stable P) (s : State) (n : Nat) (hs : P s) : P (s.reroute n) := by
  unfold State.reroute
  repeat' first | with_reducible assumption | with_reducible apply ite_keeps | with_reducible apply State.setLp_keeps hP | with_reducible apply State.pump_keeps hP | with_reducible apply State.transitOn_keeps hP | with_reducible apply foldl_keeps | with_reducible apply foldl_fst_keeps | (intro _; intros)

theorem State.sendFault_keeps (hP : Stable P) (s : State) (n : Nat) (remote : Bool) (hs : P s) : P (s.sendFault n remote) := by
  unfold State.sendFault
  repeat' first | with_reducible assumption | with_reducible apply State.emit_keeps hP

theorem State.receiverLost_keeps (hP : Stable P) (s : State) (n reason : Nat) (hiber : Bool) (hs : P s) : P (s.receiverLost n reason hiber) := by
  unfold State.receiverLost
  repeat' first | with_reducible assumption | with_reducible apply ite_keeps | with_reducible apply State.put_keeps hP | with_reducible apply State.sendFault_keeps hP

theorem State.loseLink_keeps (hP : Stable P) (s : State) (n reason : Nat) (hs : P s) : P (s.loseLink n reason) := by
  unfold State.loseLink
  repeat' first | with_reducible assumption | with_reducible apply ite_keeps | with_reducible apply State.wr_keeps hP | with_reducible apply State.bump_keeps hP | with_reducible apply State.evt_keeps hP | with_reducible apply State.setLp_keeps hP | with_reducible apply State.setLstate_keeps hP | with_reducible apply State.sendIdent_keeps hP | with_reducible apply State.mirrorStale_keeps hP | with_reducible apply State.linkEvent_keeps hP | with_reducible apply State.setWrap_keeps hP | with_reducible apply State.reroute_keeps hP

theorem State.grantCredits_keeps (hP : Stable P) (s : State) (n : Nat) (hs : P s) : P (s.grantCredits n) := by
  unfold State.grantCredits
  repeat' first | with_reducible assumption | with_reducible apply ite_keeps | with_reducible apply State.say_keeps hP | with_reducible apply foldl_keeps | with_reducible apply foldl_fst_keeps | (intro _; intros)

theorem State.dropSlots_keeps (hP : Stable P) (s : State) (n : Nat) (hs : P s) : P (s.dropSlots n) := by
  unfold State.dropSlots
  repeat' first | with_reducible assumption | with_reducible apply ite_keeps | with_reducible apply State.setLp_keeps hP | with_reducible apply foldl_keeps | with_reducible apply foldl_fst_keeps | (intro _; intros)

theorem State.freshUp_keeps (hP : Stable P) (s : State) (n : Nat) (hs : P s) : P (s.freshUp n) := by
  unfold State.freshUp
  repeat' first | with_reducible assumption | with_reducible apply ite_keeps | with_reducible apply State.evt_keeps hP | with_reducible apply State.setLp_keeps hP | with_reducible apply State.setLstate_keeps hP | with_reducible apply State.pump_keeps hP | with_reducible apply State.pumpMirror_keeps hP | with_reducible apply State.linkEvent_keeps hP | with_reducible apply State.setWrap_keeps hP | with_reducible apply State.dropSlots_keeps hP

theorem State.identified_keeps (hP : Stable P) (s : State) (n : Nat) (hs : P s) : P (s.identified n) := by
  unfold State.identified
  repeat' first | with_reducible assumption | with_reducible apply ite_keeps | with_reducible apply State.evt_keeps hP | with_reducible apply State.setLp_keeps hP | with_reducible apply State.setLstate_keeps hP | with_reducible apply State.pump_keeps hP | with_reducible apply State.sendFrom_keeps hP | with_reducible apply State.abortCells_keeps hP | with_reducible apply State.linkEvent_keeps hP | with_reducible apply State.setWrap_keeps hP | with_reducible apply State.grantCredits_keeps hP | with_reducible apply State.freshUp_keeps hP

theorem State.heard_keeps (hP : Stable P) (s : State) (n : Nat) (hs : P s) : P (s.heard n) := by
  unfold State.heard
  repeat' first | with_reducible assumption | with_reducible apply State.setLp_keeps hP

theorem State.checkSends_keeps (hP : Stable P) (s : State) (n : Nat) (hs : P s) : P (s.checkSends n) := by
  unfold State.checkSends
  repeat' first | with_reducible assumption | with_reducible apply ite_keeps | with_reducible apply State.loseLink_keeps hP

theorem State.retryEnd_keeps (hP : Stable P) (s : State) (n : Nat) (hs : P s) : P (s.retryEnd n) := by
  unfold State.retryEnd
  repeat' first | with_reducible assumption | with_reducible apply ite_keeps | with_reducible apply State.evt_keeps hP | with_reducible apply State.setLp_keeps hP | with_reducible apply State.setLstate_keeps hP | with_reducible apply State.abortCells_keeps hP | with_reducible apply State.linkEvent_keeps hP

theorem State.retryDue_keeps (hP : Stable P) (s : State) (n : Nat) (hs : P s) : P (s.retryDue n) := by
  unfold State.retryDue
  repeat' first | with_reducible assumption | with_reducible apply ite_keeps | with_reducible apply State.retryEnd_keeps hP | with_reducible refine of_fst (by assumption) ?_ | (intro _; intros) | split

theorem State.setTokens_keeps (hP : Stable P) (s : State) (l v : Nat) (hs : P s) : P (s.setTokens l v) := by
  unfold State.setTokens
  repeat' first | with_reducible assumption | with_reducible apply State.setLrt_keeps hP

theorem State.charge_keeps (hP : Stable P) (s : State) (l cost : Nat) (hs : P s) : P (s.charge l cost) := by
  unfold State.charge
  repeat' first | with_reducible assumption | with_reducible apply State.setTokens_keeps hP

theorem State.refund_keeps (hP : Stable P) (s : State) (l cost : Nat) (hs : P s) : P (s.refund l cost) := by
  unfold State.refund
  repeat' first | with_reducible assumption | with_reducible apply State.setTokens_keeps hP | with_reducible refine of_fst (by assumption) ?_ | (intro _; intros) | split

theorem State.noteLease_keeps (hP : Stable P) (s : State) (l : Nat) (hs : P s) : P (s.noteLease l) := by
  unfold State.noteLease
  repeat' first | with_reducible assumption | with_reducible apply State.mirror_keeps hP

theorem State.refreshHead_keeps (hP : Stable P) (s : State) (p : Nat) (hs : P s) : P (s.refreshHead p) := by
  unfold State.refreshHead
  repeat' first | with_reducible assumption | with_reducible apply State.setQueue_keeps hP | with_reducible refine of_fst (by assumption) ?_ | (intro _; intros) | split

theorem State.refreshHeads_keeps (hP : Stable P) (s : State) (hs : P s) : P (s.refreshHeads) := by
  unfold State.refreshHeads
  repeat' first | with_reducible assumption | with_reducible apply State.refreshHead_keeps hP | with_reducible apply foldl_keeps

theorem State.setEntries_keeps (hP : Stable P) (s : State) (p : Nat) (es : List QEntry) (hs : P s) : P (s.setEntries p es) := by
  unfold State.setEntries
  repeat' first | with_reducible assumption | with_reducible apply State.setQueue_keeps hP

theorem State.addEntry_keeps (hP : Stable P) (s : State) (p : Nat) (e : QEntry) (hs : P s) : P (s.addEntry p e) := by
  unfold State.addEntry
  repeat' first | with_reducible assumption | with_reducible apply State.bump_keeps hP | with_reducible apply State.setQueue_keeps hP | with_reducible apply State.refreshHead_keeps hP | with_reducible apply State.setEntries_keeps hP

theorem State.setEntry_keeps (hP : Stable P) (s : State) (p : Nat) (x : QEntry) (f : QEntry → QEntry) (hs : P s) : P (s.setEntry p x f) := by
  unfold State.setEntry
  repeat' first | with_reducible assumption | with_reducible apply ite_keeps | with_reducible apply State.refreshHead_keeps hP | with_reducible apply State.setEntries_keeps hP

theorem State.freeEntry_keeps (hP : Stable P) (s : State) (p : Nat) (e : QEntry) (sent : Bool) (sof : Nat) (hs : P s) : P (s.freeEntry p e sent sof) := by
  unfold State.freeEntry
  repeat' first | with_reducible assumption | with_reducible apply ite_keeps | with_reducible apply State.bump_keeps hP | with_reducible apply State.setLrt_keeps hP | with_reducible apply State.mirror_keeps hP | with_reducible apply State.noteLease_keeps hP | with_reducible apply State.refreshHead_keeps hP | with_reducible apply State.setEntries_keeps hP | with_reducible refine of_fst (by assumption) ?_ | (intro _; intros) | split

theorem State.drainWaitCq_keeps (hP : Stable P) (s : State)  (k : Nat) (hs : P s) : P (s.drainWaitCq k) := by
  induction k generalizing s with
  | zero => exact hs
  | succ k ih =>
    unfold State.drainWaitCq
    repeat' first | with_reducible assumption | with_reducible apply ih | with_reducible apply ite_keeps | with_reducible apply State.bump_keeps hP | with_reducible apply State.post_keeps hP | with_reducible refine of_fst (by assumption) ?_ | (intro _; intros) | split | (simp only []) | with_reducible apply hP.pair

theorem State.mirrorDone_keeps (hP : Stable P) (s : State) (c : Comp) (hs : P s) : P (s.mirrorDone c) := by
  unfold State.mirrorDone
  repeat' first | with_reducible assumption | with_reducible apply ite_keeps | with_reducible apply State.bump_keeps hP | with_reducible apply State.drainWaitCq_keeps hP | (intro _; intros) | with_reducible apply hP.pair

theorem State.mirrorComplete_keeps (hP : Stable P) (s : State) (c : Comp) (hs : P s) : P (s.mirrorComplete c) := by
  unfold State.mirrorComplete
  repeat' first | with_reducible assumption | with_reducible apply ite_keeps | with_reducible apply State.mirrorDone_keeps hP

theorem State.endTenant_keeps (hP : Stable P) (s : State) (e : QEntry) (status result : Nat) (hs : P s) : P (s.endTenant e status result) := by
  unfold State.endTenant
  repeat' first | with_reducible assumption | with_reducible apply ite_keeps | with_reducible apply State.complete_keeps hP | with_reducible apply State.mirror_keeps hP | with_reducible apply State.mirrorComplete_keeps hP

theorem State.setTt_keeps (hP : Stable P) (s : State) (p : Nat) (f : TtSt → TtSt) (hs : P s) : P (s.setTt p f) := by
  unfold State.setTt
  repeat' first | with_reducible assumption | (intro _; intros) | with_reducible apply hP.tt

theorem State.setAn_keeps (hP : Stable P) (s : State) (p : Nat) (f : AniseSt → AniseSt) (hs : P s) : P (s.setAn p f) := by
  unfold State.setAn
  repeat' first | with_reducible assumption | (intro _; intros) | with_reducible apply hP.anise

theorem State.ttCount_keeps (hP : Stable P) (s : State) (f : Fld) (p : Nat) (hs : P s) : P (s.ttCount f p) := by
  unfold State.ttCount
  repeat' first | with_reducible assumption | with_reducible apply State.wrA_keeps hP | with_reducible apply State.note_keeps hP | with_reducible apply State.evt_keeps hP

theorem State.ttMaster_keeps (hP : Stable P) (s : State) (p why : Nat) (hs : P s) : P (s.ttMaster p why) := by
  unfold State.ttMaster
  repeat' first | with_reducible assumption | with_reducible apply State.eventLim_keeps hP

theorem State.setMark_keeps (hP : Stable P) (s : State) (p ns frac epoch ivl cc : Nat) (hs : P s) : P (s.setMark p ns frac epoch ivl cc) := by
  unfold State.setMark
  repeat' first | with_reducible assumption | with_reducible apply State.wrA_keeps hP | with_reducible apply State.evt_keeps hP | with_reducible apply State.setTt_keeps hP

theorem State.ttSkip_keeps (hP : Stable P) (s : State) (p : Nat) (hs : P s) : P (s.ttSkip p) := by
  unfold State.ttSkip
  repeat' first | with_reducible assumption | with_reducible apply State.ttCount_keeps hP | with_reducible apply State.ttMaster_keeps hP

theorem State.endRound_keeps (hP : Stable P) (s : State) (p code : Nat) (hs : P s) : P (s.endRound p code) := by
  unfold State.endRound
  repeat' first | with_reducible assumption | with_reducible apply ite_keeps | with_reducible apply State.wrA_keeps hP | with_reducible apply State.bump_keeps hP | with_reducible apply State.event_keeps hP | with_reducible apply State.setAn_keeps hP

theorem State.failRound_keeps (hP : Stable P) (s : State) (p code : Nat) (hs : P s) : P (s.failRound p code) := by
  unfold State.failRound
  repeat' first | with_reducible assumption | with_reducible apply ite_keeps | with_reducible apply State.endRound_keeps hP

theorem State.setActing_keeps (hP : Stable P) (s : State) (p : Nat) (on : Bool) (hs : P s) : P (s.setActing p on) := by
  unfold State.setActing
  repeat' first | with_reducible assumption | with_reducible apply ite_keeps | with_reducible apply State.wrA_keeps hP | with_reducible apply State.evt_keeps hP

theorem State.devSent_keeps (hP : Stable P) (s : State) (p : Nat) (what : DevFrame) (f : Frame) (ns frac epoch ivl : Nat) (hs : P s) : P (s.devSent p what f ns frac epoch ivl) := by
  unfold State.devSent
  repeat' first | with_reducible assumption | with_reducible apply ite_keeps | with_reducible apply State.setTt_keeps hP | with_reducible apply State.setAn_keeps hP | with_reducible apply State.setMark_keeps hP | with_reducible apply State.setActing_keeps hP | with_reducible refine of_fst (by assumption) ?_ | (intro _; intros) | split | (simp only []) | with_reducible apply hP.pair

theorem State.devReturned_keeps (hP : Stable P) (s : State) (p : Nat) (what : DevFrame) (hs : P s) : P (s.devReturned p what) := by
  unfold State.devReturned
  repeat' first | with_reducible assumption | with_reducible apply State.ttSkip_keeps hP | with_reducible apply State.failRound_keeps hP | with_reducible refine of_fst (by assumption) ?_ | (intro _; intros) | split | (simp only []) | with_reducible apply hP.pair

theorem State.returnEntry_keeps (hP : Stable P) (s : State) (p : Nat) (e : QEntry) (status : Nat) (hs : P s) : P (s.returnEntry p e status) := by
  unfold State.returnEntry
  repeat' first | with_reducible assumption | with_reducible apply State.freeEntry_keeps hP | with_reducible apply State.endTenant_keeps hP | with_reducible apply State.devReturned_keeps hP | with_reducible refine of_fst (by assumption) ?_ | (intro _; intros) | split

theorem State.queueReset_keeps (hP : Stable P) (s : State) (p : Nat) (hs : P s) : P (s.queueReset p) := by
  unfold State.queueReset
  repeat' first | with_reducible assumption | with_reducible apply State.put_keeps hP | with_reducible apply State.bump_keeps hP | with_reducible apply State.setQueue_keeps hP | with_reducible apply State.event_keeps hP | with_reducible apply State.setEntries_keeps hP | with_reducible apply State.returnEntry_keeps hP | with_reducible apply foldl_keeps | with_reducible apply foldl_fst_keeps | with_reducible refine of_fst (by assumption) ?_ | (intro _; intros) | split | (simp only []) | with_reducible apply hP.fc

theorem State.checkPtrs_keeps (hP : Stable P) (s : State) (p : Nat) (hs : P s) : P (s.checkPtrs p) := by
  unfold State.checkPtrs
  repeat' first | with_reducible assumption | with_reducible apply ite_keeps | with_reducible apply State.queueReset_keeps hP

theorem State.returnAll_keeps (hP : Stable P) (s : State) (p status : Nat) (all : Bool) (hs : P s) : P (s.returnAll p status all) := by
  unfold State.returnAll
  repeat' first | with_reducible assumption | with_reducible apply ite_keeps | with_reducible apply State.returnEntry_keeps hP | with_reducible apply State.checkPtrs_keeps hP | with_reducible apply foldl_keeps | with_reducible apply foldl_fst_keeps | (intro _; intros)

theorem State.withdrawDev_keeps (hP : Stable P) (s : State) (p : Nat) (what : DevFrame) (hs : P s) : P (s.withdrawDev p what) := by
  unfold State.withdrawDev
  repeat' first | with_reducible assumption | with_reducible apply ite_keeps | with_reducible apply State.setEntries_keeps hP | with_reducible apply State.freeEntry_keeps hP | with_reducible apply State.checkPtrs_keeps hP | with_reducible apply foldl_keeps | with_reducible apply foldl_fst_keeps | with_reducible refine of_fst (by assumption) ?_ | (intro _; intros)

theorem State.marked_keeps (hP : Stable P) (s : State) (p : Nat) (e : QEntry) (v : State) (hv : s.marked p e = some v) (hs : P s) : P v := by
  unfold State.marked at hv
  repeat' split at hv
  all_goals first | (cases hv; done) | skip
  all_goals (cases hv)
  repeat' first | with_reducible assumption | with_reducible apply ite_keeps | with_reducible apply State.bump_keeps hP | with_reducible apply State.freeEntry_keeps hP | with_reducible apply State.endTenant_keeps hP | with_reducible apply State.devReturned_keeps hP

theorem State.countCancel_keeps (hP : Stable P) (s : State) (e : QEntry) (hs : P s) : P (s.countCancel e) := by
  unfold State.countCancel
  repeat' first | with_reducible assumption | with_reducible apply State.bump_keeps hP

theorem State.outcome_keeps (hP : Stable P) (s : State) (p : Nat) (o : TxOutcome) (hs : P s) : P (s.outcome p o) := by
  unfold State.outcome
  repeat' first | with_reducible assumption | with_reducible apply ite_keeps | with_reducible apply State.bump_keeps hP | with_reducible apply State.setPort_keeps hP | with_reducible apply State.refund_keeps hP | with_reducible apply State.noteLease_keeps hP | with_reducible apply State.setEntry_keeps hP | with_reducible apply State.freeEntry_keeps hP | with_reducible apply State.endTenant_keeps hP | with_reducible apply State.devSent_keeps hP | with_reducible apply State.returnEntry_keeps hP | with_reducible apply State.checkPtrs_keeps hP | with_reducible refine State.marked_keeps hP _ _ _ _ (by assumption) ?_ | with_reducible apply State.countCancel_keeps hP | with_reducible refine of_fst (by assumption) ?_ | (intro _; intros) | split | (simp only [])

theorem State.fbEvt_keeps (hP : Stable P) (s : State) (p n : Nat) (hs : P s) : P (s.fbEvt p n) := by
  unfold State.fbEvt
  repeat' first | with_reducible assumption | with_reducible apply State.evt_keeps hP

theorem State.errStateEvt_keeps (hP : Stable P) (s : State) (p old new : Nat) (warn : Bool) (hs : P s) : P (s.errStateEvt p old new warn) := by
  unfold State.errStateEvt
  repeat' first | with_reducible assumption | with_reducible apply State.event_keeps hP

theorem State.xcvrEvt_keeps (hP : Stable P) (s : State) (p why : Nat) (hs : P s) : P (s.xcvrEvt p why) := by
  unfold State.xcvrEvt
  repeat' first | with_reducible assumption | with_reducible apply State.eventLim_keeps hP

theorem State.protoEvt_keeps (hP : Stable P) (s : State) (p why tdc : Nat) (hs : P s) : P (s.protoEvt p why tdc) := by
  unfold State.protoEvt
  repeat' first | with_reducible assumption | with_reducible apply State.eventLim_keeps hP

theorem State.setXcvr_keeps (hP : Stable P) (s : State) (p m : Nat) (hs : P s) : P (s.setXcvr p m) := by
  unfold State.setXcvr
  repeat' first | with_reducible assumption | with_reducible apply ite_keeps | with_reducible apply State.wr_keeps hP | with_reducible apply State.put_keeps hP

theorem State.refreshXcvr_keeps (hP : Stable P) (s : State) (p : Nat) (hs : P s) : P (s.refreshXcvr p) := by
  unfold State.refreshXcvr
  repeat' first | with_reducible assumption | with_reducible apply ite_keeps | with_reducible apply State.emit_keeps hP | with_reducible apply State.setPort_keeps hP | with_reducible apply State.setXcvr_keeps hP

theorem State.dropTransit_keeps (hP : Stable P) (s : State) (p : Nat) (hs : P s) : P (s.dropTransit p) := by
  unfold State.dropTransit
  repeat' first | with_reducible assumption | with_reducible apply ite_keeps | with_reducible apply State.bump_keeps hP | with_reducible apply State.freeSlot_keeps hP | with_reducible refine of_fst (by assumption) ?_ | (intro _; intros) | split

theorem State.endCur_keeps (hP : Stable P) (s : State) (p : Nat) (tail : Bool) (hs : P s) : P (s.endCur p tail) := by
  unfold State.endCur
  repeat' first | with_reducible assumption | with_reducible apply State.put_keeps hP | with_reducible apply State.setPort_keeps hP

theorem State.portReturns_keeps (hP : Stable P) (s : State) (p status : Nat) (hs : P s) : P (s.portReturns p status) := by
  unfold State.portReturns
  repeat' first | with_reducible assumption | with_reducible apply ite_keeps | with_reducible apply State.setPort_keeps hP | with_reducible apply State.returnAll_keeps hP

theorem State.reportOutcome_keeps (hP : Stable P) (s : State) (p : Nat) (o : TxOutcome) (hs : P s) : P (s.reportOutcome p o) := by
  unfold State.reportOutcome
  repeat' first | with_reducible assumption | with_reducible apply ite_keeps | with_reducible apply State.setPort_keeps hP | with_reducible apply State.outcome_keeps hP

theorem State.refreshRestrict_keeps (hP : Stable P) (s : State) (p : Nat) (hs : P s) : P (s.refreshRestrict p) := by
  unfold State.refreshRestrict
  repeat' first | with_reducible assumption | with_reducible apply ite_keeps | with_reducible apply State.put_keeps hP | with_reducible apply State.setPort_keeps hP | with_reducible apply State.event_keeps hP | with_reducible apply State.failRound_keeps hP | with_reducible apply State.fbEvt_keeps hP | with_reducible apply State.dropTransit_keeps hP | with_reducible apply State.endCur_keeps hP | with_reducible apply State.portReturns_keeps hP | with_reducible apply State.reportOutcome_keeps hP

theorem State.setFstate_keeps (hP : Stable P) (s : State) (p st : Nat) (hs : P s) : P (s.setFstate p st) := by
  unfold State.setFstate
  repeat' first | with_reducible assumption | with_reducible apply ite_keeps | with_reducible apply State.wr_keeps hP | with_reducible apply State.failRound_keeps hP | with_reducible apply State.refreshXcvr_keeps hP | with_reducible apply State.refreshRestrict_keeps hP

theorem State.loadRwi_keeps (hP : Stable P) (s : State) (sel : Fld → Bool) (b : Blk) (i : Nat) (hs : P s) : P (s.loadRwi sel b i) := by
  unfold State.loadRwi
  repeat' first | with_reducible assumption | with_reducible apply State.rewritten_keeps hP | with_reducible apply State.wrA_keeps hP | with_reducible apply foldl_keeps | with_reducible apply foldl_fst_keeps | (intro _; intros)

theorem State.loadResets_keeps (hP : Stable P) (s : State) (fs : List Fld) (i : Nat) (hs : P s) : P (s.loadResets fs i) := by
  unfold State.loadResets
  repeat' first | with_reducible assumption | with_reducible apply State.rewritten_keeps hP | with_reducible apply State.wrA_keeps hP | with_reducible apply foldl_keeps | with_reducible apply foldl_fst_keeps | (intro _; intros)

theorem State.takeImage_keeps (hP : Stable P) (s : State) (p : Nat) (hs : P s) : P (s.takeImage p) := by
  unfold State.takeImage
  repeat' first | with_reducible assumption | with_reducible apply ite_keeps | with_reducible apply State.setPort_keeps hP | with_reducible apply State.loadRwi_keeps hP

theorem State.maceLift_keeps (hP : Stable P) (s : State) (p : Nat) (hs : P s) : P (s.maceLift p) := by
  unfold State.maceLift
  repeat' first | with_reducible assumption | with_reducible apply ite_keeps | with_reducible apply State.setPort_keeps hP

theorem State.fbBoundary_keeps (hP : Stable P) (s : State) (p : Nat) (hs : P s) : P (s.fbBoundary p) := by
  unfold State.fbBoundary
  repeat' first | with_reducible assumption | with_reducible apply ite_keeps | with_reducible apply State.put_keeps hP | with_reducible apply State.setPort_keeps hP | with_reducible apply State.applyStaged_keeps hP | with_reducible apply State.refreshHead_keeps hP | with_reducible apply State.refreshXcvr_keeps hP | with_reducible apply State.refreshRestrict_keeps hP | with_reducible apply State.takeImage_keeps hP | with_reducible apply State.maceLift_keeps hP | with_reducible refine of_fst (by assumption) ?_ | (intro _; intros) | split | (simp only []) | with_reducible apply hP.pair

theorem State.settlePort_keeps (hP : Stable P) (s : State) (p : Nat) (hs : P s) : P (s.settlePort p) := by
  unfold State.settlePort
  repeat' first | with_reducible assumption | with_reducible apply ite_keeps | with_reducible apply State.fbBoundary_keeps hP

theorem State.zeroErrors_keeps (hP : Stable P) (s : State) (p : Nat) (hs : P s) : P (s.zeroErrors p) := by
  unfold State.zeroErrors
  repeat' first | with_reducible assumption | with_reducible apply State.wr_keeps hP | with_reducible apply State.put_keeps hP

theorem State.enterBusOff_keeps (hP : Stable P) (s : State) (p : Nat) (hs : P s) : P (s.enterBusOff p) := by
  unfold State.enterBusOff
  repeat' first | with_reducible assumption | with_reducible apply State.wr_keeps hP | with_reducible apply State.put_keeps hP | with_reducible apply State.bump_keeps hP | with_reducible apply State.setPort_keeps hP | with_reducible apply State.event_keeps hP | with_reducible apply State.fbEvt_keeps hP | with_reducible apply State.dropTransit_keeps hP | with_reducible apply State.endCur_keeps hP | with_reducible apply State.portReturns_keeps hP | with_reducible apply State.setFstate_keeps hP | with_reducible apply State.settlePort_keeps hP

theorem State.enableDisabled_keeps (hP : Stable P) (s : State) (p : Nat) (hs : P s) : P (s.enableDisabled p).1 := by
  unfold State.enableDisabled
  repeat' first | with_reducible assumption | with_reducible apply ite_keeps | with_reducible apply State.wr_keeps hP | with_reducible apply State.setPort_keeps hP | with_reducible apply State.setFstate_keeps hP | with_reducible apply State.zeroErrors_keeps hP | with_reducible apply ite_fst_keeps

theorem State.drained_keeps (hP : Stable P) (s : State) (p res : Nat) (hs : P s) : P (s.drained p res) := by
  unfold State.drained
  repeat' first | with_reducible assumption | with_reducible apply State.event_keeps hP | with_reducible apply State.fbEvt_keeps hP

theorem State.awake_keeps (hP : Stable P) (s : State) (p : Nat) (hs : P s) : P (s.awake p) := by
  unfold State.awake
  repeat' first | with_reducible assumption | with_reducible apply ite_keeps | with_reducible apply State.wrA_keeps hP | with_reducible apply State.setAn_keeps hP

theorem State.toDisabled_keeps (hP : Stable P) (s : State) (p : Nat) (hs : P s) : P (s.toDisabled p) := by
  unfold State.toDisabled
  repeat' first | with_reducible assumption | with_reducible apply ite_keeps | with_reducible apply State.put_keeps hP | with_reducible apply State.setPort_keeps hP | with_reducible apply State.dropTransit_keeps hP | with_reducible apply State.endCur_keeps hP | with_reducible apply State.portReturns_keeps hP | with_reducible apply State.setFstate_keeps hP | with_reducible apply State.settlePort_keeps hP | with_reducible apply State.awake_keeps hP

theorem State.arriveFb_keeps (hP : Stable P) (s : State) (p : Nat) (hs : P s) : P (s.arriveFb p) := by
  unfold State.arriveFb
  repeat' first | with_reducible assumption | with_reducible apply ite_keeps | with_reducible apply State.wr_keeps hP | with_reducible apply State.put_keeps hP | with_reducible apply State.setPort_keeps hP | with_reducible apply State.setFstate_keeps hP | with_reducible apply State.settlePort_keeps hP | with_reducible apply State.zeroErrors_keeps hP

theorem State.leave_keeps (hP : Stable P) (s : State) (p : Nat) (hs : P s) : P (s.leave p) := by
  unfold State.leave
  repeat' first | with_reducible assumption | with_reducible apply ite_keeps | with_reducible apply State.setPort_keeps hP | with_reducible apply State.setFstate_keeps hP | with_reducible apply State.arriveFb_keeps hP

theorem State.endDrain_keeps (hP : Stable P) (s : State) (p : Nat) (hs : P s) : P (s.endDrain p) := by
  unfold State.endDrain
  repeat' first | with_reducible assumption | with_reducible apply ite_keeps | with_reducible apply State.wr_keeps hP | with_reducible apply State.put_keeps hP | with_reducible apply State.enableDisabled_keeps hP | with_reducible apply State.drained_keeps hP | with_reducible apply State.toDisabled_keeps hP | with_reducible apply State.leave_keeps hP | with_reducible apply ite_fst_keeps

theorem State.disablePort_keeps (hP : Stable P) (s : State) (p : Nat) (hs : P s) : P (s.disablePort p) := by
  unfold State.disablePort
  repeat' first | with_reducible assumption | with_reducible apply ite_keeps | with_reducible apply State.put_keeps hP | with_reducible apply State.setPort_keeps hP | with_reducible apply State.setFstate_keeps hP | with_reducible apply State.drained_keeps hP | with_reducible apply State.toDisabled_keeps hP | with_reducible apply State.leave_keeps hP

theorem State.errState_keeps (hP : Stable P) (s : State) (p : Nat) (hs : P s) : P (s.errState p) := by
  unfold State.errState
  repeat' first | with_reducible assumption | with_reducible apply ite_keeps | with_reducible apply State.put_keeps hP | with_reducible apply State.bump_keeps hP | with_reducible apply State.setPort_keeps hP | with_reducible apply State.event_keeps hP | with_reducible apply State.fbEvt_keeps hP | with_reducible apply State.errStateEvt_keeps hP | with_reducible apply State.setFstate_keeps hP | with_reducible apply State.enterBusOff_keeps hP | with_reducible apply State.endDrain_keeps hP

theorem State.tecUp_keeps (hP : Stable P) (s : State) (p n : Nat) (hs : P s) : P (s.tecUp p n) := by
  unfold State.tecUp
  repeat' first | with_reducible assumption | with_reducible apply ite_keeps | with_reducible apply State.wr_keeps hP

theorem State.recUp_keeps (hP : Stable P) (s : State) (p n : Nat) (hs : P s) : P (s.recUp p n) := by
  unfold State.recUp
  repeat' first | with_reducible assumption | with_reducible apply State.wr_keeps hP

theorem State.frameGood_keeps (hP : Stable P) (s : State) (p : Nat) (own : Bool) (hs : P s) : P (s.frameGood p own) := by
  unfold State.frameGood
  repeat' first | with_reducible assumption | with_reducible apply ite_keeps | with_reducible apply State.wr_keeps hP | with_reducible apply State.errState_keeps hP

theorem State.countError_keeps (hP : Stable P) (s : State) (p : Nat) (c : ErrCase) (hs : P s) : P (s.countError p c) := by
  unfold State.countError
  repeat' first | with_reducible assumption | with_reducible apply ite_keeps | with_reducible apply State.tecUp_keeps hP | with_reducible apply State.recUp_keeps hP | with_reducible apply State.role_keeps hP | with_reducible refine of_fst (by assumption) ?_ | (intro _; intros) | split

theorem State.recordError_keeps (hP : Stable P) (s : State) (p : Nat) (e : BusError) (hs : P s) : P (s.recordError p e) := by
  unfold State.recordError
  repeat' first | with_reducible assumption | with_reducible apply ite_keeps | with_reducible apply State.wr_keeps hP | with_reducible apply State.put_keeps hP | with_reducible apply State.bump_keeps hP | with_reducible apply State.fbEvt_keeps hP

theorem State.maceForcePort_keeps (hP : Stable P) (s : State) (p : Nat) (hs : P s) : P (s.maceForcePort p) := by
  unfold State.maceForcePort
  repeat' first | with_reducible assumption | with_reducible apply State.setPort_keeps hP | with_reducible apply State.refreshXcvr_keeps hP | with_reducible apply State.refreshRestrict_keeps hP

theorem State.maceReleasePort_keeps (hP : Stable P) (s : State) (p : Nat) (hs : P s) : P (s.maceReleasePort p) := by
  unfold State.maceReleasePort
  repeat' first | with_reducible assumption | with_reducible apply ite_keeps | with_reducible apply State.setPort_keeps hP | with_reducible apply State.settlePort_keeps hP

theorem State.clearBusOff_keeps (hP : Stable P) (s : State) (p cause : Nat) (hs : P s) : P (s.clearBusOff p cause) := by
  unfold State.clearBusOff
  repeat' first | with_reducible assumption | with_reducible apply State.wr_keeps hP | with_reducible apply State.put_keeps hP | with_reducible apply State.setPort_keeps hP | with_reducible apply State.setFstate_keeps hP

theorem State.handBack_keeps (hP : Stable P) (s : State) (p : Nat) (hs : P s) : P (s.handBack p) := by
  unfold State.handBack
  repeat' first | with_reducible assumption | with_reducible apply ite_keeps | with_reducible apply State.wrA_keeps hP | with_reducible apply State.setFstate_keeps hP

theorem State.setBank_keeps (hP : Stable P) (s : State) (b : Nat) (f : DbSt → DbSt) (hs : P s) : P (s.setBank b f) := by
  unfold State.setBank
  repeat' first | with_reducible assumption | (intro _; intros) | with_reducible apply hP.db

theorem State.refreshDrive_keeps (hP : Stable P) (s : State) (b : Nat) (hs : P s) : P (s.refreshDrive b) := by
  unfold State.refreshDrive
  repeat' first | with_reducible assumption | with_reducible apply ite_keeps | with_reducible apply State.emit_keeps hP | with_reducible apply State.setBank_keeps hP

theorem State.respond_keeps (hP : Stable P) (s : State) (via : Option Nat) (c : Cell) (st reason dropped count : Nat) (payload : List Byte) (hs : P s) : P (s.respond via c st reason dropped count payload) := by
  unfold State.respond
  repeat' first | with_reducible assumption | with_reducible apply ite_keeps | with_reducible apply State.bump_keeps hP | with_reducible apply State.insertCell_keeps hP | with_reducible apply State.completeCtx_keeps hP | with_reducible refine of_fst (by assumption) ?_ | (intro _; intros) | split

theorem State.reportDrops_keeps (hP : Stable P) (s : State) (b : Nat) (c : DbCmd) (dropped why : Nat) (hs : P s) : P (s.reportDrops b c dropped why) := by
  unfold State.reportDrops
  repeat' first | with_reducible assumption | with_reducible apply ite_keeps | with_reducible apply State.addA_keeps hP | with_reducible apply State.evt_keeps hP | with_reducible apply State.eventLim_keeps hP | with_reducible apply State.respond_keeps hP | with_reducible refine of_fst (by assumption) ?_ | (intro _; intros) | split

theorem State.applyCmd_keeps (hP : Stable P) (s : State) (b : Nat) (c : DbCmd) (hs : P s) : P (s.applyCmd b c) := by
  unfold State.applyCmd
  repeat' first | with_reducible assumption | with_reducible apply ite_keeps | with_reducible apply State.wr_keeps hP | with_reducible apply State.setBank_keeps hP | with_reducible apply State.reportDrops_keeps hP

theorem State.applyCmds_keeps (hP : Stable P) (s : State) (b : Nat) (hs : P s) : P (s.applyCmds b) := by
  unfold State.applyCmds
  repeat' first | with_reducible assumption | with_reducible apply State.setBank_keeps hP | with_reducible apply State.applyCmd_keeps hP | with_reducible apply foldl_keeps | with_reducible apply foldl_fst_keeps | (intro _; intros)

theorem State.bankCmd_keeps (hP : Stable P) (s : State) (b : Nat) (c : DbCmd) (hs : P s) : P (s.bankCmd b c) := by
  unfold State.bankCmd
  repeat' first | with_reducible assumption | with_reducible apply ite_keeps | with_reducible apply State.setBank_keeps hP | with_reducible apply State.applyCmd_keeps hP

theorem State.noteOut_keeps (hP : Stable P) (s : State) (b : Nat) (was : Nat × List (Nat × Nat)) (hs : P s) : P (s.noteOut b was) := by
  unfold State.noteOut
  repeat' first | with_reducible assumption | with_reducible apply ite_keeps | with_reducible apply State.mirror_keeps hP

theorem State.maceForceBank_keeps (hP : Stable P) (s : State) (b : Nat) (hs : P s) : P (s.maceForceBank b) := by
  unfold State.maceForceBank
  repeat' first | with_reducible assumption | with_reducible apply ite_keeps | with_reducible apply State.wr_keeps hP | with_reducible apply State.put_keeps hP | with_reducible apply State.evt_keeps hP | with_reducible apply State.setBank_keeps hP | with_reducible apply State.refreshDrive_keeps hP | with_reducible apply State.applyCmds_keeps hP | with_reducible apply State.noteOut_keeps hP

theorem State.maceReleaseBank_keeps (hP : Stable P) (s : State) (b : Nat) (hs : P s) : P (s.maceReleaseBank b) := by
  unfold State.maceReleaseBank
  repeat' first | with_reducible assumption | with_reducible apply ite_keeps | with_reducible apply State.setBank_keeps hP

theorem State.bankDown_keeps (hP : Stable P) (s : State) (b : Nat) (hs : P s) : P (s.bankDown b) := by
  unfold State.bankDown
  repeat' first | with_reducible assumption | with_reducible apply State.wr_keeps hP | with_reducible apply State.setBank_keeps hP | with_reducible apply State.refreshDrive_keeps hP | with_reducible apply State.applyCmds_keeps hP | with_reducible apply State.noteOut_keeps hP

theorem State.tsEnter_keeps (hP : Stable P) (s : State) (b : Nat) (e : TsEntry) (hs : P s) : P (s.tsEnter b e) := by
  unfold State.tsEnter
  repeat' first | with_reducible assumption | with_reducible apply ite_keeps | with_reducible apply State.wr_keeps hP | with_reducible apply State.bump_keeps hP | with_reducible apply State.evt_keeps hP | with_reducible apply State.setBank_keeps hP

theorem State.reportEdge_keeps (hP : Stable P) (s : State) (b : Nat) (e : TsEntry) (hs : P s) : P (s.reportEdge b e) := by
  unfold State.reportEdge
  repeat' first | with_reducible assumption | with_reducible apply ite_keeps | with_reducible apply State.evt_keeps hP | with_reducible apply State.tsEnter_keeps hP

theorem State.setLevel_keeps (hP : Stable P) (s : State) (b line : Nat) (v : Bool) (hs : P s) : P (s.setLevel b line v) := by
  unfold State.setLevel
  repeat' first | with_reducible assumption | with_reducible apply State.wr_keeps hP

theorem State.sampleLine_keeps (hP : Stable P) (s : State) (b levels line : Nat) (hs : P s) : P (s.sampleLine b levels line) := by
  unfold State.sampleLine
  repeat' first | with_reducible assumption | with_reducible apply ite_keeps | with_reducible apply State.setBank_keeps hP | with_reducible apply State.reportEdge_keeps hP | with_reducible apply State.setLevel_keeps hP

theorem State.startFn_keeps (hP : Stable P) (s : State) (b line : Nat) (hs : P s) : P (s.startFn b line) := by
  unfold State.startFn
  repeat' first | with_reducible assumption | with_reducible apply ite_keeps | with_reducible apply State.wrA_keeps hP | with_reducible apply State.wr_keeps hP | with_reducible apply State.setBank_keeps hP | (intro _; intros) | with_reducible apply hP.time | rfl

theorem State.applyBank_keeps (hP : Stable P) (s : State) (b : Nat) (hs : P s) : P (s.applyBank b) := by
  unfold State.applyBank
  repeat' first | with_reducible assumption | with_reducible apply ite_keeps | with_reducible apply State.wr_keeps hP | with_reducible apply State.evt_keeps hP | with_reducible apply State.applyStaged_keeps hP | with_reducible apply State.loadResets_keeps hP | with_reducible apply State.setBank_keeps hP

theorem State.startDue_keeps (hP : Stable P) (s : State) (b : Nat) (hs : P s) : P (s.startDue b) := by
  unfold State.startDue
  repeat' first | with_reducible assumption | with_reducible apply State.startFn_keeps hP | with_reducible apply foldl_keeps | with_reducible apply foldl_fst_keeps | (intro _; intros)

theorem State.endPulse_keeps (hP : Stable P) (s : State) (b line : Nat) (hs : P s) : P (s.endPulse b line) := by
  unfold State.endPulse
  repeat' first | with_reducible assumption | with_reducible apply ite_keeps | with_reducible apply State.wr_keeps hP | with_reducible apply State.setBank_keeps hP

theorem State.liftBank_keeps (hP : Stable P) (s : State) (b : Nat) (hs : P s) : P (s.liftBank b) := by
  unfold State.liftBank
  repeat' first | with_reducible assumption | with_reducible apply ite_keeps | with_reducible apply State.put_keeps hP | with_reducible apply State.evt_keeps hP | with_reducible apply State.setBank_keeps hP

theorem State.bankTick_keeps (hP : Stable P) (s : State) (b levels : Nat) (hs : P s) : P (s.bankTick b levels) := by
  unfold State.bankTick
  repeat' first | with_reducible assumption | with_reducible apply State.setBank_keeps hP | with_reducible apply State.refreshDrive_keeps hP | with_reducible apply State.applyCmds_keeps hP | with_reducible apply State.noteOut_keeps hP | with_reducible apply State.sampleLine_keeps hP | with_reducible apply State.applyBank_keeps hP | with_reducible apply State.startDue_keeps hP | with_reducible apply State.endPulse_keeps hP | with_reducible apply State.liftBank_keeps hP | with_reducible apply foldl_keeps | with_reducible apply foldl_fst_keeps | (intro _; intros)

theorem State.popStamp_keeps (hP : Stable P) (s : State) (f : Func) (b : Nat) (hs : P s) : P (s.popStamp f b).1 := by
  unfold State.popStamp
  repeat' first | with_reducible assumption | with_reducible apply State.wr_keeps hP | with_reducible apply State.setBank_keeps hP | with_reducible apply ite_fst_keeps | with_reducible apply foldl_keeps | with_reducible apply foldl_fst_keeps | with_reducible refine of_fst (by assumption) ?_ | (intro _; intros) | split | (simp only []) | with_reducible apply hP.host

theorem State.clearOc_keeps (hP : Stable P) (s : State) (b lines : Nat) (hs : P s) : P (s.clearOc b lines) := by
  unfold State.clearOc
  repeat' first | with_reducible assumption | with_reducible apply State.wr_keeps hP | with_reducible apply State.setBank_keeps hP

theorem State.gevt_keeps (hP : Stable P) (s : State) (g n : Nat) (hs : P s) : P (s.gevt g n) := by
  unfold State.gevt
  repeat' first | with_reducible assumption | with_reducible apply State.evtA_keeps hP

theorem State.stopRing_keeps (hP : Stable P) (s : State) (hs : P s) : P (s.stopRing) := by
  unfold State.stopRing
  repeat' first | with_reducible assumption | with_reducible apply ite_keeps | with_reducible apply State.put_keeps hP | with_reducible apply State.evt_keeps hP | with_reducible apply State.setInsQ_keeps hP | with_reducible apply State.completeCtx_keeps hP | with_reducible apply foldl_keeps | with_reducible apply foldl_fst_keeps | (intro _; intros)

theorem State.unstopRing_keeps (hP : Stable P) (s : State) (hs : P s) : P (s.unstopRing) := by
  unfold State.unstopRing
  repeat' first | with_reducible assumption | with_reducible apply ite_keeps | with_reducible apply State.put_keeps hP | with_reducible apply State.evt_keeps hP

theorem State.forceMembers_keeps (hP : Stable P) (s : State) (g : Nat) (hs : P s) : P (s.forceMembers g) := by
  unfold State.forceMembers
  repeat' first | with_reducible assumption | with_reducible apply ite_keeps | with_reducible apply State.maceForcePort_keeps hP | with_reducible apply State.maceForceBank_keeps hP | with_reducible apply State.stopRing_keeps hP | with_reducible apply foldl_keeps | with_reducible apply foldl_fst_keeps | (intro _; intros)

theorem State.releaseMembers_keeps (hP : Stable P) (s : State) (g : Nat) (hs : P s) : P (s.releaseMembers g) := by
  unfold State.releaseMembers
  repeat' first | with_reducible assumption | with_reducible apply ite_keeps | with_reducible apply State.maceReleasePort_keeps hP | with_reducible apply State.maceReleaseBank_keeps hP | with_reducible apply State.unstopRing_keeps hP | with_reducible apply foldl_keeps | with_reducible apply foldl_fst_keeps | (intro _; intros)

theorem State.setForced_keeps (hP : Stable P) (s : State) (g : Nat) (on : Bool) (hs : P s) : P (s.setForced g on) := by
  unfold State.setForced
  repeat' first | with_reducible assumption | with_reducible apply State.wrA_keeps hP | with_reducible apply State.wr_keeps hP

theorem State.forceGroup_keeps (hP : Stable P) (s : State) (g : Nat) (hs : P s) : P (s.forceGroup g) := by
  unfold State.forceGroup
  repeat' first | with_reducible assumption | with_reducible apply State.gevt_keeps hP | with_reducible apply State.forceMembers_keeps hP | with_reducible apply State.setForced_keeps hP | (intro _; intros) | with_reducible apply hP.fc

theorem State.releaseGroup_keeps (hP : Stable P) (s : State) (g : Nat) (hs : P s) : P (s.releaseGroup g) := by
  unfold State.releaseGroup
  repeat' first | with_reducible assumption | with_reducible apply State.wrA_keeps hP | with_reducible apply State.eventLim_keeps hP | with_reducible apply State.gevt_keeps hP | with_reducible apply State.releaseMembers_keeps hP | with_reducible apply State.setForced_keeps hP | (intro _; intros) | with_reducible apply hP.fc

theorem State.refreshForces_keeps (hP : Stable P) (s : State) (hs : P s) : P (s.refreshForces) := by
  unfold State.refreshForces
  repeat' first | with_reducible assumption | with_reducible apply ite_keeps | with_reducible apply State.wrA_keeps hP | with_reducible apply State.forceGroup_keeps hP | with_reducible apply State.releaseGroup_keeps hP | with_reducible apply foldl_keeps | with_reducible apply foldl_fst_keeps | (intro _; intros)

theorem State.setFifo_keeps (hP : Stable P) (s : State) (q : List FaultRec) (hs : P s) : P (s.setFifo q) := by
  unfold State.setFifo
  repeat' first | with_reducible assumption | with_reducible apply State.wr_keeps hP | with_reducible apply State.put_keeps hP | (intro _; intros) | with_reducible apply hP.fc

theorem State.lostRec_keeps (hP : Stable P) (s : State) (r : FaultRec) (hs : P s) : P (s.lostRec r) := by
  unfold State.lostRec
  repeat' first | with_reducible assumption | with_reducible apply State.bump_keeps hP | with_reducible apply State.eventLim_keeps hP

theorem State.enterRec_keeps (hP : Stable P) (s : State) (r : FaultRec) (hs : P s) : P (s.enterRec r) := by
  unfold State.enterRec
  repeat' first | with_reducible assumption | with_reducible apply ite_keeps | with_reducible apply State.gevt_keeps hP | with_reducible apply State.setFifo_keeps hP | with_reducible apply State.lostRec_keeps hP | with_reducible refine of_fst (by assumption) ?_ | (intro _; intros) | split | (simp only []) | with_reducible apply hP.fc

theorem State.mergeRec_keeps (hP : Stable P) (s : State) (i k : Nat) (severe : Bool) (rank : Nat) (hs : P s) : P (s.mergeRec i k severe rank) := by
  unfold State.mergeRec
  repeat' first | with_reducible assumption | with_reducible apply ite_keeps | with_reducible apply State.wrA_keeps hP | with_reducible apply State.setFifo_keeps hP | with_reducible refine of_fst (by assumption) ?_ | (intro _; intros) | split

theorem State.setHandling_keeps (hP : Stable P) (s : State) (g i : Nat) (hs : P s) : P (s.setHandling g i) := by
  unfold State.setHandling
  repeat' first | with_reducible assumption | (intro _; intros) | with_reducible apply hP.fc

theorem State.record_keeps (hP : Stable P) (s : State) (k : Nat) (rail severe wasOk forced newly : Bool) (g0 detail : Nat) (hs : P s) : P (s.record k rail severe wasOk forced newly g0 detail) := by
  unfold State.record
  repeat' first | with_reducible assumption | with_reducible apply ite_keeps | with_reducible apply State.enterRec_keeps hP | with_reducible apply State.mergeRec_keeps hP | with_reducible apply State.setHandling_keeps hP | with_reducible refine of_fst (by assumption) ?_ | (intro _; intros) | split | (simp only [])

theorem State.latchGroup_keeps (hP : Stable P) (s : State) (k : Nat) (was : Bool) (hs : P s) : P (s.latchGroup k was) := by
  unfold State.latchGroup
  repeat' first | with_reducible assumption | with_reducible apply ite_keeps | with_reducible apply State.wrA_keeps hP | (intro _; intros) | with_reducible apply hP.fc

theorem State.becameSevere_keeps (hP : Stable P) (s : State) (k : Nat) (rail : Bool) (detail : Nat) (hs : P s) : P (s.becameSevere k rail detail).1 := by
  unfold State.becameSevere
  repeat' first | with_reducible assumption | with_reducible apply ite_keeps | with_reducible apply State.event_keeps hP | with_reducible apply State.gevt_keeps hP | with_reducible apply State.refreshForces_keeps hP

theorem State.causeEvent_keeps (hP : Stable P) (s : State) (k detail : Nat) (hs : P s) : P (s.causeEvent k detail) := by
  unfold State.causeEvent
  repeat' first | with_reducible assumption | with_reducible apply ite_keeps | with_reducible apply State.wrA_keeps hP | with_reducible apply State.bump_keeps hP | with_reducible apply State.gevt_keeps hP | with_reducible apply State.record_keeps hP | with_reducible apply State.latchGroup_keeps hP | with_reducible apply State.becameSevere_keeps hP | with_reducible apply ite_fst_keeps | with_reducible refine of_fst (by assumption) ?_ | (intro _; intros) | split | (simp only []) | with_reducible apply hP.fc

theorem State.railEvent_keeps (hP : Stable P) (s : State) (k : Nat) (hs : P s) : P (s.railEvent k) := by
  unfold State.railEvent
  repeat' first | with_reducible assumption | with_reducible apply ite_keeps | with_reducible apply State.wrA_keeps hP | with_reducible apply State.bump_keeps hP | with_reducible apply State.gevt_keeps hP | with_reducible apply State.record_keeps hP | with_reducible apply State.latchGroup_keeps hP | with_reducible apply State.becameSevere_keeps hP | with_reducible apply ite_fst_keeps

theorem State.sourceAssert_keeps (hP : Stable P) (s : State) (k detail : Nat) (hs : P s) : P (s.sourceAssert k detail) := by
  unfold State.sourceAssert
  repeat' first | with_reducible assumption | with_reducible apply ite_keeps | with_reducible apply State.wrA_keeps hP | with_reducible apply State.causeEvent_keeps hP | (intro _; intros) | with_reducible apply hP.fc

theorem State.faultsDue_keeps (hP : Stable P) (s : State)  (k : Nat) (hs : P s) : P (s.faultsDue k) := by
  induction k generalizing s with
  | zero => exact hs
  | succ k ih =>
    unfold State.faultsDue
    repeat' first | with_reducible assumption | with_reducible apply ih | with_reducible apply State.sourceAssert_keeps hP | with_reducible refine of_fst (by assumption) ?_ | (intro _; intros) | split | (simp only []) | with_reducible apply hP.fc

theorem State.settleFaults_keeps (hP : Stable P) (s : State) (hs : P s) : P (s.settleFaults) := by
  unfold State.settleFaults
  repeat' first | with_reducible assumption | with_reducible apply State.faultsDue_keeps hP

theorem State.faultAssert_keeps (hP : Stable P) (s : State) (k detail : Nat) (hs : P s) : P (s.faultAssert k detail) := by
  unfold State.faultAssert
  repeat' first | with_reducible assumption | with_reducible apply State.sourceAssert_keeps hP | with_reducible apply State.settleFaults_keeps hP

theorem State.netFail_keeps (hP : Stable P) (s : State) (g : Nat) (bad : Bool) (hs : P s) : P (s.netFail g bad) := by
  unfold State.netFail
  repeat' first | with_reducible assumption | with_reducible apply State.wrA_keeps hP | with_reducible apply State.refreshForces_keeps hP

theorem State.clearSource_keeps (hP : Stable P) (s : State) (k : Nat) (hs : P s) : P (s.clearSource k) := by
  unfold State.clearSource
  repeat' first | with_reducible assumption | with_reducible apply ite_keeps | with_reducible apply State.wrA_keeps hP | (intro _; intros) | with_reducible apply hP.fc

theorem State.clearGroup_keeps (hP : Stable P) (s : State) (g v : Nat) (hs : P s) : P (s.clearGroup g v) := by
  unfold State.clearGroup
  repeat' first | with_reducible assumption | with_reducible apply ite_keeps | with_reducible apply State.wrA_keeps hP | with_reducible apply State.addA_keeps hP | with_reducible apply State.eventLim_keeps hP | with_reducible apply State.gevt_keeps hP | with_reducible apply State.refreshForces_keeps hP | with_reducible apply State.clearSource_keeps hP | with_reducible apply foldl_keeps

theorem State.submitReply_keeps (hP : Stable P) (s : State) (p rule : Nat) (f : Frame) (hs : P s) : P (s.submitReply p rule f).1 := by
  unfold State.submitReply
  repeat' first | with_reducible assumption | with_reducible apply ite_keeps | with_reducible apply State.bump_keeps hP | with_reducible apply State.addEntry_keeps hP | with_reducible apply State.checkPtrs_keeps hP | with_reducible apply State.settleFaults_keeps hP | with_reducible apply ite_fst_keeps

theorem State.submitDev_keeps (hP : Stable P) (s : State) (p : Nat) (what : DevFrame) (f : Frame) (hs : P s) : P (s.submitDev p what f).1 := by
  unfold State.submitDev
  repeat' first | with_reducible assumption | with_reducible apply ite_keeps | with_reducible apply State.setLrt_keeps hP | with_reducible apply State.addEntry_keeps hP | with_reducible apply State.devReturned_keeps hP | with_reducible apply State.checkPtrs_keeps hP | with_reducible apply State.settleFaults_keeps hP | with_reducible apply ite_fst_keeps | with_reducible refine of_fst (by assumption) ?_ | (intro _; intros) | split | (simp only [])

theorem State.levelEnd_keeps (hP : Stable P) (s : State) (src : Nat) (hs : P s) : P (s.levelEnd src) := by
  unfold State.levelEnd
  repeat' first | with_reducible assumption | with_reducible apply ite_keeps | with_reducible apply State.wrA_keeps hP | with_reducible apply State.refreshForces_keeps hP | with_reducible apply foldl_keeps | with_reducible apply foldl_fst_keeps | (intro _; intros)

theorem State.popRec_keeps (hP : Stable P) (s : State) (f : Func) (hs : P s) : P (s.popRec f).1 := by
  unfold State.popRec
  repeat' first | with_reducible assumption | with_reducible apply State.evt_keeps hP | with_reducible apply State.setFifo_keeps hP | with_reducible apply ite_fst_keeps | with_reducible apply foldl_keeps | with_reducible apply foldl_fst_keeps | with_reducible refine of_fst (by assumption) ?_ | (intro _; intros) | split | (simp only []) | with_reducible apply hP.host

theorem State.voteSettled_keeps (hP : Stable P) (s : State) (hs : P s) : P (s.voteSettled) := by
  unfold State.voteSettled
  repeat' first | with_reducible assumption | with_reducible apply ite_keeps | with_reducible apply State.levelEnd_keeps hP

theorem State.setTriple_keeps (hP : Stable P) (s : State) (k : Nat) (staged : Bool) (x : Triple) (hs : P s) : P (s.setTriple k staged x) := by
  unfold State.setTriple
  repeat' first | with_reducible assumption | with_reducible apply ite_keeps | (intro _; intros) | with_reducible apply hP.copiesStaged | with_reducible apply hP.copies

theorem State.voteOut_keeps (hP : Stable P) (s : State) (f : Fld) (i j : Nat) (staged : Bool) (v : Nat) (hs : P s) : P (s.voteOut f i j staged v) := by
  unfold State.voteOut
  repeat' first | with_reducible assumption | with_reducible apply ite_keeps | with_reducible apply State.rewritten_keeps hP | with_reducible apply State.wrA_keeps hP | with_reducible apply State.setTriple_keeps hP | (intro _; intros) | with_reducible apply hP.staged

theorem State.vote_keeps (hP : Stable P) (s : State) (f : Fld) (i j : Nat) (staged : Bool) (found : Copies) (detail : Nat) (hs : P s) : P (s.vote f i j staged found detail).1 := by
  unfold State.vote
  repeat' first | with_reducible assumption | with_reducible apply ite_keeps | with_reducible apply State.faultAssert_keeps hP | with_reducible apply State.voteSettled_keeps hP | with_reducible apply State.setTriple_keeps hP | with_reducible apply State.voteOut_keeps hP | with_reducible apply ite_fst_keeps | with_reducible refine of_fst (by assumption) ?_ | (intro _; intros) | split | (simp only []) | with_reducible apply hP.noMajStaged | with_reducible apply hP.noMaj

theorem State.voteRead_keeps (hP : Stable P) (s : State) (l : Loc) (dword : Nat) (found : List Found) (hs : P s) : P (s.voteRead l dword found).1 := by
  unfold State.voteRead
  repeat' first | with_reducible assumption | with_reducible apply ite_keeps | with_reducible apply State.vote_keeps hP | with_reducible apply ite_fst_keeps | with_reducible apply foldl_keeps | with_reducible apply foldl_fst_keeps | with_reducible refine of_fst (by assumption) ?_ | (intro _; intros) | split

theorem State.latch_keeps (hP : Stable P) (s : State) (f : Func) (l : Loc) (n : Nat) (hs : P s) : P (s.latch f l n) := by
  unfold State.latch
  repeat' first | with_reducible assumption | with_reducible apply foldl_keeps | with_reducible apply foldl_fst_keeps | (intro _; intros) | split | (simp only []) | with_reducible apply hP.host

theorem State.readHead_keeps (hP : Stable P) (s : State) (f : Func) (p : Nat) (hs : P s) : P (s.readHead f p).1 := by
  unfold State.readHead
  repeat' first | with_reducible assumption | with_reducible apply ite_keeps | with_reducible apply State.evt_keeps hP | with_reducible apply ite_fst_keeps | (intro _; intros) | with_reducible apply hP.host

theorem State.readLoc_keeps (hP : Stable P) (s : State) (f : Func) (l : Loc) (hs : P s) : P (s.readLoc f l).1 := by
  unfold State.readLoc
  repeat' first | with_reducible assumption | with_reducible apply ite_keeps | with_reducible apply State.claim_keeps hP | with_reducible apply State.popStamp_keeps hP | with_reducible apply State.popRec_keeps hP | with_reducible apply State.latch_keeps hP | with_reducible apply State.readHead_keeps hP | with_reducible apply ite_fst_keeps | with_reducible refine of_fst (by assumption) ?_ | (intro _; intros) | split

theorem State.votedRead_keeps (hP : Stable P) (s : State) (l : Loc) (dword : Nat) (found : List Found) (k : State → State × Nat)
    (hs : P s) (hk : ∀ v, P v → P (k v).1) : P (s.votedRead l dword found k).1 := by
  have h := hk _ (State.voteRead_keeps hP s l dword found hs)
  unfold State.votedRead
  exact ite_fst_keeps h h

theorem State.readDword_keeps (hP : Stable P) (s : State) (f : Func) (found : List Found) (off dword : Nat) (hs : P s) :
    P (s.readDword f found off dword).1 := by
  unfold State.readDword
  split
  · exact State.votedRead_keeps hP _ _ _ _ _ hs fun v hv => State.readLoc_keeps hP _ _ _ hv
  · exact State.votedRead_keeps hP _ _ _ _ _ hs fun v hv => hv
  · split
    · exact State.votedRead_keeps hP _ _ _ _ _ hs fun v hv => hv
    · exact hs
  · exact ite_fst_keeps (State.openBox_keeps hP _ _ _ hs) (ite_fst_keeps (State.closeBox_keeps hP _ _ hs) hs)
  · exact hs

theorem State.readDwords_keeps (hP : Stable P) (s : State) (f : Func) (found : List Found) (off n : Nat) (hs : P s) : P (s.readDwords f found off n).1 := by
  unfold State.readDwords
  repeat' first | with_reducible assumption | with_reducible apply State.readDword_keeps hP | with_reducible apply ite_fst_keeps | with_reducible apply foldl_keeps | with_reducible apply foldl_fst_keeps | with_reducible refine of_fst (by assumption) ?_ | (intro _; intros)

end Sys2Proof.Machine
end

