-- ==== Sys2Proof/Laws/KeepsUnit.lean ====
section
/-! SUPPORT. Every operation of the model keeps a stable predicate: the pair, the ring, gathers, reflexes, reception, serial ports, power and time. -/

set_option linter.unusedTactic false
set_option linter.unreachableTactic false
set_option linter.unusedVariables false

namespace Sys2Proof.Machine

variable {P : State → Prop}

theorem State.setPair_keeps (hP : Stable P) (s : State) (f : PairSt → PairSt) (hs : P s) : P (s.setPair f) := by
  unfold State.setPair
  repeat' first | with_reducible assumption | (intro _; intros) | with_reducible apply hP.pair

theorem State.prEvt_keeps (hP : Stable P) (s : State) (n : Nat) (hs : P s) : P (s.prEvt n) := by
  unfold State.prEvt
  repeat' first | with_reducible assumption | with_reducible apply State.evt_keeps hP

theorem State.roleEvent_keeps (hP : Stable P) (s : State) (old cause : Nat) (hs : P s) : P (s.roleEvent old cause) := by
  unfold State.roleEvent
  repeat' first | with_reducible assumption | with_reducible apply State.event_keeps hP | with_reducible apply State.prEvt_keeps hP | with_reducible apply foldl_keeps | with_reducible apply foldl_fst_keeps | (intro _; intros)

theorem State.settleMirror_keeps (hP : Stable P) (s : State) (p : Nat) (e : QEntry) (hs : P s) : P (s.settleMirror p e) := by
  unfold State.settleMirror
  repeat' first | with_reducible assumption | with_reducible apply State.bump_keeps hP | with_reducible apply State.setEntry_keeps hP | with_reducible apply State.freeEntry_keeps hP | with_reducible apply State.endTenant_keeps hP | with_reducible apply State.prEvt_keeps hP | with_reducible refine of_fst (by assumption) ?_ | (intro _; intros) | split

theorem State.promote_keeps (hP : Stable P) (s : State) (hs : P s) : P (s.promote) := by
  unfold State.promote
  repeat' first | with_reducible assumption | with_reducible apply State.wr_keeps hP | with_reducible apply State.setPort_keeps hP | with_reducible apply State.setMirror_keeps hP | with_reducible apply State.mirror_keeps hP | with_reducible apply State.failRound_keeps hP | with_reducible apply State.settlePort_keeps hP | with_reducible apply State.setPair_keeps hP | with_reducible apply State.settleMirror_keeps hP | with_reducible apply foldl_keeps | with_reducible apply foldl_fst_keeps | (intro _; intros)

theorem State.demoteEntry_keeps (hP : Stable P) (s : State) (p : Nat) (e : QEntry) (hs : P s) : P (s.demoteEntry p e) := by
  unfold State.demoteEntry
  repeat' first | with_reducible assumption | with_reducible apply ite_keeps | with_reducible apply State.complete_keeps hP | with_reducible apply State.mirror_keeps hP | with_reducible apply State.freeEntry_keeps hP | with_reducible apply State.mirrorDone_keeps hP | with_reducible apply State.countCancel_keeps hP | with_reducible refine of_fst (by assumption) ?_ | (intro _; intros) | split

theorem State.demote_keeps (hP : Stable P) (s : State) (hs : P s) : P (s.demote) := by
  unfold State.demote
  repeat' first | with_reducible assumption | with_reducible apply ite_keeps | with_reducible apply State.setMirror_keeps hP | with_reducible apply State.setEntries_keeps hP | with_reducible apply State.failRound_keeps hP | with_reducible apply State.demoteEntry_keeps hP | with_reducible apply foldl_keeps | with_reducible apply foldl_fst_keeps | (intro _; intros)

theorem State.role_keeps (hP : Stable P) (s : State) (st cause : Nat) (hs : P s) : P (s.role st cause) := by
  unfold State.role
  repeat' first | with_reducible assumption | with_reducible apply ite_keeps | with_reducible apply State.wr_keeps hP | with_reducible apply State.put_keeps hP | with_reducible apply State.refreshHeads_keeps hP | with_reducible apply State.prEvt_keeps hP | with_reducible apply State.roleEvent_keeps hP | with_reducible apply State.promote_keeps hP | with_reducible apply State.demote_keeps hP

theorem State.sendClove_keeps (hP : Stable P) (s : State) (hs : P s) : P (s.sendClove) := by
  unfold State.sendClove
  repeat' first | with_reducible assumption | with_reducible apply ite_keeps | with_reducible apply State.wr_keeps hP | with_reducible apply State.submitDev_keeps hP | with_reducible apply State.setPair_keeps hP | with_reducible apply ite_fst_keeps | with_reducible apply foldl_keeps | with_reducible apply foldl_fst_keeps | with_reducible refine of_fst (by assumption) ?_ | (intro _; intros)

theorem State.startContest_keeps (hP : Stable P) (s : State) (hs : P s) : P (s.startContest) := by
  unfold State.startContest
  repeat' first | with_reducible assumption | with_reducible apply State.wr_keeps hP | with_reducible apply State.put_keeps hP | with_reducible apply State.bump_keeps hP | with_reducible apply State.setPair_keeps hP | with_reducible apply State.prEvt_keeps hP | with_reducible apply State.role_keeps hP | with_reducible apply State.sendClove_keeps hP

theorem State.endContest_keeps (hP : Stable P) (s : State) (hs : P s) : P (s.endContest) := by
  unfold State.endContest
  repeat' first | with_reducible assumption | with_reducible apply State.withdrawDev_keeps hP | with_reducible apply State.settleFaults_keeps hP | with_reducible apply State.setPair_keeps hP | with_reducible apply foldl_keeps | with_reducible apply foldl_fst_keeps | (intro _; intros)

theorem State.closeContest_keeps (hP : Stable P) (s : State) (hs : P s) : P (s.closeContest) := by
  unfold State.closeContest
  repeat' first | with_reducible assumption | with_reducible apply ite_keeps | with_reducible apply State.wr_keeps hP | with_reducible apply State.put_keeps hP | with_reducible apply State.bump_keeps hP | with_reducible apply State.eventLim_keeps hP | with_reducible apply State.setPair_keeps hP | with_reducible apply State.prEvt_keeps hP | with_reducible apply State.role_keeps hP | with_reducible apply State.endContest_keeps hP

theorem State.cloveReceived_keeps (hP : Stable P) (s : State) (p : Nat) (h : Header) (hs : P s) : P (s.cloveReceived p h) := by
  unfold State.cloveReceived
  repeat' first | with_reducible assumption | with_reducible apply ite_keeps | with_reducible apply State.wr_keeps hP | with_reducible apply State.bump_keeps hP | with_reducible apply State.setPair_keeps hP

theorem State.endSwap_keeps (hP : Stable P) (s : State) (result : Nat) (hs : P s) : P (s.endSwap result) := by
  unfold State.endSwap
  repeat' first | with_reducible assumption | with_reducible apply ite_keeps | with_reducible apply State.put_keeps hP | with_reducible apply State.eventLim_keeps hP | with_reducible apply State.settlePort_keeps hP | with_reducible apply State.setPair_keeps hP | with_reducible apply State.prEvt_keeps hP | with_reducible apply foldl_keeps | with_reducible apply foldl_fst_keeps | with_reducible refine of_fst (by assumption) ?_ | (intro _; intros) | split

theorem State.swapEntry_keeps (hP : Stable P) (s : State) (p : Nat) (e : QEntry) (hs : P s) : P (s.swapEntry p e) := by
  unfold State.swapEntry
  repeat' first | with_reducible assumption | with_reducible apply ite_keeps | with_reducible apply State.drop1_keeps hP | with_reducible apply State.setRing_keeps hP | with_reducible apply State.mirror_keeps hP | with_reducible apply State.setEntry_keeps hP | with_reducible apply State.freeEntry_keeps hP | with_reducible refine of_fst (by assumption) ?_ | (intro _; intros) | split

theorem State.swapDone_keeps (hP : Stable P) (s : State) (hs : P s) : P (s.swapDone) := by
  unfold State.swapDone
  repeat' first | with_reducible assumption | with_reducible apply State.wr_keeps hP | with_reducible apply State.put_keeps hP | with_reducible apply State.setMirror_keeps hP | with_reducible apply State.roleEvent_keeps hP | with_reducible apply State.endSwap_keeps hP | with_reducible apply State.swapEntry_keeps hP | with_reducible apply foldl_keeps | with_reducible apply foldl_fst_keeps | (intro _; intros)

theorem State.sendSnapshot_keeps (hP : Stable P) (s : State) (hs : P s) : P (s.sendSnapshot) := by
  unfold State.sendSnapshot
  repeat' first | with_reducible assumption | with_reducible apply ite_keeps | with_reducible apply State.pushPair_keeps hP | with_reducible apply foldl_keeps | with_reducible apply foldl_fst_keeps | (intro _; intros)

theorem State.startSync_keeps (hP : Stable P) (s : State) (mseq cause : Nat) (hs : P s) : P (s.startSync mseq cause) := by
  unfold State.startSync
  repeat' first | with_reducible assumption | with_reducible apply State.wr_keeps hP | with_reducible apply State.put_keeps hP | with_reducible apply State.bump_keeps hP | with_reducible apply State.mirror_keeps hP | with_reducible apply State.freeEntry_keeps hP | with_reducible apply State.setPair_keeps hP | with_reducible apply State.role_keeps hP | with_reducible apply foldl_keeps | with_reducible apply foldl_fst_keeps | (intro _; intros)

theorem State.joinPartner_keeps (hP : Stable P) (s : State) (h : Heartbeat) (cause : Nat) (hs : P s) : P (s.joinPartner h cause) := by
  unfold State.joinPartner
  repeat' first | with_reducible assumption | with_reducible apply ite_keeps | with_reducible apply State.put_keeps hP | with_reducible apply State.eventLim_keeps hP | with_reducible apply State.prEvt_keeps hP | with_reducible apply State.role_keeps hP | with_reducible apply State.startSync_keeps hP

theorem State.reconcile_keeps (hP : Stable P) (s : State) (h : Heartbeat) (hs : P s) : P (s.reconcile h) := by
  unfold State.reconcile
  repeat' first | with_reducible assumption | with_reducible apply ite_keeps | with_reducible apply State.role_keeps hP | with_reducible apply State.endContest_keeps hP | with_reducible apply State.joinPartner_keeps hP

theorem State.judgePartner_keeps (hP : Stable P) (s : State) (h : Heartbeat) (before : Option Heartbeat) (hs : P s) : P (s.judgePartner h before) := by
  unfold State.judgePartner
  repeat' first | with_reducible assumption | with_reducible apply ite_keeps | with_reducible apply State.put_keeps hP | with_reducible apply State.mirrorStale_keeps hP | with_reducible apply State.role_keeps hP | with_reducible apply State.endSwap_keeps hP | with_reducible apply State.swapDone_keeps hP | with_reducible apply State.sendSnapshot_keeps hP | with_reducible apply State.joinPartner_keeps hP | with_reducible apply State.reconcile_keeps hP | with_reducible refine of_fst (by assumption) ?_ | (intro _; intros) | split

theorem State.heartbeat_keeps (hP : Stable P) (s : State) (path : Nat) (h : Option Heartbeat) (hs : P s) : P (s.heartbeat path h) := by
  unfold State.heartbeat
  repeat' first | with_reducible assumption | with_reducible apply ite_keeps | with_reducible apply State.wr_keeps hP | with_reducible apply State.put_keeps hP | with_reducible apply State.eventLim_keeps hP | with_reducible apply State.setPair_keeps hP | with_reducible apply State.prEvt_keeps hP | with_reducible apply State.judgePartner_keeps hP | with_reducible refine of_fst (by assumption) ?_ | (intro _; intros) | split

theorem State.acceptLane_keeps (hP : Stable P) (s : State) (n : Nat) (x : LaneCell) (hs : P s) : P (s.acceptLane n x).1 := by
  unfold State.acceptLane
  repeat' first | with_reducible assumption | with_reducible apply ite_keeps | with_reducible apply State.bump_keeps hP | with_reducible apply State.setLp_keeps hP | with_reducible apply State.bumpPort_keeps hP | with_reducible apply State.say_keeps hP | with_reducible apply ite_fst_keeps

theorem State.accept_keeps (hP : Stable P) (s : State) (n : Nat) (c : Cell) (hs : P s) : P (s.accept n c).1 := by
  unfold State.accept
  repeat' first | with_reducible assumption | with_reducible apply ite_keeps | with_reducible apply State.freed_keeps hP | with_reducible apply State.acceptLane_keeps hP | with_reducible apply ite_fst_keeps

theorem State.forward_keeps (hP : Stable P) (s : State) (n : Nat) (c : Cell) (hs : P s) : P (s.forward n c) := by
  unfold State.forward
  repeat' first | with_reducible assumption | with_reducible apply State.transitOn_keeps hP

theorem State.passBack_keeps (hP : Stable P) (s : State) (n : Nat) (c : Cell) (hs : P s) : P (s.passBack n c) := by
  unfold State.passBack
  repeat' first | with_reducible assumption | with_reducible apply State.transitOn_keeps hP

theorem State.hopLimit_keeps (hP : Stable P) (s : State) (ring : Nat) (c : Cell) (hs : P s) : P (s.hopLimit ring c) := by
  unfold State.hopLimit
  repeat' first | with_reducible assumption | with_reducible apply ite_keeps | with_reducible apply State.bump_keeps hP | with_reducible apply State.evt_keeps hP | with_reducible apply State.insertCell_keeps hP

theorem State.serve_keeps (hP : Stable P) (s : State) (via : Option Nat) (c : Cell) (hs : P s) : P (s.serve via c) := by
  unfold State.serve
  repeat' first | with_reducible assumption | with_reducible apply ite_keeps | with_reducible apply State.mailArrive_keeps hP | with_reducible apply State.mirror_keeps hP | with_reducible apply State.respond_keeps hP | with_reducible apply State.bankCmd_keeps hP | with_reducible refine of_fst (by assumption) ?_ | (intro _; intros) | split

theorem State.sinkReq_keeps (hP : Stable P) (s : State) (ring : Nat) (c : Cell) (hs : P s) : P (s.sinkReq ring c) := by
  unfold State.sinkReq
  repeat' first | with_reducible assumption | with_reducible apply ite_keeps | with_reducible apply State.bump_keeps hP | with_reducible apply State.respond_keeps hP | (intro _; intros) | with_reducible apply hP.ring

theorem State.takeReq_keeps (hP : Stable P) (s : State) (n : Nat) (c : Cell) (hs : P s) : P (s.takeReq n c) := by
  unfold State.takeReq
  repeat' first | with_reducible assumption | with_reducible apply ite_keeps | with_reducible apply State.bump_keeps hP | with_reducible apply State.completeCtx_keeps hP | with_reducible apply State.accept_keeps hP | with_reducible apply State.forward_keeps hP | with_reducible apply State.passBack_keeps hP | with_reducible apply State.hopLimit_keeps hP | with_reducible apply State.serve_keeps hP | with_reducible apply ite_fst_keeps | with_reducible refine of_fst (by assumption) ?_ | (intro _; intros) | split | (simp only []) | with_reducible apply hP.ring

theorem State.request_keeps (hP : Stable P) (s : State) (what : CtxFor) (origin tenant op gaddr : Nat) (body : List Byte) (hs : P s) : P (s.request what origin tenant op gaddr body) := by
  unfold State.request
  repeat' first | with_reducible assumption | with_reducible apply ite_keeps | with_reducible apply State.draw_keeps hP | with_reducible apply State.insertCell_keeps hP | with_reducible apply State.finishReq_keeps hP | with_reducible apply State.serve_keeps hP | with_reducible apply ite_fst_keeps | with_reducible refine of_fst (by assumption) ?_ | (intro _; intros) | split | (simp only []) | with_reducible apply hP.ring

theorem State.windowGo_keeps (hP : Stable P) (s : State) (t : Nat) (hs : P s) : P (s.windowGo t) := by
  unfold State.windowGo
  repeat' first | with_reducible assumption | with_reducible apply ite_keeps | with_reducible apply State.request_keeps hP

theorem State.timeoutDue_keeps (hP : Stable P) (s : State) (tag : Nat) (hs : P s) : P (s.timeoutDue tag) := by
  unfold State.timeoutDue
  repeat' first | with_reducible assumption | with_reducible apply ite_keeps | with_reducible apply State.completeCtx_keeps hP | with_reducible refine of_fst (by assumption) ?_ | (intro _; intros) | split

theorem State.probeAnswer_keeps (hP : Stable P) (s : State) (c : Cell) (x : Ctx) (v : State) (hv : s.probeAnswer c x = some v) (hs : P s) : P v := by
  unfold State.probeAnswer at hv
  repeat' split at hv
  all_goals first | (cases hv; done) | skip
  all_goals (cases hv)
  repeat' first | with_reducible assumption | with_reducible apply ite_keeps | with_reducible apply State.bump_keeps hP | with_reducible apply State.heartbeat_keeps hP | with_reducible refine of_fst (by assumption) ?_ | (intro _; intros) | split | (simp only []) | with_reducible apply hP.ring

theorem State.takeRsp_keeps (hP : Stable P) (s : State) (c : Cell) (hs : P s) : P (s.takeRsp c) := by
  unfold State.takeRsp
  repeat' first | with_reducible assumption | with_reducible apply State.bump_keeps hP | with_reducible apply State.evt_keeps hP | with_reducible apply State.completeCtx_keeps hP | with_reducible apply State.timeoutDue_keeps hP | with_reducible refine State.probeAnswer_keeps hP _ _ _ _ (by assumption) ?_ | with_reducible refine of_fst (by assumption) ?_ | (intro _; intros) | split | (simp only [])

theorem State.rspIn_keeps (hP : Stable P) (s : State) (n : Nat) (c : Cell) (hs : P s) : P (s.rspIn n c) := by
  unfold State.rspIn
  repeat' first | with_reducible assumption | with_reducible apply ite_keeps | with_reducible apply State.forward_keeps hP | with_reducible apply State.passBack_keeps hP | with_reducible apply State.hopLimit_keeps hP | with_reducible apply State.takeRsp_keeps hP

theorem State.showMembers_keeps (hP : Stable P) (s : State) (hs : P s) : P (s.showMembers) := by
  unfold State.showMembers
  repeat' first | with_reducible assumption | with_reducible apply State.wrA_keeps hP | with_reducible apply State.wr_keeps hP | with_reducible apply State.refreshRings_keeps hP | with_reducible apply foldl_keeps | with_reducible apply foldl_fst_keeps | (intro _; intros)

theorem State.memberEvent_keeps (hP : Stable P) (s : State) (n why : Nat) (hs : P s) : P (s.memberEvent n why) := by
  unfold State.memberEvent
  repeat' first | with_reducible assumption | with_reducible apply State.wr_keeps hP | with_reducible apply State.evt_keeps hP | with_reducible apply State.eventLim_keeps hP

theorem State.dropRequests_keeps (hP : Stable P) (s : State) (n reason : Nat) (hs : P s) : P (s.dropRequests n reason) := by
  unfold State.dropRequests
  repeat' first | with_reducible assumption | with_reducible apply ite_keeps | with_reducible apply State.setInsQ_keeps hP | with_reducible apply State.completeCtx_keeps hP | with_reducible apply foldl_keeps | with_reducible apply foldl_fst_keeps | (intro _; intros)

theorem State.dupQueued_keeps (hP : Stable P) (s : State) (hs : P s) : P (s.dupQueued) := by
  unfold State.dupQueued
  repeat' first | with_reducible assumption | with_reducible apply State.draw_keeps hP | with_reducible apply State.setInsQ_keeps hP | with_reducible apply State.completeCtx_keeps hP | with_reducible apply foldl_keeps | with_reducible apply foldl_fst_keeps | (intro _; intros)

theorem State.heardMember_keeps (hP : Stable P) (s : State) (ring : Nat) (c : Cell) (hs : P s) : P (s.heardMember ring c) := by
  unfold State.heardMember
  repeat' first | with_reducible assumption | with_reducible apply ite_keeps | with_reducible apply State.put_keeps hP | with_reducible apply State.evt_keeps hP | with_reducible apply State.eventLim_keeps hP | with_reducible apply State.showMembers_keeps hP | with_reducible apply State.memberEvent_keeps hP | with_reducible apply State.dropRequests_keeps hP | with_reducible apply State.dupQueued_keeps hP | (intro _; intros) | with_reducible apply hP.ring

theorem State.broadcastIn_keeps (hP : Stable P) (s : State) (n : Nat) (c : Cell) (take : State → State) (hs : P s) (hk : ∀ v, P v → P (take v)) : P (s.broadcastIn n c take) := by
  unfold State.broadcastIn
  repeat' first | with_reducible assumption | with_reducible apply hk | with_reducible apply ite_keeps | with_reducible apply State.forward_keeps hP | with_reducible apply State.passBack_keeps hP | with_reducible apply State.hopLimit_keeps hP

theorem State.memberGone_keeps (hP : Stable P) (s : State) (n : Nat) (old : Nat → Bool) (hs : P s) : P (s.memberGone n old) := by
  unfold State.memberGone
  repeat' first | with_reducible assumption | with_reducible apply ite_keeps | with_reducible apply State.showMembers_keeps hP | with_reducible apply State.memberEvent_keeps hP | with_reducible apply State.dropRequests_keeps hP | (intro _; intros) | with_reducible apply hP.ring

theorem State.endSleepRound_keeps (hP : Stable P) (s : State) (result refuser reason : Nat) (hs : P s) : P (s.endSleepRound result refuser reason) := by
  unfold State.endSleepRound
  repeat' first | with_reducible assumption | with_reducible apply ite_keeps | with_reducible apply State.wr_keeps hP | with_reducible apply State.put_keeps hP | with_reducible apply State.evt_keeps hP | with_reducible apply State.eventLim_keeps hP | (intro _; intros) | with_reducible apply hP.ring

theorem State.beginRound_keeps (hP : Stable P) (s : State) (hs : P s) : P (s.beginRound) := by
  unfold State.beginRound
  repeat' first | with_reducible assumption | with_reducible apply ite_keeps | with_reducible apply State.wr_keeps hP | with_reducible apply State.put_keeps hP | with_reducible apply State.insertCell_keeps hP | (intro _; intros) | with_reducible apply hP.ring

theorem State.issueElem_keeps (hP : Stable P) (s : State) (g : Nat) (d : GtDef) (e : Nat) (hs : P s) : P (s.issueElem g d e) := by
  unfold State.issueElem
  repeat' first | with_reducible assumption | with_reducible apply ite_keeps | with_reducible apply State.elemDone_keeps hP | with_reducible apply State.request_keeps hP

theorem State.startRun_keeps (hP : Stable P) (s : State) (x : GtStart) (hs : P s) : P (s.startRun x) := by
  unfold State.startRun
  repeat' first | with_reducible assumption | with_reducible apply State.setGrp_keeps hP | with_reducible apply State.issueElem_keeps hP | with_reducible apply foldl_keeps | with_reducible apply foldl_fst_keeps | (intro _; intros) | split | (simp only []) | with_reducible apply hP.gt

theorem State.gatherStart_keeps (hP : Stable P) (s : State) (g trig : Nat) (tenant : Option Nat) (late : Bool) (ns frac epoch : Nat) (hs : P s) : P (s.gatherStart g trig tenant late ns frac epoch).1 := by
  unfold State.gatherStart
  repeat' first | with_reducible assumption | with_reducible apply ite_keeps | with_reducible apply State.bump_keeps hP | with_reducible apply State.eventLim_keeps hP | with_reducible apply State.setGrp_keeps hP | with_reducible apply State.startRun_keeps hP | with_reducible apply ite_fst_keeps | with_reducible refine of_fst (by assumption) ?_ | (intro _; intros) | split | (simp only []) | with_reducible apply hP.gt

theorem State.stepSchedules_keeps (hP : Stable P) (s : State) (before : Nat) (hs : P s) : P (s.stepSchedules before) := by
  unfold State.stepSchedules
  repeat' first | with_reducible assumption | with_reducible apply ite_keeps | with_reducible apply State.gatherStart_keeps hP | with_reducible apply foldl_keeps | with_reducible apply foldl_fst_keeps | (intro _; intros) | split | (simp only []) | with_reducible apply hP.gt

theorem State.nextRun_keeps (hP : Stable P) (s : State) (hs : P s) : P (s.nextRun) := by
  unfold State.nextRun
  repeat' first | with_reducible assumption | with_reducible apply ite_keeps | with_reducible apply State.startRun_keeps hP | with_reducible refine of_fst (by assumption) ?_ | (intro _; intros) | split | (simp only []) | with_reducible apply hP.gt

theorem State.endRun_keeps (hP : Stable P) (s : State) (r : GtRun) (hs : P s) : P (s.endRun r) := by
  unfold State.endRun
  repeat' first | with_reducible assumption | with_reducible apply ite_keeps | with_reducible apply State.bump_keeps hP | with_reducible apply State.setGrp_keeps hP | with_reducible apply State.post_keeps hP | with_reducible apply State.gatherStart_keeps hP | with_reducible apply State.nextRun_keeps hP | (intro _; intros) | with_reducible apply hP.gt

theorem State.noteSat_keeps (hP : Stable P) (s : State) (r : GtRun) (hs : P s) : P (s.noteSat r) := by
  unfold State.noteSat
  repeat' first | with_reducible assumption | with_reducible apply ite_keeps | with_reducible apply State.note_keeps hP | with_reducible apply State.bump_keeps hP | with_reducible apply State.eventLim_keeps hP | with_reducible apply State.setGrp_keeps hP

theorem State.reduce_keeps (hP : Stable P) (s : State) (r : GtRun) (hs : P s) : P (s.reduce r) := by
  unfold State.reduce
  repeat' first | with_reducible assumption | with_reducible apply ite_keeps | with_reducible apply State.endRun_keeps hP | with_reducible apply State.noteSat_keeps hP | with_reducible apply ite_fst_keeps | with_reducible refine of_fst (by assumption) ?_ | (intro _; intros) | split | (simp only []) | with_reducible apply hP.gt

theorem State.storeLatch_keeps (hP : Stable P) (s : State) (k turn : Nat) (bytes : List Byte) (hs : P s) : P (s.storeLatch k turn bytes) := by
  unfold State.storeLatch
  repeat' first | with_reducible assumption | with_reducible apply State.settle_keeps hP | (intro _; intros) | with_reducible apply hP.ru

theorem State.actReply_keeps (hP : Stable P) (s : State) (r : Nat) (ws : List Nat) (count : Nat) (x : RxFrame) (hs : P s) : P (s.actReply r ws count x) := by
  unfold State.actReply
  repeat' first | with_reducible assumption | with_reducible apply ite_keeps | with_reducible apply State.addA_keeps hP | with_reducible apply State.draw_keeps hP | with_reducible apply State.eventLim_keeps hP | with_reducible apply State.submitReply_keeps hP

theorem State.actDout_keeps (hP : Stable P) (s : State) (r : Nat) (ws : List Nat) (x : RxFrame) (hs : P s) : P (s.actDout r ws x) := by
  unfold State.actDout
  repeat' first | with_reducible assumption | with_reducible apply State.bankCmd_keeps hP | with_reducible apply State.noteOut_keeps hP

theorem State.actRmbx_keeps (hP : Stable P) (s : State) (r : Nat) (ws : List Nat) (x : RxFrame) (hs : P s) : P (s.actRmbx r ws x) := by
  unfold State.actRmbx
  repeat' first | with_reducible assumption | with_reducible apply State.request_keeps hP

theorem State.actGather_keeps (hP : Stable P) (s : State) (r : Nat) (ws : List Nat) (hs : P s) : P (s.actGather r ws) := by
  unfold State.actGather
  repeat' first | with_reducible assumption | with_reducible apply ite_keeps | with_reducible apply State.addA_keeps hP | with_reducible apply State.eventLim_keeps hP | with_reducible apply State.gatherStart_keeps hP

theorem State.actStore_keeps (hP : Stable P) (s : State) (r : Nat) (ws : List Nat) (x : RxFrame) (hs : P s) : P (s.actStore r ws x) := by
  unfold State.actStore
  repeat' first | with_reducible assumption | with_reducible apply State.storeLatch_keeps hP

theorem State.dispatch_keeps (hP : Stable P) (s : State) (r : Nat) (ws : List Nat) (count : Nat) (all : Bool) (x : RxFrame) (hs : P s) : P (s.dispatch r ws count all x) := by
  unfold State.dispatch
  repeat' first | with_reducible assumption | with_reducible apply ite_keeps | with_reducible apply State.setPend_keeps hP | with_reducible apply State.actReply_keeps hP | with_reducible apply State.actDout_keeps hP | with_reducible apply State.actRmbx_keeps hP | with_reducible apply State.actGather_keeps hP | with_reducible apply State.actStore_keeps hP

theorem State.fireRule_keeps (hP : Stable P) (s : State) (r : Nat) (ws : List Nat) (x : RxFrame) (hs : P s) : P (s.fireRule r ws x) := by
  unfold State.fireRule
  repeat' first | with_reducible assumption | with_reducible apply ite_keeps | with_reducible apply State.wrA_keeps hP | with_reducible apply State.addA_keeps hP | with_reducible apply State.bump_keeps hP | with_reducible apply State.dispatch_keeps hP | (intro _; intros) | with_reducible apply hP.ru

theorem State.reflexFrame_keeps (hP : Stable P) (s : State) (x : RxFrame) (hs : P s) : P (s.reflexFrame x) := by
  unfold State.reflexFrame
  repeat' first | with_reducible assumption | with_reducible apply ite_keeps | with_reducible apply State.addA_keeps hP | with_reducible apply State.fireRule_keeps hP | with_reducible refine of_fst (by assumption) ?_ | (intro _; intros) | split | (simp only [])

theorem State.chargeDeliv_keeps (hP : Stable P) (s : State) (d : Deliv) (hs : P s) : P (s.chargeDeliv d) := by
  unfold State.chargeDeliv
  repeat' first | with_reducible assumption | with_reducible apply ite_keeps | with_reducible apply State.setLrt_keeps hP | with_reducible refine of_fst (by assumption) ?_ | (intro _; intros) | split | (simp only []) | with_reducible apply hP.sp | with_reducible apply hP.rx

theorem State.steerAll_keeps (hP : Stable P) (s : State) (ds : List Deliv) (capFull : State → Bool) (hs : P s) : P (s.steerAll ds capFull).1 := by
  unfold State.steerAll
  repeat' first | with_reducible assumption | with_reducible apply ite_keeps | with_reducible apply State.reportDrop_keeps hP | with_reducible apply State.chargeDeliv_keeps hP | with_reducible apply ite_fst_keeps | with_reducible apply foldl_keeps | with_reducible apply foldl_fst_keeps | (intro _; intros)

theorem State.toEngines_keeps (hP : Stable P) (s : State) (slot : Option Nat) (ds : List Deliv) (hs : P s) : P (s.toEngines slot ds) := by
  unfold State.toEngines
  repeat' first | with_reducible assumption | with_reducible apply ite_keeps | with_reducible apply foldl_keeps | with_reducible apply foldl_fst_keeps | (intro _; intros) | split | (simp only []) | with_reducible apply hP.rx

theorem State.settleSlot_keeps (hP : Stable P) (s : State) (slot : Option Nat) (ds : List Deliv) (hs : P s) : P (s.settleSlot slot ds) := by
  unfold State.settleSlot
  repeat' first | with_reducible assumption | with_reducible apply ite_keeps | with_reducible apply State.setSlot_keeps hP | with_reducible apply State.freeSlot_keeps hP | with_reducible refine of_fst (by assumption) ?_ | (intro _; intros) | split

theorem State.deliver_keeps (hP : Stable P) (s : State) (slot : Option Nat) (ds : List Deliv) (capFull : State → Bool) (hs : P s) : P (s.deliver slot ds capFull) := by
  unfold State.deliver
  repeat' first | with_reducible assumption | with_reducible apply State.steerAll_keeps hP | with_reducible apply State.toEngines_keeps hP | with_reducible apply State.settleSlot_keeps hP

theorem State.noCapRing_keeps (hP : Stable P) (s : State) (p : Nat) (hs : P s) : P (s.noCapRing p) := by
  unfold State.noCapRing
  repeat' first | with_reducible assumption | with_reducible apply State.addA_keeps hP

theorem State.clCount_keeps (hP : Stable P) (s : State) (f : Fld) (p : Nat) (hs : P s) : P (s.clCount f p) := by
  unfold State.clCount
  repeat' first | with_reducible assumption | with_reducible apply State.addA_keeps hP

theorem State.commitFrame_keeps (hP : Stable P) (s : State) (x : RxFrame) (slot : Option Nat) (reflex : Bool) (hs : P s) : P (s.commitFrame x slot reflex) := by
  unfold State.commitFrame
  repeat' first | with_reducible assumption | with_reducible apply ite_keeps | with_reducible apply State.mailArrive_keeps hP | with_reducible apply State.reflexFrame_keeps hP | with_reducible apply State.deliver_keeps hP | with_reducible apply State.noCapRing_keeps hP | with_reducible apply State.clCount_keeps hP | with_reducible refine of_fst (by assumption) ?_ | (intro _; intros) | split

theorem State.captureFailed_keeps (hP : Stable P) (s : State) (x : RxFrame) (typ : Nat) (hs : P s) : P (s.captureFailed x typ) := by
  unfold State.captureFailed
  repeat' first | with_reducible assumption | with_reducible apply ite_keeps | with_reducible apply State.takeSlot_keeps hP | with_reducible apply State.deliver_keeps hP | with_reducible apply State.noCapRing_keeps hP

theorem State.purge_keeps (hP : Stable P) (s : State) (sel : Deliv → Bool) (reason : Nat) (hs : P s) : P (s.purge sel reason) := by
  unfold State.purge
  repeat' first | with_reducible assumption | with_reducible apply ite_keeps | with_reducible apply State.wr_keeps hP | with_reducible apply State.setLink_keeps hP | with_reducible apply State.setRing_keeps hP | with_reducible apply State.dropDeliv_keeps hP | with_reducible apply foldl_keeps | with_reducible apply foldl_fst_keeps | with_reducible refine of_fst (by assumption) ?_ | (intro _; intros) | split | (simp only []) | with_reducible apply hP.rx

theorem State.setSpt_keeps (hP : Stable P) (s : State) (n : Nat) (f : SpSt → SpSt) (hs : P s) : P (s.setSpt n f) := by
  unfold State.setSpt
  repeat' first | with_reducible assumption | (intro _; intros) | with_reducible apply hP.sp

theorem State.spEvt_keeps (hP : Stable P) (s : State) (n k : Nat) (hs : P s) : P (s.spEvt n k) := by
  unfold State.spEvt
  repeat' first | with_reducible assumption | with_reducible apply State.evt_keeps hP

theorem State.setSpState_keeps (hP : Stable P) (s : State) (n st : Nat) (hs : P s) : P (s.setSpState n st) := by
  unfold State.setSpState
  repeat' first | with_reducible assumption | with_reducible apply State.wr_keeps hP | with_reducible apply State.put_keeps hP

theorem State.spSteer_keeps (hP : Stable P) (s : State) (n : Nat) (addr : Option Nat) (r : RxRec) (hs : P s) : P (s.spSteer n addr r) := by
  unfold State.spSteer
  repeat' first | with_reducible assumption | with_reducible apply ite_keeps | with_reducible apply State.bump_keeps hP | with_reducible apply State.deliver_keeps hP | with_reducible apply State.spEvt_keeps hP

theorem State.closeRec_keeps (hP : Stable P) (s : State) (n code : Nat) (r : SpRec) (hs : P s) : P (s.closeRec n code r) := by
  unfold State.closeRec
  repeat' first | with_reducible assumption | with_reducible apply ite_keeps | with_reducible apply State.put_keeps hP | with_reducible apply State.bump_keeps hP | with_reducible apply State.setSpt_keeps hP | with_reducible apply State.spEvt_keeps hP | with_reducible apply State.spSteer_keeps hP

theorem State.charFaults_keeps (hP : Stable P) (s : State) (n : Nat) (c : CharRead) (hs : P s) : P (s.charFaults n c) := by
  unfold State.charFaults
  repeat' first | with_reducible assumption | with_reducible apply ite_keeps | with_reducible apply State.bump_keeps hP | with_reducible apply State.spEvt_keeps hP

theorem State.dataChar_keeps (hP : Stable P) (s : State) (n : Nat) (c : CharRead) (hs : P s) : P (s.dataChar n c) := by
  unfold State.dataChar
  repeat' first | with_reducible assumption | with_reducible apply ite_keeps | with_reducible apply State.put_keeps hP | with_reducible apply State.setSpt_keeps hP | with_reducible apply State.closeRec_keeps hP

theorem State.addrChar_keeps (hP : Stable P) (s : State) (n : Nat) (c : CharRead) (hs : P s) : P (s.addrChar n c) := by
  unfold State.addrChar
  repeat' first | with_reducible assumption | with_reducible apply ite_keeps | with_reducible apply State.put_keeps hP | with_reducible apply State.setSpt_keeps hP | with_reducible apply State.closeRec_keeps hP | with_reducible refine of_fst (by assumption) ?_ | (intro _; intros) | split

theorem State.refreshTxq_keeps (hP : Stable P) (s : State) (n : Nat) (hs : P s) : P (s.refreshTxq n) := by
  unfold State.refreshTxq
  repeat' first | with_reducible assumption | with_reducible apply ite_keeps | with_reducible apply State.wr_keeps hP | with_reducible apply State.put_keeps hP | with_reducible apply State.spEvt_keeps hP

theorem State.msgGone_keeps (hP : Stable P) (s : State) (m : SpMsg) (hs : P s) : P (s.msgGone m) := by
  unfold State.msgGone
  repeat' first | with_reducible assumption | with_reducible apply State.setLrt_keeps hP

theorem State.msgFail_keeps (hP : Stable P) (s : State) (n : Nat) (m : SpMsg) (why sent : Nat) (hs : P s) : P (s.msgFail n m why sent) := by
  unfold State.msgFail
  repeat' first | with_reducible assumption | with_reducible apply State.bump_keeps hP | with_reducible apply State.eventLim_keeps hP | with_reducible apply State.msgGone_keeps hP

theorem State.driverOff_keeps (hP : Stable P) (s : State) (n : Nat) (hs : P s) : P (s.driverOff n) := by
  unfold State.driverOff
  repeat' first | with_reducible assumption | with_reducible apply ite_keeps | with_reducible apply State.emit_keeps hP

theorem State.returnMsgs_keeps (hP : Stable P) (s : State) (n : Nat) (hs : P s) : P (s.returnMsgs n) := by
  unfold State.returnMsgs
  repeat' first | with_reducible assumption | with_reducible apply State.setSpt_keeps hP | with_reducible apply State.refreshTxq_keeps hP | with_reducible apply State.msgFail_keeps hP | with_reducible apply State.driverOff_keeps hP | with_reducible apply foldl_keeps | with_reducible apply foldl_fst_keeps | with_reducible refine of_fst (by assumption) ?_ | (intro _; intros) | split

theorem State.echo_keeps (hP : Stable P) (s : State) (n : Nat) (c : CharRead) (hs : P s) : P (s.echo n c) := by
  unfold State.echo
  repeat' first | with_reducible assumption | with_reducible apply ite_keeps | with_reducible apply State.bump_keeps hP | with_reducible apply State.setSpt_keeps hP | with_reducible apply State.spEvt_keeps hP | with_reducible apply State.refreshTxq_keeps hP | with_reducible apply State.msgFail_keeps hP | with_reducible apply State.driverOff_keeps hP | with_reducible apply ite_fst_keeps | with_reducible refine of_fst (by assumption) ?_ | (intro _; intros) | split

theorem State.spBoundary_keeps (hP : Stable P) (s : State) (n : Nat) (hs : P s) : P (s.spBoundary n) := by
  unfold State.spBoundary
  repeat' first | with_reducible assumption | with_reducible apply ite_keeps | with_reducible apply State.applyStaged_keeps hP | with_reducible apply State.loadRwi_keeps hP | with_reducible apply State.loadResets_keeps hP | with_reducible apply State.setSpt_keeps hP

theorem State.spLeave_keeps (hP : Stable P) (s : State) (n : Nat) (hs : P s) : P (s.spLeave n) := by
  unfold State.spLeave
  repeat' first | with_reducible assumption | with_reducible apply ite_keeps | with_reducible apply State.setSpt_keeps hP | with_reducible apply State.setSpState_keeps hP

theorem State.spStop_keeps (hP : Stable P) (s : State) (n : Nat) (hs : P s) : P (s.spStop n) := by
  unfold State.spStop
  repeat' first | with_reducible assumption | with_reducible apply State.setSpt_keeps hP | with_reducible apply State.setSpState_keeps hP | with_reducible apply State.closeRec_keeps hP | with_reducible apply State.returnMsgs_keeps hP | with_reducible apply State.spBoundary_keeps hP | with_reducible apply State.spLeave_keeps hP | with_reducible refine of_fst (by assumption) ?_ | (intro _; intros) | split

theorem State.spTurnOn_keeps (hP : Stable P) (s : State) (n : Nat) (hs : P s) : P (s.spTurnOn n).1 := by
  unfold State.spTurnOn
  repeat' first | with_reducible assumption | with_reducible apply ite_keeps | with_reducible apply State.setSpt_keeps hP | with_reducible apply State.setSpState_keeps hP | with_reducible apply ite_fst_keeps

theorem State.spDrainOver_keeps (hP : Stable P) (s : State) (n : Nat) (hs : P s) : P (s.spDrainOver n) := by
  unfold State.spDrainOver
  repeat' first | with_reducible assumption | with_reducible apply ite_keeps | with_reducible apply State.wr_keeps hP | with_reducible apply State.put_keeps hP | with_reducible apply State.eventLim_keeps hP | with_reducible apply State.spEvt_keeps hP | with_reducible apply State.spStop_keeps hP | with_reducible apply State.spTurnOn_keeps hP | with_reducible apply ite_fst_keeps

theorem State.spDisable_keeps (hP : Stable P) (s : State) (n : Nat) (hs : P s) : P (s.spDisable n) := by
  unfold State.spDisable
  repeat' first | with_reducible assumption | with_reducible apply ite_keeps | with_reducible apply State.put_keeps hP | with_reducible apply State.setSpState_keeps hP | with_reducible apply State.spLeave_keeps hP | with_reducible apply State.spDrainOver_keeps hP

theorem State.spPowerOff_keeps (hP : Stable P) (s : State) (n : Nat) (hs : P s) : P (s.spPowerOff n) := by
  unfold State.spPowerOff
  repeat' first | with_reducible assumption | with_reducible apply ite_keeps | with_reducible apply State.put_keeps hP | with_reducible apply State.setSpState_keeps hP | with_reducible apply State.spDrainOver_keeps hP | with_reducible apply State.spDisable_keeps hP

theorem State.spCommand_keeps (hP : Stable P) (s : State) (n bits : Nat) (hs : P s) : P (s.spCommand n bits) := by
  unfold State.spCommand
  repeat' first | with_reducible assumption | with_reducible apply ite_keeps | with_reducible apply State.wr_keeps hP | with_reducible apply State.put_keeps hP | with_reducible apply State.spTurnOn_keeps hP | with_reducible apply State.spDisable_keeps hP | with_reducible apply ite_fst_keeps

theorem State.lineActive_keeps (hP : Stable P) (s : State) (n : Nat) (hs : P s) : P (s.lineActive n) := by
  unfold State.lineActive
  repeat' first | with_reducible assumption | with_reducible apply ite_keeps | with_reducible apply State.setSpt_keeps hP

theorem State.spOwnerCmd_keeps (hP : Stable P) (s : State) (f : Func) (n bits : Nat) (hs : P s) : P (s.spOwnerCmd f n bits) := by
  unfold State.spOwnerCmd
  repeat' first | with_reducible assumption | with_reducible apply ite_keeps | with_reducible apply State.hostWrite_keeps hP | with_reducible apply State.spCommand_keeps hP | (intro _; intros)

theorem State.pwrDone_keeps (hP : Stable P) (s : State) (t result reason : Nat) (hs : P s) : P (s.pwrDone t result reason) := by
  unfold State.pwrDone
  repeat' first | with_reducible assumption | with_reducible apply State.wr_keeps hP | with_reducible apply State.put_keeps hP

theorem State.pwrCmd_keeps (hP : Stable P) (s : State) (f : Func) (k : State → Nat → State) (hs : P s) (hk : ∀ v x, P v → P (k v x)) : P (s.pwrCmd f k) := by
  unfold State.pwrCmd
  repeat' first | with_reducible assumption | with_reducible apply hk | with_reducible apply ite_keeps | with_reducible apply State.put_keeps hP | with_reducible apply State.hostWrite_keeps hP | (intro _; intros)

theorem State.setDon_keeps (hP : Stable P) (s : State) (d : Nat) (on : Bool) (hs : P s) : P (s.setDon d on) := by
  unfold State.setDon
  repeat' first | with_reducible assumption | with_reducible apply State.wrA_keeps hP

theorem State.restSources_keeps (hP : Stable P) (s : State) (d : Nat) (hs : P s) : P (s.restSources d) := by
  unfold State.restSources
  repeat' first | with_reducible assumption | with_reducible apply ite_keeps | with_reducible apply State.setPort_keeps hP | with_reducible apply State.levelEnd_keeps hP

theorem State.domDown_keeps (hP : Stable P) (s : State) (d : Nat) (hs : P s) : P (s.domDown d) := by
  unfold State.domDown
  repeat' first | with_reducible assumption | with_reducible apply ite_keeps | with_reducible apply State.wrA_keeps hP | with_reducible apply State.setLstate_keeps hP | with_reducible apply State.loseLink_keeps hP | with_reducible apply State.refreshXcvr_keeps hP | with_reducible apply State.bankDown_keeps hP | with_reducible apply State.applyBank_keeps hP | with_reducible apply State.spPowerOff_keeps hP | with_reducible apply State.setDon_keeps hP | with_reducible apply State.restSources_keeps hP

theorem State.domUp_keeps (hP : Stable P) (s : State) (d : Nat) (hs : P s) : P (s.domUp d) := by
  unfold State.domUp
  repeat' first | with_reducible assumption | with_reducible apply ite_keeps | with_reducible apply State.wrA_keeps hP | with_reducible apply State.setLink_keeps hP | with_reducible apply State.senseAll_keeps hP | with_reducible apply State.setLstate_keeps hP | with_reducible apply State.refreshXcvr_keeps hP | with_reducible apply State.setBank_keeps hP | with_reducible apply State.refreshDrive_keeps hP | with_reducible apply State.setSpState_keeps hP | with_reducible apply State.setDon_keeps hP | (intro _; intros) | with_reducible apply hP.rx

theorem State.domRefused_keeps (hP : Stable P) (s : State) (t d result reason : Nat) (on : Bool) (hs : P s) : P (s.domRefused t d result reason on) := by
  unfold State.domRefused
  repeat' first | with_reducible assumption | with_reducible apply State.wr_keeps hP | with_reducible apply State.bump_keeps hP | with_reducible apply State.eventLim_keeps hP | with_reducible apply State.pwrDone_keeps hP

theorem State.domCmd_keeps (hP : Stable P) (s : State) (t d : Nat) (on : Bool) (hs : P s) : P (s.domCmd t d on) := by
  unfold State.domCmd
  repeat' first | with_reducible assumption | with_reducible apply ite_keeps | with_reducible apply State.put_keeps hP | with_reducible apply State.domRefused_keeps hP | (intro _; intros) | with_reducible apply hP.pm

theorem State.endSwitch_keeps (hP : Stable P) (s : State) (d : Nat) (on : Bool) (hs : P s) : P (s.endSwitch d on) := by
  unfold State.endSwitch
  repeat' first | with_reducible assumption | (intro _; intros) | with_reducible apply hP.pm

theorem State.refreshEst_keeps (hP : Stable P) (s : State) (hs : P s) : P (s.refreshEst) := by
  unfold State.refreshEst
  repeat' first | with_reducible assumption | with_reducible apply ite_keeps | with_reducible apply State.wr_keeps hP | with_reducible apply State.bump_keeps hP | with_reducible apply State.eventLim_keeps hP

theorem State.startSlew_keeps (hP : Stable P) (s : State) (o : Nat) (hs : P s) : P (s.startSlew o) := by
  unfold State.startSlew
  repeat' first | with_reducible assumption | with_reducible apply ite_keeps | with_reducible apply State.wr_keeps hP | with_reducible apply State.put_keeps hP | with_reducible apply State.refreshEst_keeps hP | (intro _; intros) | with_reducible apply hP.pm

theorem State.setOp_keeps (hP : Stable P) (s : State) (o : Nat) (hs : P s) : P (s.setOp o) := by
  unfold State.setOp
  repeat' first | with_reducible assumption | with_reducible apply State.bump_keeps hP | with_reducible apply State.startSlew_keeps hP

theorem State.startAnise_keeps (hP : Stable P) (s : State) (p : Nat) (fabric : Bool) (hs : P s) : P (s.startAnise p fabric) := by
  unfold State.startAnise
  repeat' first | with_reducible assumption | with_reducible apply State.wrA_keeps hP | with_reducible apply State.bump_keeps hP | with_reducible apply State.setAn_keeps hP | with_reducible apply State.submitDev_keeps hP

theorem State.decideRound_keeps (hP : Stable P) (s : State) (p : Nat) (hs : P s) : P (s.decideRound p) := by
  unfold State.decideRound
  repeat' first | with_reducible assumption | with_reducible apply ite_keeps | with_reducible apply State.wrA_keeps hP | with_reducible apply State.endRound_keeps hP | with_reducible apply State.submitDev_keeps hP

theorem State.aniseReceived_keeps (hP : Stable P) (s : State) (p : Nat) (h : Header) (data : List Byte) (hs : P s) : P (s.aniseReceived p h data) := by
  unfold State.aniseReceived
  repeat' first | with_reducible assumption | with_reducible apply ite_keeps | with_reducible apply State.wrA_keeps hP | with_reducible apply State.setAn_keeps hP | with_reducible apply State.endRound_keeps hP | with_reducible apply State.decideRound_keeps hP

theorem State.wakeEvent_keeps (hP : Stable P) (s : State) (p why : Nat) (hs : P s) : P (s.wakeEvent p why) := by
  unfold State.wakeEvent
  repeat' first | with_reducible assumption | with_reducible apply State.eventLim_keeps hP

theorem State.wakePort_keeps (hP : Stable P) (s : State) (p : Nat) (hs : P s) : P (s.wakePort p) := by
  unfold State.wakePort
  repeat' first | with_reducible assumption | with_reducible apply ite_keeps | with_reducible apply State.setAn_keeps hP | with_reducible apply State.handBack_keeps hP | with_reducible apply State.wakeEvent_keeps hP

theorem State.fabricEvent_keeps (hP : Stable P) (s : State) (what why : Nat) (hs : P s) : P (s.fabricEvent what why) := by
  unfold State.fabricEvent
  repeat' first | with_reducible assumption | with_reducible apply State.eventLim_keeps hP

theorem State.leaveFabricSleep_keeps (hP : Stable P) (s : State) (why : Nat) (hs : P s) : P (s.leaveFabricSleep why) := by
  unfold State.leaveFabricSleep
  repeat' first | with_reducible assumption | with_reducible apply ite_keeps | with_reducible apply State.wrA_keeps hP | with_reducible apply State.put_keeps hP | with_reducible apply State.beginRound_keeps hP | with_reducible apply State.setOp_keeps hP | with_reducible apply State.wakePort_keeps hP | with_reducible apply State.fabricEvent_keeps hP | with_reducible apply foldl_keeps | with_reducible apply foldl_fst_keeps | with_reducible refine of_fst (by assumption) ?_ | (intro _; intros) | split | (simp only []) | with_reducible apply hP.pm

theorem State.enterFabricSleep_keeps (hP : Stable P) (s : State) (hs : P s) : P (s.enterFabricSleep) := by
  unfold State.enterFabricSleep
  repeat' first | with_reducible assumption | with_reducible apply ite_keeps | with_reducible apply State.put_keeps hP | with_reducible apply State.setOp_keeps hP | with_reducible apply State.startAnise_keeps hP | with_reducible apply State.fabricEvent_keeps hP | with_reducible apply foldl_keeps | with_reducible apply foldl_fst_keeps | (intro _; intros) | split | (simp only []) | with_reducible apply hP.pm

theorem State.wakeHanded_keeps (hP : Stable P) (s : State) (p : Nat) (hs : P s) : P (s.wakeHanded p) := by
  unfold State.wakeHanded
  repeat' first | with_reducible assumption | with_reducible apply ite_keeps | with_reducible apply State.wrA_keeps hP | with_reducible apply State.handBack_keeps hP | with_reducible apply State.leaveFabricSleep_keeps hP

theorem State.handWaiting_keeps (hP : Stable P) (s : State) (hs : P s) : P (s.handWaiting) := by
  unfold State.handWaiting
  repeat' first | with_reducible assumption | with_reducible apply ite_keeps | with_reducible apply State.wakeHanded_keeps hP | with_reducible apply foldl_keeps | with_reducible apply foldl_fst_keeps | (intro _; intros)

theorem State.portPwr_keeps (hP : Stable P) (s : State) (f : Func) (p : Nat) (k : State → State × Nat) (hs : P s) (hk : ∀ v, P v → P (k v).1) : P (s.portPwr f p k) := by
  unfold State.portPwr
  repeat' first | with_reducible assumption | with_reducible apply hk | with_reducible apply ite_keeps | with_reducible apply State.pwrDone_keeps hP | with_reducible apply State.pwrCmd_keeps hP | with_reducible apply ite_fst_keeps | with_reducible refine of_fst (by assumption) ?_ | (intro _; intros)

theorem State.setVeto_keeps (hP : Stable P) (s : State) (p v : Nat) (hs : P s) : P (s.setVeto p v).1 := by
  unfold State.setVeto
  repeat' first | with_reducible assumption | with_reducible apply ite_keeps | with_reducible apply State.wrA_keeps hP | with_reducible apply ite_fst_keeps

theorem State.setTime_keeps (hP : Stable P) (s : State) (f : TimeSt → TimeSt) (hs : P s) (hf : ∀ u, (f u).ivl = u.ivl) : P (s.setTime f) :=
  hP.time s _ (hf _) hs

theorem State.setFreq_keeps (hP : Stable P) (s : State) (z : Int) (hs : P s) : P (s.setFreq z) := by
  unfold State.setFreq
  repeat' first | with_reducible assumption | with_reducible apply State.wr_keeps hP | with_reducible apply State.timeMark_keeps hP | with_reducible apply State.setTime_keeps hP | (intro _; intros) | rfl

theorem State.setTimeState_keeps (hP : Stable P) (s : State) (new why : Nat) (hs : P s) : P (s.setTimeState new why) := by
  unfold State.setTimeState
  repeat' first | with_reducible assumption | with_reducible apply ite_keeps | with_reducible apply State.wr_keeps hP | with_reducible apply State.evt_keeps hP | with_reducible apply State.eventLim_keeps hP | with_reducible apply State.setTime_keeps hP | (intro _; intros) | rfl | (split <;> first | rfl | (split <;> rfl))

theorem State.loseReference_keeps (hP : Stable P) (s : State) (hs : P s) : P (s.loseReference) := by
  unfold State.loseReference
  repeat' first | with_reducible assumption | with_reducible apply ite_keeps | with_reducible apply State.bump_keeps hP | with_reducible apply State.setFreq_keeps hP | with_reducible apply State.setTimeState_keeps hP

theorem State.fireAlarm_keeps (hP : Stable P) (s : State) (late : Bool) (hs : P s) : P (s.fireAlarm late) := by
  unfold State.fireAlarm
  repeat' first | with_reducible assumption | with_reducible apply State.put_keeps hP | with_reducible apply State.evt_keeps hP

theorem State.stepTime_keeps (hP : Stable P) (s : State) (fab why : Nat) (hs : P s) : P (s.stepTime fab why) := by
  unfold State.stepTime
  repeat' first | with_reducible assumption | with_reducible apply ite_keeps | with_reducible apply State.wr_keeps hP | with_reducible apply State.put_keeps hP | with_reducible apply State.bump_keeps hP | with_reducible apply State.evt_keeps hP | with_reducible apply State.timeMark_keeps hP | with_reducible apply State.eventLim_keeps hP | with_reducible apply State.setTt_keeps hP | with_reducible apply State.stepSchedules_keeps hP | with_reducible apply State.setTime_keeps hP | with_reducible apply State.fireAlarm_keeps hP | with_reducible apply foldl_keeps | with_reducible apply foldl_fst_keeps | (intro _; intros) | split | (simp only [])

theorem State.removeOffset_keeps (hP : Stable P) (s : State) (o : Int) (why : Nat) (hs : P s) : P (s.removeOffset o why).1 := by
  unfold State.removeOffset
  repeat' first | with_reducible assumption | with_reducible apply ite_keeps | with_reducible apply State.put_keeps hP | with_reducible apply State.timeMark_keeps hP | with_reducible apply State.setTime_keeps hP | with_reducible apply State.stepTime_keeps hP | with_reducible apply ite_fst_keeps | (intro _; intros) | rfl

theorem State.acceptRef_keeps (hP : Stable P) (s : State) (o : Int) (hs : P s) : P (s.acceptRef o) := by
  unfold State.acceptRef
  repeat' first | with_reducible assumption | with_reducible apply ite_keeps | with_reducible apply State.wr_keeps hP | with_reducible apply State.put_keeps hP | with_reducible apply State.setTime_keeps hP | with_reducible apply State.setFreq_keeps hP | with_reducible apply State.setTimeState_keeps hP | with_reducible apply State.removeOffset_keeps hP | (intro _; intros) | rfl

theorem State.masterEvent_keeps (hP : Stable P) (s : State) (hs : P s) : P (s.masterEvent) := by
  unfold State.masterEvent
  repeat' first | with_reducible assumption | with_reducible apply State.evt_keeps hP | with_reducible apply State.eventLim_keeps hP

theorem State.noteHeard_keeps (hP : Stable P) (s : State) (ring : Nat) (h : SyncHeard) (hs : P s) : P (s.noteHeard ring h) := by
  unfold State.noteHeard
  repeat' first | with_reducible assumption | with_reducible apply ite_keeps | with_reducible apply State.setTime_keeps hP | (intro _; intros) | rfl | (split <;> first | rfl | (split <;> rfl))

theorem State.ringTaken_keeps (hP : Stable P) (s : State) (ring node hops : Nat) (following : Bool) (hs : P s) : P (s.ringTaken ring node hops following).1 := by
  unfold State.ringTaken
  repeat' first | with_reducible assumption | with_reducible apply ite_keeps | with_reducible apply State.setTime_keeps hP | with_reducible apply ite_fst_keeps | (intro _; intros) | rfl

theorem State.discardSync_keeps (hP : Stable P) (s : State) (hs : P s) : P (s.discardSync) := by
  unfold State.discardSync
  repeat' first | with_reducible assumption | with_reducible apply ite_keeps | with_reducible apply State.bump_keeps hP | with_reducible apply State.evt_keeps hP | with_reducible apply State.setTime_keeps hP | (intro _; intros) | rfl

theorem State.stopMaster_keeps (hP : Stable P) (s : State) (hs : P s) : P (s.stopMaster) := by
  unfold State.stopMaster
  repeat' first | with_reducible assumption | with_reducible apply State.put_keeps hP

theorem State.followSync_keeps (hP : Stable P) (s : State) (port : Nat) (c : Cell) (following : Bool) (hs : P s) : P (s.followSync port c following) := by
  unfold State.followSync
  repeat' first | with_reducible assumption | with_reducible apply ite_keeps | with_reducible apply State.wr_keeps hP | with_reducible apply State.bump_keeps hP | with_reducible apply State.setTime_keeps hP | with_reducible apply State.acceptRef_keeps hP | with_reducible apply State.masterEvent_keeps hP | with_reducible apply State.discardSync_keeps hP | with_reducible apply State.stopMaster_keeps hP | (intro _; intros) | rfl

theorem State.judgeSync_keeps (hP : Stable P) (s : State) (port : Nat) (c : Cell) (hs : P s) : P (s.judgeSync port c) := by
  unfold State.judgeSync
  repeat' first | with_reducible assumption | with_reducible apply ite_keeps | with_reducible apply State.noteHeard_keeps hP | with_reducible apply State.ringTaken_keeps hP | with_reducible apply State.followSync_keeps hP

theorem State.syncIn_keeps (hP : Stable P) (s : State) (port : Nat) (c : Cell) (resid : Nat) (hs : P s) : P (s.syncIn port c resid) := by
  unfold State.syncIn
  repeat' first | with_reducible assumption | with_reducible apply ite_keeps | with_reducible apply State.forward_keeps hP | with_reducible apply State.passBack_keeps hP | with_reducible apply State.hopLimit_keeps hP | with_reducible apply State.judgeSync_keeps hP

theorem State.delayIn_keeps (hP : Stable P) (s : State) (port : Nat) (c : Cell) (hs : P s) : P (s.delayIn port c) := by
  unfold State.delayIn
  repeat' first | with_reducible assumption | with_reducible apply ite_keeps | with_reducible apply State.wrA_keeps hP | with_reducible apply State.sendNow_keeps hP | with_reducible apply State.setTime_keeps hP | with_reducible refine of_fst (by assumption) ?_ | (intro _; intros) | split | (simp only [])

theorem State.ppsInput_keeps (hP : Stable P) (s : State) (stamp : Nat) (hs : P s) : P (s.ppsInput stamp) := by
  unfold State.ppsInput
  repeat' first | with_reducible assumption | with_reducible apply ite_keeps | with_reducible apply State.put_keeps hP | with_reducible apply State.setTime_keeps hP | with_reducible apply State.acceptRef_keeps hP | with_reducible refine of_fst (by assumption) ?_ | (intro _; intros) | split | (simp only [])

theorem State.setFabric_keeps (hP : Stable P) (s : State) (hs : P s) : P (s.setFabric).1 := by
  unfold State.setFabric
  repeat' first | with_reducible assumption | with_reducible apply ite_keeps | with_reducible apply State.put_keeps hP | with_reducible apply State.stepTime_keeps hP | with_reducible apply State.removeOffset_keeps hP | with_reducible apply ite_fst_keeps

theorem State.setSyncOk_keeps (hP : Stable P) (s : State) (p : Nat) (on : Bool) (why : Nat) (hs : P s) : P (s.setSyncOk p on why) := by
  unfold State.setSyncOk
  repeat' first | with_reducible assumption | with_reducible apply ite_keeps | with_reducible apply State.wrA_keeps hP | with_reducible apply State.evt_keeps hP | with_reducible apply State.eventLim_keeps hP

theorem State.deferRef_keeps (hP : Stable P) (s : State) (p : Nat) (hs : P s) : P (s.deferRef p) := by
  unfold State.deferRef
  repeat' first | with_reducible assumption | with_reducible apply ite_keeps | with_reducible apply State.ttCount_keeps hP | with_reducible apply State.ttMaster_keeps hP | with_reducible apply State.setActing_keeps hP | with_reducible apply State.withdrawDev_keeps hP | with_reducible apply State.settleFaults_keeps hP

theorem State.refReceived_keeps (hP : Stable P) (s : State) (p : Nat) (h : Header) (data : List Byte) (ns frac epoch ivl : Nat) (hs : P s) : P (s.refReceived p h data ns frac epoch ivl) := by
  unfold State.refReceived
  repeat' first | with_reducible assumption | with_reducible apply ite_keeps | with_reducible apply State.setTt_keeps hP | with_reducible apply State.setMark_keeps hP | with_reducible apply State.setSyncOk_keeps hP | with_reducible apply State.deferRef_keeps hP | with_reducible refine of_fst (by assumption) ?_ | (intro _; intros) | split

theorem State.roundBack_keeps (hP : Stable P) (s : State) (c : Cell) (hs : P s) : P (s.roundBack c) := by
  unfold State.roundBack
  repeat' first | with_reducible assumption | with_reducible apply ite_keeps | with_reducible apply State.insertCell_keeps hP | with_reducible apply State.endSleepRound_keeps hP | with_reducible apply foldl_keeps | with_reducible apply foldl_fst_keeps | with_reducible refine of_fst (by assumption) ?_ | (intro _; intros) | split

theorem State.consentIn_keeps (hP : Stable P) (s : State) (n : Nat) (c : Cell) (hs : P s) : P (s.consentIn n c) := by
  unfold State.consentIn
  repeat' first | with_reducible assumption | with_reducible apply ite_keeps | with_reducible apply State.forward_keeps hP | with_reducible apply State.passBack_keeps hP | with_reducible apply State.hopLimit_keeps hP | with_reducible apply State.leaveFabricSleep_keeps hP | with_reducible apply State.roundBack_keeps hP

theorem State.takeCommit_keeps (hP : Stable P) (s : State) (hs : P s) : P (s.takeCommit) := by
  unfold State.takeCommit
  repeat' first | with_reducible assumption | with_reducible apply State.evt_keeps hP | with_reducible apply State.enterFabricSleep_keeps hP

theorem State.reqIn_keeps (hP : Stable P) (s : State) (n : Nat) (c : Cell) (hs : P s) : P (s.reqIn n c) := by
  unfold State.reqIn
  repeat' first | with_reducible assumption | with_reducible apply ite_keeps | with_reducible apply State.completeCtx_keeps hP | with_reducible apply State.forward_keeps hP | with_reducible apply State.passBack_keeps hP | with_reducible apply State.hopLimit_keeps hP | with_reducible apply State.sinkReq_keeps hP

theorem State.routeCell_keeps (hP : Stable P) (s : State) (n : Nat) (c : Cell) (hs : P s) : P (s.routeCell n c) := by
  unfold State.routeCell
  repeat' first | with_reducible assumption | with_reducible apply State.draw_keeps hP | with_reducible apply State.rspIn_keeps hP | with_reducible apply State.heardMember_keeps hP | with_reducible apply State.broadcastIn_keeps hP | with_reducible apply State.syncIn_keeps hP | with_reducible apply State.delayIn_keeps hP | with_reducible apply State.consentIn_keeps hP | with_reducible apply State.takeCommit_keeps hP | with_reducible apply State.reqIn_keeps hP | with_reducible refine of_fst (by assumption) ?_ | (intro _; intros) | split

theorem State.pairTime_keeps (hP : Stable P) (s : State) (h : Heartbeat) (hs : P s) : P (s.pairTime h) := by
  unfold State.pairTime
  repeat' first | with_reducible assumption | with_reducible apply ite_keeps | with_reducible apply State.wr_keeps hP | with_reducible apply State.setTime_keeps hP | with_reducible apply State.acceptRef_keeps hP | (intro _; intros) | rfl

theorem State.pairLoss_keeps (hP : Stable P) (s : State) (hs : P s) : P (s.pairLoss) := by
  unfold State.pairLoss
  repeat' first | with_reducible assumption | with_reducible apply ite_keeps | with_reducible apply State.role_keeps hP | with_reducible apply State.startContest_keeps hP | with_reducible apply State.endSwap_keeps hP

theorem State.clovesNow_keeps (hP : Stable P) (s : State) (hs : P s) : P (s.clovesNow) := by
  unfold State.clovesNow
  repeat' first | with_reducible assumption | with_reducible apply ite_keeps | with_reducible apply State.cloveReceived_keeps hP | with_reducible apply foldl_keeps | with_reducible apply foldl_fst_keeps | with_reducible refine of_fst (by assumption) ?_ | (intro _; intros) | split

theorem State.applyRecord_keeps (hP : Stable P) (s : State) (b : MirrorBody) (hs : P s) : P (s.applyRecord b) := by
  cases b <;> simp only [State.applyRecord]
  repeat' first | with_reducible assumption | with_reducible apply ite_keeps | with_reducible apply State.wrA_keeps hP | with_reducible apply State.wr_keeps hP | with_reducible apply State.bump_keeps hP | with_reducible apply State.setLrt_keeps hP | with_reducible apply State.mailArrive_keeps hP | with_reducible apply State.mirror_keeps hP | with_reducible apply State.setTokens_keeps hP | with_reducible apply State.refreshHead_keeps hP | with_reducible apply State.setEntries_keeps hP | with_reducible apply State.freeEntry_keeps hP | with_reducible apply State.setBank_keeps hP | with_reducible apply foldl_keeps | with_reducible apply foldl_fst_keeps | (intro _; intros)

theorem State.applyNext_keeps (hP : Stable P) (s : State)  (k : Nat) (hs : P s) : P (s.applyNext k) := by
  induction k generalizing s with
  | zero => exact hs
  | succ k ih =>
    unfold State.applyNext
    repeat' first | with_reducible assumption | with_reducible apply ih | with_reducible apply State.wr_keeps hP | with_reducible apply State.setPair_keeps hP | with_reducible apply State.applyRecord_keeps hP | with_reducible refine of_fst (by assumption) ?_ | (intro _; intros) | split | (simp only [])

theorem State.takeRecords_keeps (hP : Stable P) (s : State) (recs : List MirrorRec) (hs : P s) : P (s.takeRecords recs) := by
  unfold State.takeRecords
  repeat' first | with_reducible assumption | with_reducible apply State.setPair_keeps hP | with_reducible apply State.applyNext_keeps hP

theorem State.pairIn_keeps (hP : Stable P) (s : State) (port : Nat) (x : LaneCell) (act : State → State) (hs : P s) (hk : ∀ v, P v → P (act v)) : P (s.pairIn port x act) := by
  unfold State.pairIn
  repeat' first | with_reducible assumption | with_reducible apply hk | with_reducible apply ite_keeps | with_reducible apply State.acceptLane_keeps hP

theorem State.takeSnapshot_keeps (hP : Stable P) (s : State) (recs : List MirrorRec) (last : Bool) (hs : P s) : P (s.takeSnapshot recs last) := by
  unfold State.takeSnapshot
  repeat' first | with_reducible assumption | with_reducible apply ite_keeps | with_reducible apply State.put_keeps hP | with_reducible apply State.eventLim_keeps hP | with_reducible apply State.prEvt_keeps hP | with_reducible apply State.role_keeps hP | with_reducible apply State.applyRecord_keeps hP | with_reducible apply foldl_keeps | with_reducible apply foldl_fst_keeps | (intro _; intros)

end Sys2Proof.Machine
end

