-- ==== Sys2Proof/Laws/KeepsImage.lean ====
section
/-! SUPPORT. Every operation of the model keeps a stable predicate: port outcomes, descriptors, images, activation, resets and the host side. -/

set_option linter.unusedTactic false
set_option linter.unreachableTactic false
set_option linter.unusedVariables false

namespace Sys2Proof.Machine

variable {P : State → Prop}

theorem State.measureLoop_keeps (hP : Stable P) (s : State) (p : Nat) (h : Header) (sat : Bool) (hs : P s) : P (s.measureLoop p h sat) := by
  unfold State.measureLoop
  repeat' first | with_reducible assumption | with_reducible apply ite_keeps | with_reducible apply State.wr_keeps hP | with_reducible apply State.put_keeps hP | with_reducible apply State.draw_keeps hP

theorem State.takeEntry_keeps (hP : Stable P) (s : State) (p : Nat) (e : QEntry) (hs : P s) : P (s.takeEntry p e) := by
  unfold State.takeEntry
  repeat' first | with_reducible assumption | with_reducible apply State.put_keeps hP | with_reducible apply State.emit_keeps hP | with_reducible apply State.setPort_keeps hP | with_reducible apply State.setQueue_keeps hP | with_reducible apply State.mirror_keeps hP | with_reducible apply State.charge_keeps hP | with_reducible apply State.noteLease_keeps hP | with_reducible apply State.setEntry_keeps hP | with_reducible refine of_fst (by assumption) ?_ | (intro _; intros) | split

theorem State.observe_keeps (hP : Stable P) (s : State) (p : Nat) (h : Header) (data : List Byte) (ns : Nat) (hs : P s) : P (s.observe p h data ns) := by
  unfold State.observe
  repeat' first | with_reducible assumption | with_reducible apply ite_keeps | with_reducible apply State.mirror_keeps hP | with_reducible apply State.setEntries_keeps hP

theorem State.foreignFrame_keeps (hP : Stable P) (s : State) (p : Nat) (h : Header) (data : List Byte) (c : CurFrame) (hs : P s) : P (s.foreignFrame p h data c) := by
  unfold State.foreignFrame
  repeat' first | with_reducible assumption | with_reducible apply ite_keeps | with_reducible apply State.cloveReceived_keeps hP | with_reducible apply State.aniseReceived_keeps hP | with_reducible apply State.refReceived_keeps hP | with_reducible apply State.observe_keeps hP

theorem State.commitOrHold_keeps (hP : Stable P) (s : State) (x : RxFrame) (slot : Option Nat) (hs : P s) : P (s.commitOrHold x slot) := by
  unfold State.commitOrHold
  repeat' first | with_reducible assumption | with_reducible apply ite_keeps | with_reducible apply State.setPort_keeps hP | with_reducible apply State.freeSlot_keeps hP | with_reducible apply State.commitFrame_keeps hP | with_reducible refine of_fst (by assumption) ?_ | (intro _; intros) | split

theorem State.countFrame_keeps (hP : Stable P) (s : State) (p : Nat) (own : Bool) (hs : P s) : P (s.countFrame p own) := by
  unfold State.countFrame
  repeat' first | with_reducible assumption | with_reducible apply ite_keeps | with_reducible apply State.bump_keeps hP | with_reducible apply State.setPort_keeps hP | with_reducible apply State.clCount_keeps hP

theorem State.failFrame_keeps (hP : Stable P) (s : State) (p : Nat) (e : BusError) (hs : P s) : P (s.failFrame p e) := by
  unfold State.failFrame
  repeat' first | with_reducible assumption | with_reducible apply ite_keeps | with_reducible apply State.dropTransit_keeps hP | with_reducible apply State.captureFailed_keeps hP

theorem State.restrictedError_keeps (hP : Stable P) (s : State) (p : Nat) (e : BusError) (hs : P s) : P (s.restrictedError p e) := by
  unfold State.restrictedError
  repeat' first | with_reducible assumption | with_reducible apply ite_keeps | with_reducible apply State.setPort_keeps hP | with_reducible apply State.endCur_keeps hP | with_reducible apply State.recordError_keeps hP | with_reducible apply State.failFrame_keeps hP

theorem State.noteSuspend_keeps (hP : Stable P) (s : State) (p : Nat) (hs : P s) : P (s.noteSuspend p) := by
  unfold State.noteSuspend
  repeat' first | with_reducible assumption | with_reducible apply State.setPort_keeps hP

theorem State.errorFrame_keeps (hP : Stable P) (s : State) (p : Nat) (e : BusError) (hs : P s) : P (s.errorFrame p e) := by
  unfold State.errorFrame
  repeat' first | with_reducible assumption | with_reducible apply ite_keeps | with_reducible apply State.emit_keeps hP | with_reducible apply State.endCur_keeps hP | with_reducible apply State.reportOutcome_keeps hP | with_reducible apply State.errState_keeps hP | with_reducible apply State.frameGood_keeps hP | with_reducible apply State.countError_keeps hP | with_reducible apply State.recordError_keeps hP | with_reducible apply State.role_keeps hP | with_reducible apply State.failFrame_keeps hP | with_reducible apply State.noteSuspend_keeps hP

theorem State.busError_keeps (hP : Stable P) (s : State) (p : Nat) (e : BusError) (hs : P s) : P (s.busError p e) := by
  unfold State.busError
  repeat' first | with_reducible assumption | with_reducible apply ite_keeps | with_reducible apply State.errState_keeps hP | with_reducible apply State.countError_keeps hP | with_reducible apply State.recordError_keeps hP | with_reducible apply State.role_keeps hP | with_reducible apply State.restrictedError_keeps hP | with_reducible apply State.noteSuspend_keeps hP | with_reducible apply State.errorFrame_keeps hP | with_reducible refine of_fst (by assumption) ?_ | (intro _; intros) | split

theorem State.takeHeader_keeps (hP : Stable P) (s : State) (p : Nat) (h : Header) (c : CurFrame) (hs : P s) : P (s.takeHeader p h c) := by
  unfold State.takeHeader
  repeat' first | with_reducible assumption | with_reducible apply ite_keeps | with_reducible apply State.put_keeps hP | with_reducible apply State.bump_keeps hP | with_reducible apply State.setPort_keeps hP | with_reducible apply State.takeSlot_keeps hP | with_reducible apply State.measureLoop_keeps hP

theorem State.formError_keeps (hP : Stable P) (s : State) (p : Nat) (h : Header) (hs : P s) : P (s.formError p h) := by
  unfold State.formError
  repeat' first | with_reducible assumption | with_reducible apply State.draw_keeps hP | with_reducible apply State.setPort_keeps hP | with_reducible apply State.busError_keeps hP

theorem State.integrated_keeps (hP : Stable P) (s : State) (p : Nat) (hs : P s) : P (s.integrated p) := by
  unfold State.integrated
  repeat' first | with_reducible assumption | with_reducible apply ite_keeps | with_reducible apply State.setAn_keeps hP | with_reducible apply State.setFstate_keeps hP | with_reducible apply State.fbBoundary_keeps hP | with_reducible apply State.errState_keeps hP | with_reducible apply State.submitDev_keeps hP

theorem State.cmdEnable_keeps (hP : Stable P) (s : State) (p : Nat) (hs : P s) : P (s.cmdEnable p).1 := by
  unfold State.cmdEnable
  repeat' first | with_reducible assumption | with_reducible apply ite_keeps | with_reducible apply State.put_keeps hP | with_reducible apply State.enableDisabled_keeps hP | with_reducible apply ite_fst_keeps

theorem State.cmdDisable_keeps (hP : Stable P) (s : State) (p : Nat) (hs : P s) : P (s.cmdDisable p).1 := by
  unfold State.cmdDisable
  repeat' first | with_reducible assumption | with_reducible apply ite_keeps | with_reducible apply State.disablePort_keeps hP | with_reducible apply ite_fst_keeps

theorem State.cmdClear_keeps (hP : Stable P) (s : State) (p : Nat) (hs : P s) : P (s.cmdClear p).1 := by
  unfold State.cmdClear
  repeat' first | with_reducible assumption | with_reducible apply ite_keeps | with_reducible apply State.clearBusOff_keeps hP | with_reducible apply ite_fst_keeps

theorem State.fbCommand_keeps (hP : Stable P) (s : State) (p bits : Nat) (hs : P s) : P (s.fbCommand p bits) := by
  unfold State.fbCommand
  repeat' first | with_reducible assumption | with_reducible apply ite_keeps | with_reducible apply State.wr_keeps hP | with_reducible apply State.settlePort_keeps hP | with_reducible apply State.settleFaults_keeps hP | with_reducible apply State.cmdEnable_keeps hP | with_reducible apply State.cmdDisable_keeps hP | with_reducible apply State.cmdClear_keeps hP | with_reducible apply ite_fst_keeps

theorem State.issueRead_keeps (hP : Stable P) (s : State) (link tenant tag addr len : Nat) (what : ReadFor) (hs : P s) : P (s.issueRead link tenant tag addr len what) := by
  unfold State.issueRead
  repeat' first | with_reducible assumption | with_reducible apply State.emit_keeps hP | with_reducible apply State.setLink_keeps hP

theorem State.killReads_keeps (hP : Stable P) (s : State) (link : Nat) (p : ReadFor → Bool) (hs : P s) : P (s.killReads link p) := by
  unfold State.killReads
  repeat' first | with_reducible assumption | with_reducible apply ite_keeps | with_reducible apply State.setLink_keeps hP

theorem State.endRead_keeps (hP : Stable P) (s : State) (link tag : Nat) (hs : P s) : P (s.endRead link tag) := by
  unfold State.endRead
  repeat' first | with_reducible assumption | with_reducible apply State.setLink_keeps hP

theorem State.giveCredits_keeps (hP : Stable P) (s : State) (r n : Nat) (hs : P s) : P (s.giveCredits r n) := by
  unfold State.giveCredits
  repeat' first | with_reducible assumption | with_reducible apply State.wr_keeps hP

theorem State.moveHead_keeps (hP : Stable P) (s : State) (r : Nat) (hs : P s) : P (s.moveHead r) := by
  unfold State.moveHead
  repeat' first | with_reducible assumption | with_reducible apply State.setCons_keeps hP | with_reducible refine of_fst (by assumption) ?_ | (intro _; intros) | split | (simp only [])

theorem State.cutReads_keeps (hP : Stable P) (s : State) (r pos : Nat) (hs : P s) : P (s.cutReads r pos) := by
  unfold State.cutReads
  repeat' first | with_reducible assumption | with_reducible apply State.setRing_keeps hP | with_reducible apply State.killReads_keeps hP | with_reducible apply State.giveCredits_keeps hP

theorem State.takeDesc_keeps (hP : Stable P) (s : State) (r pos : Nat) (raw : List Byte) (hs : P s) : P (s.takeDesc r pos raw) := by
  unfold State.takeDesc
  repeat' first | with_reducible assumption | with_reducible apply State.bump_keeps hP | with_reducible apply State.setRing_keeps hP

theorem State.absorbList_keeps (hP : Stable P) (s : State) (r pos : Nat) (ds : List (List Byte)) (hs : P s) : P (s.absorbList r pos ds).1 := by
  induction ds generalizing s pos with
  | nil => exact hs
  | cons d rest ih =>
    unfold State.absorbList
    repeat' first | with_reducible assumption | with_reducible apply ih | with_reducible apply ite_keeps | with_reducible apply State.put_keeps hP | with_reducible apply State.setRing_keeps hP | with_reducible apply State.giveCredits_keeps hP | with_reducible apply State.takeDesc_keeps hP | with_reducible apply ite_fst_keeps

theorem State.absorb_keeps (hP : Stable P) (s : State) (r : Nat) (k : Nat) (hs : P s) : P (s.absorb r k) := by
  induction k generalizing s with
  | zero => exact hs
  | succ k ih =>
    unfold State.absorb
    repeat' first | with_reducible assumption | with_reducible apply ih | with_reducible apply ite_keeps | with_reducible apply State.setRing_keeps hP | with_reducible apply State.cutReads_keeps hP | with_reducible apply State.absorbList_keeps hP | with_reducible apply ite_fst_keeps | with_reducible refine of_fst (by assumption) ?_ | (intro _; intros) | split

theorem State.pushPayload_keeps (hP : Stable P) (s : State) (r : Nat) (hs : P s) : P (s.pushPayload r) := by
  unfold State.pushPayload
  repeat' first | with_reducible assumption | with_reducible apply ite_keeps | with_reducible apply State.setRing_keeps hP | with_reducible apply State.issueRead_keeps hP | with_reducible refine of_fst (by assumption) ?_ | (intro _; intros) | split

theorem State.popWork_keeps (hP : Stable P) (s : State) (r : Nat) (hs : P s) : P (s.popWork r) := by
  unfold State.popWork
  repeat' first | with_reducible assumption | with_reducible apply State.setRing_keeps hP

theorem State.finishDesc_keeps (hP : Stable P) (s : State) (r : Nat) (w : Work) (status result : Nat) (hs : P s) : P (s.finishDesc r w status result) := by
  unfold State.finishDesc
  repeat' first | with_reducible assumption | with_reducible apply State.complete_keeps hP

theorem State.disarmWork_keeps (hP : Stable P) (s : State) (r : Nat) (hs : P s) : P (s.disarmWork r) := by
  unfold State.disarmWork
  repeat' first | with_reducible assumption | with_reducible apply State.setRing_keeps hP | with_reducible apply State.killReads_keeps hP | with_reducible apply State.cutReads_keeps hP | with_reducible apply State.finishDesc_keeps hP | with_reducible apply foldl_keeps | with_reducible apply foldl_fst_keeps | with_reducible refine of_fst (by assumption) ?_ | (intro _; intros) | split

theorem State.armCode_keeps (hP : Stable P) (s : State) (r code : Nat) (tell : Bool) (hs : P s) : P (s.armCode r code tell) := by
  unfold State.armCode
  repeat' first | with_reducible assumption | with_reducible apply ite_keeps | with_reducible apply State.wr_keeps hP | with_reducible apply State.event_keeps hP

theorem State.armRing_keeps (hP : Stable P) (s : State) (r : Nat) (hs : P s) : P (s.armRing r) := by
  unfold State.armRing
  repeat' first | with_reducible assumption | with_reducible apply State.wr_keeps hP | with_reducible apply State.put_keeps hP | with_reducible apply State.setRing_keeps hP | with_reducible apply State.setProd_keeps hP | with_reducible apply State.setCons_keeps hP

theorem State.idleRing_keeps (hP : Stable P) (s : State) (r : Nat) (hs : P s) : P (s.idleRing r) := by
  unfold State.idleRing
  repeat' first | with_reducible assumption | with_reducible apply State.wr_keeps hP | with_reducible apply State.put_keeps hP

theorem State.dropComps_keeps (hP : Stable P) (s : State) (q : Nat) (hs : P s) : P (s.dropComps q) := by
  unfold State.dropComps
  repeat' first | with_reducible assumption | with_reducible apply State.wr_keeps hP | with_reducible apply State.setLink_keeps hP | with_reducible refine of_fst (by assumption) ?_ | (intro _; intros) | split | (simp only []) | with_reducible apply hP.host | with_reducible apply hP.hostPair

theorem State.disarmRing_keeps (hP : Stable P) (s : State) (r : Nat) (hs : P s) : P (s.disarmRing r) := by
  unfold State.disarmRing
  repeat' first | with_reducible assumption | with_reducible apply ite_keeps | with_reducible apply State.wr_keeps hP | with_reducible apply State.purge_keeps hP | with_reducible apply State.disarmWork_keeps hP | with_reducible apply State.idleRing_keeps hP | with_reducible apply State.dropComps_keeps hP

theorem State.armCmd_keeps (hP : Stable P) (s : State) (r : Nat) (both : Bool) (hs : P s) : P (s.armCmd r both) := by
  unfold State.armCmd
  repeat' first | with_reducible assumption | with_reducible apply ite_keeps | with_reducible apply State.armCode_keeps hP | with_reducible apply State.armRing_keeps hP

theorem State.disarmCmd_keeps (hP : Stable P) (s : State) (r : Nat) (both : Bool) (hs : P s) : P (s.disarmCmd r both) := by
  unfold State.disarmCmd
  repeat' first | with_reducible assumption | with_reducible apply ite_keeps | with_reducible apply State.armCode_keeps hP | with_reducible apply State.disarmRing_keeps hP

theorem State.tellFallback_keeps (hP : Stable P) (s : State) (hs : P s) : P (s.tellFallback) := by
  unfold State.tellFallback
  repeat' first | with_reducible assumption | with_reducible apply ite_keeps | with_reducible apply State.eventLim_keeps hP | with_reducible refine of_fst (by assumption) ?_ | (intro _; intros) | split | (simp only []) | with_reducible apply hP.cu

theorem State.dbApply_keeps (hP : Stable P) (s : State) (r v : Nat) (hs : P s) : P (s.dbApply r v) := by
  unfold State.dbApply
  repeat' first | with_reducible assumption | with_reducible apply ite_keeps | with_reducible apply State.put_keeps hP | with_reducible apply State.setProd_keeps hP | with_reducible apply State.setCons_keeps hP | with_reducible apply State.noteEntry_keeps hP | with_reducible apply State.drainHeld_keeps hP | with_reducible apply State.drainWaitCq_keeps hP | with_reducible refine of_fst (by assumption) ?_ | (intro _; intros) | split | (simp only [])

theorem State.dbInvalid_keeps (hP : Stable P) (s : State) (r v : Nat) (hs : P s) : P (s.dbInvalid r v) := by
  unfold State.dbInvalid
  repeat' first | with_reducible assumption | with_reducible apply State.bump_keeps hP | with_reducible apply State.event_keeps hP

theorem State.doorbell_keeps (hP : Stable P) (s : State) (f : Func) (k v : Nat) (hs : P s) : P (s.doorbell f k v) := by
  unfold State.doorbell
  repeat' first | with_reducible assumption | with_reducible apply ite_keeps | with_reducible apply State.bump_keeps hP | with_reducible apply State.setRing_keeps hP | with_reducible apply State.dbApply_keeps hP | with_reducible apply State.dbInvalid_keeps hP

theorem State.fetchFor_keeps (hP : Stable P) (s : State) (link r tag : Nat) (hs : P s) : P (s.fetchFor link r tag) := by
  unfold State.fetchFor
  repeat' first | with_reducible assumption | with_reducible apply State.wr_keeps hP | with_reducible apply State.setLink_keeps hP | with_reducible apply State.setRing_keeps hP | with_reducible apply State.issueRead_keeps hP

theorem State.pushPull_keeps (hP : Stable P) (s : State) (hs : P s) : P (s.pushPull) := by
  unfold State.pushPull
  repeat' first | with_reducible assumption | with_reducible apply ite_keeps | with_reducible apply State.issueRead_keeps hP | with_reducible refine of_fst (by assumption) ?_ | (intro _; intros) | split

theorem State.fetchError_keeps (hP : Stable P) (s : State) (link r start cause : Nat) (hs : P s) : P (s.fetchError link r start cause) := by
  unfold State.fetchError
  repeat' first | with_reducible assumption | with_reducible apply ite_keeps | with_reducible apply State.wr_keeps hP | with_reducible apply State.bump_keeps hP | with_reducible apply State.event_keeps hP | with_reducible apply State.moveHead_keeps hP | with_reducible apply State.cutReads_keeps hP

theorem State.descRead_keeps (hP : Stable P) (s : State) (link tag r start n : Nat) (res : ReadResult) (hs : P s) : P (s.descRead link tag r start n res) := by
  unfold State.descRead
  repeat' first | with_reducible assumption | with_reducible apply ite_keeps | with_reducible apply State.setRing_keeps hP | with_reducible apply State.moveHead_keeps hP | with_reducible apply State.absorb_keeps hP | with_reducible apply State.pushPayload_keeps hP | with_reducible apply State.fetchError_keeps hP | with_reducible refine of_fst (by assumption) ?_ | (intro _; intros) | split

theorem State.setPayload_keeps (hP : Stable P) (s : State) (r seq : Nat) (p : Payload) (hs : P s) : P (s.setPayload r seq p) := by
  unfold State.setPayload
  repeat' first | with_reducible assumption | with_reducible apply ite_keeps | with_reducible apply State.setRing_keeps hP

theorem State.payloadRead_keeps (hP : Stable P) (s : State) (link r seq : Nat) (res : ReadResult) (hs : P s) : P (s.payloadRead link r seq res) := by
  unfold State.payloadRead
  repeat' first | with_reducible assumption | with_reducible apply ite_keeps | with_reducible apply State.bump_keeps hP | with_reducible apply State.moveHead_keeps hP | with_reducible apply State.pushPayload_keeps hP | with_reducible apply State.popWork_keeps hP | with_reducible apply State.finishDesc_keeps hP | with_reducible apply State.setPayload_keeps hP | with_reducible refine of_fst (by assumption) ?_ | (intro _; intros) | split | (simp only [])

theorem State.runDesc_keeps (hP : Stable P) (s : State) (r : Nat) (sel : Nat → Bool) (k : State → Work → List Byte → State) (hs : P s) (hk : ∀ v w b, P v → P (k v w b)) : P (s.runDesc r sel k) := by
  unfold State.runDesc
  repeat' first | with_reducible assumption | with_reducible apply hk | with_reducible apply ite_keeps | with_reducible apply State.pushPayload_keeps hP | with_reducible apply State.popWork_keeps hP | with_reducible apply State.finishDesc_keeps hP | with_reducible refine of_fst (by assumption) ?_ | (intro _; intros) | split

theorem State.setPaySlot_keeps (hP : Stable P) (s : State) (link n : Nat) (f : PaySlot → PaySlot) (hs : P s) : P (s.setPaySlot link n f) := by
  unfold State.setPaySlot
  repeat' first | with_reducible assumption | with_reducible apply State.setLink_keeps hP

theorem State.badHandle_keeps (hP : Stable P) (s : State) (r : Nat) (w : Work) (reason : Nat) (hs : P s) : P (s.badHandle r w reason) := by
  unfold State.badHandle
  repeat' first | with_reducible assumption | with_reducible apply State.bump_keeps hP | with_reducible apply State.event_keeps hP | with_reducible apply State.finishDesc_keeps hP

theorem State.alloc_keeps (hP : Stable P) (s : State) (r : Nat) (w : Work) (bytes : List Byte) (hs : P s) : P (s.alloc r w bytes) := by
  unfold State.alloc
  repeat' first | with_reducible assumption | with_reducible apply ite_keeps | with_reducible apply State.draw_keeps hP | with_reducible apply State.finishDesc_keeps hP | with_reducible apply State.setPaySlot_keeps hP | with_reducible refine of_fst (by assumption) ?_ | (intro _; intros) | split | (simp only [])

theorem State.withHandle_keeps (hP : Stable P) (s : State) (r : Nat) (w : Work) (k : State → State) (hs : P s) (hk : ∀ v, P v → P (k v)) : P (s.withHandle r w k) := by
  unfold State.withHandle
  repeat' first | with_reducible assumption | with_reducible apply hk | with_reducible apply ite_keeps | with_reducible apply State.badHandle_keeps hP

theorem State.refuseTx_keeps (hP : Stable P) (s : State) (r : Nat) (w : Work) (status : Nat) (hs : P s) : P (s.refuseTx r w status) := by
  unfold State.refuseTx
  repeat' first | with_reducible assumption | with_reducible apply State.wr_keeps hP | with_reducible apply State.bump_keeps hP | with_reducible apply State.finishDesc_keeps hP

theorem State.insertTx_keeps (hP : Stable P) (s : State) (r : Nat) (w : Work) (l : Nat) (f : Frame) (hs : P s) : P (s.insertTx r w l f) := by
  unfold State.insertTx
  repeat' first | with_reducible assumption | with_reducible apply ite_keeps | with_reducible apply State.bump_keeps hP | with_reducible apply State.setLrt_keeps hP | with_reducible apply State.mirror_keeps hP | with_reducible apply State.noteLease_keeps hP | with_reducible apply State.addEntry_keeps hP | with_reducible apply State.checkPtrs_keeps hP | with_reducible apply State.settleFaults_keeps hP | with_reducible apply State.finishDesc_keeps hP

theorem State.admitFrame_keeps (hP : Stable P) (s : State) (r : Nat) (w : Work) (bytes : List Byte) (hs : P s) : P (s.admitFrame r w bytes) := by
  unfold State.admitFrame
  repeat' first | with_reducible assumption | with_reducible apply ite_keeps | with_reducible apply State.refuseTx_keeps hP | with_reducible apply State.insertTx_keeps hP | with_reducible refine of_fst (by assumption) ?_ | (intro _; intros) | split | (simp only [])

theorem State.cancelFrames_keeps (hP : Stable P) (s : State) (r : Nat) (w : Work) (hs : P s) : P (s.cancelFrames r w) := by
  unfold State.cancelFrames
  repeat' first | with_reducible assumption | with_reducible apply State.setEntry_keeps hP | with_reducible apply State.returnEntry_keeps hP | with_reducible apply State.checkPtrs_keeps hP | with_reducible apply State.countCancel_keeps hP | with_reducible apply State.settleFaults_keeps hP | with_reducible apply State.finishDesc_keeps hP | with_reducible apply foldl_keeps | with_reducible apply foldl_fst_keeps | (intro _; intros)

theorem State.drainLink_keeps (hP : Stable P) (s : State) (link : Nat) (hs : P s) : P (s.drainLink link) := by
  unfold State.drainLink
  repeat' first | with_reducible assumption | with_reducible apply State.drainPosts_keeps hP | with_reducible apply State.drainHeld_keeps hP | with_reducible apply foldl_keeps | with_reducible apply foldl_fst_keeps | (intro _; intros)

theorem State.cuDone_keeps (hP : Stable P) (s : State) (result reason : Nat) (hs : P s) : P (s.cuDone result reason) := by
  unfold State.cuDone
  repeat' first | with_reducible assumption | with_reducible apply State.wr_keeps hP | with_reducible apply State.put_keeps hP

theorem State.cuCmd_keeps (hP : Stable P) (s : State) (f : Func) (k : State → Nat → State) (hs : P s) (hk : ∀ v x, P v → P (k v x)) : P (s.cuCmd f k) := by
  unfold State.cuCmd
  repeat' first | with_reducible assumption | with_reducible apply hk | with_reducible apply ite_keeps | with_reducible apply State.put_keeps hP | with_reducible apply State.hostWrite_keeps hP | (intro _; intros)

theorem State.xferEvent_keeps (hP : Stable P) (s : State) (result : Nat) (hs : P s) : P (s.xferEvent result) := by
  unfold State.xferEvent
  repeat' first | with_reducible assumption | with_reducible apply State.eventLim_keeps hP

theorem State.beginErase_keeps (hP : Stable P) (s : State) (k t : Nat) (hs : P s) : P (s.beginErase k t) := by
  unfold State.beginErase
  repeat' first | with_reducible assumption | with_reducible apply State.wrA_keeps hP | with_reducible apply State.wr_keeps hP | with_reducible apply State.put_keeps hP | with_reducible apply State.setNvm_keeps hP | with_reducible apply State.setCu_keeps hP | (intro _; intros) | rfl

theorem State.program_keeps (hP : Stable P) (s : State) (k i v : Nat) (hs : P s) : P (s.program k i v).1 := by
  unfold State.program
  repeat' first | with_reducible assumption | with_reducible apply ite_keeps | with_reducible apply State.wrA_keeps hP | with_reducible apply State.setNvm_keeps hP | with_reducible apply ite_fst_keeps

theorem State.programAll_keeps (hP : Stable P) (s : State) (k i : Nat) (vs : List Nat) (hs : P s) : P (s.programAll k i vs).1 := by
  induction vs generalizing s i with
  | nil => exact hs
  | cons v vs ih => exact ih _ _ (State.program_keeps hP s k i v hs)

theorem State.xferRej_keeps (hP : Stable P) (s : State) (hs : P s) : P (s.xferRej) := by
  unfold State.xferRej
  repeat' first | with_reducible assumption | with_reducible apply State.bump_keeps hP

theorem State.pullDone_keeps (hP : Stable P) (s : State) (result : Nat) (hs : P s) : P (s.pullDone result) := by
  unfold State.pullDone
  repeat' first | with_reducible assumption | with_reducible apply State.wr_keeps hP | with_reducible apply State.put_keeps hP | with_reducible apply State.setCu_keeps hP | (intro _; intros) | rfl

theorem State.pullRead_keeps (hP : Stable P) (s : State) (r : ReadResult) (hs : P s) : P (s.pullRead r) := by
  unfold State.pullRead
  repeat' first | with_reducible assumption | with_reducible apply ite_keeps | with_reducible apply State.setCu_keeps hP | with_reducible apply State.pushPull_keeps hP | with_reducible apply State.xferEvent_keeps hP | with_reducible apply State.programAll_keeps hP | with_reducible apply State.xferRej_keeps hP | with_reducible apply State.pullDone_keeps hP | with_reducible apply ite_fst_keeps | with_reducible refine of_fst (by assumption) ?_ | (intro _; intros) | split | (simp only [])

theorem State.endSession_keeps (hP : Stable P) (s : State) (hs : P s) : P (s.endSession) := by
  unfold State.endSession
  repeat' first | with_reducible assumption | with_reducible apply State.wr_keeps hP | with_reducible apply State.put_keeps hP | with_reducible apply State.killReads_keeps hP | with_reducible apply State.pullDone_keeps hP | with_reducible refine of_fst (by assumption) ?_ | (intro _; intros) | split | (simp only [])

theorem State.abortSession_keeps (hP : Stable P) (s : State) (hs : P s) : P (s.abortSession) := by
  unfold State.abortSession
  repeat' first | with_reducible assumption | with_reducible apply State.setNvm_keeps hP | with_reducible apply State.endSession_keeps hP

theorem State.noSession_keeps (hP : Stable P) (s : State) (k : Nat) (hs : P s) : P (s.noSession k) := by
  unfold State.noSession
  repeat' first | with_reducible assumption | with_reducible apply ite_keeps | with_reducible apply State.cuDone_keeps hP

theorem State.noteCheck_keeps (hP : Stable P) (s : State) (k : Nat) (v : Verdict) (hs : P s) : P (s.noteCheck k v) := by
  unfold State.noteCheck
  repeat' first | with_reducible assumption | with_reducible apply ite_keeps | with_reducible apply State.wrA_keeps hP | with_reducible apply State.wr_keeps hP | with_reducible apply State.bump_keeps hP | with_reducible apply State.draw_keeps hP | with_reducible apply State.setNvm_keeps hP

theorem State.checkEvent_keeps (hP : Stable P) (s : State) (k code where_ sec entry : Nat) (hs : P s) : P (s.checkEvent k code where_ sec entry) := by
  unfold State.checkEvent
  repeat' first | with_reducible assumption | with_reducible apply State.eventLim_keeps hP

theorem State.gapEvent_keeps (hP : Stable P) (s : State) (detail : List Byte) (hs : P s) : P (s.gapEvent detail) := by
  unfold State.gapEvent
  repeat' first | with_reducible assumption | with_reducible apply ite_keeps | with_reducible apply State.event_keeps hP | with_reducible apply foldl_keeps | with_reducible apply foldl_fst_keeps | (intro _; intros)

theorem State.powerUp_keeps (hP : Stable P) (s : State) (ds : List Nat) (hs : P s) : P (s.powerUp ds) := by
  unfold State.powerUp
  repeat' first | with_reducible assumption | with_reducible apply ite_keeps | with_reducible apply State.domUp_keeps hP | with_reducible apply foldl_keeps | with_reducible apply foldl_fst_keeps | (intro _; intros) | split | (simp only []) | with_reducible apply hP.pm

theorem State.loadImage_keeps (hP : Stable P) (s : State) (m : Image) (hs : P s) : P (s.loadImage m) := by
  unfold State.loadImage
  refine foldl_keeps _ (fun s a h => ite_keeps (State.wrA_keeps hP _ _ _ _ _ h) h) _ _ ?_
  exact hP.subFrame s _ List.filter_sublist rfl rfl rfl rfl hs

theorem State.dropLost_keeps (hP : Stable P) (s : State) (p : Nat) (hs : P s) : P (s.dropLost p) := by
  unfold State.dropLost
  repeat' first | with_reducible assumption | with_reducible apply ite_keeps | with_reducible apply State.mirror_keeps hP | with_reducible apply State.returnEntry_keeps hP | with_reducible apply State.countCancel_keeps hP | with_reducible apply foldl_keeps | with_reducible apply foldl_fst_keeps | (intro _; intros)

theorem State.dropReplies_keeps (hP : Stable P) (s : State) (p : Nat) (hs : P s) : P (s.dropReplies p) := by
  unfold State.dropReplies
  repeat' first | with_reducible assumption | with_reducible apply State.returnEntry_keeps hP | with_reducible apply foldl_keeps | with_reducible apply foldl_fst_keeps | with_reducible refine of_fst (by assumption) ?_ | (intro _; intros)

theorem State.moveItems_keeps (hP : Stable P) (s : State) (f : Nat → Option Nat) (hs : P s) : P (s.moveItems f) := by
  unfold State.moveItems
  repeat' first | with_reducible assumption | with_reducible apply ite_keeps | with_reducible apply State.setEntries_keeps hP | with_reducible apply foldl_keeps | with_reducible apply foldl_fst_keeps | (intro _; intros) | split | (simp only []) | with_reducible apply hP.rx | with_reducible apply hP.items

theorem State.dropMsgs_keeps (hP : Stable P) (s : State) (n : Nat) (hs : P s) : P (s.dropMsgs n) := by
  unfold State.dropMsgs
  repeat' first | with_reducible assumption | with_reducible apply ite_keeps | with_reducible apply State.setSpt_keeps hP | with_reducible apply State.refreshTxq_keeps hP | with_reducible apply State.msgFail_keeps hP | with_reducible apply foldl_keeps | with_reducible apply foldl_fst_keeps | (intro _; intros)

theorem State.carryReflex_keeps (hP : Stable P) (s : State) (old new : SteerBank) (hs : P s) : P (s.carryReflex old new) := by
  unfold State.carryReflex
  repeat' first | with_reducible assumption | with_reducible apply State.wrA_keeps hP | with_reducible apply foldl_keeps | with_reducible apply foldl_fst_keeps | (intro _; intros) | split | (simp only []) | with_reducible apply hP.ru

theorem State.carryGroups_keeps (hP : Stable P) (s : State) (old new keep : Image) (hs : P s) : P (s.carryGroups old new keep) := by
  unfold State.carryGroups
  repeat' first | with_reducible assumption | with_reducible apply State.setGrp_keeps hP | with_reducible apply foldl_keeps | with_reducible apply foldl_fst_keeps | (intro _; intros) | split | (simp only []) | with_reducible apply hP.gt

theorem State.carryIrq_keeps (hP : Stable P) (s : State) (old new : Image) (boot : Bool) (hs : P s) : P (s.carryIrq old new boot) := by
  unfold State.carryIrq
  repeat' first | with_reducible assumption | with_reducible apply State.resetSrc_keeps hP | with_reducible apply State.resetTarget_keeps hP | with_reducible apply foldl_keeps

theorem State.carryRings_keeps (hP : Stable P) (s : State) (keep : Image) (hs : P s) : P (s.carryRings keep) := by
  unfold State.carryRings
  repeat' first | with_reducible assumption | with_reducible apply ite_keeps | with_reducible apply State.setRing_keeps hP | with_reducible apply State.disarmRing_keeps hP | with_reducible apply foldl_keeps | with_reducible apply foldl_fst_keeps | (intro _; intros)

theorem State.reportHeld_keeps (hP : Stable P) (s : State) (p : Nat) (hs : P s) : P (s.reportHeld p) := by
  unfold State.reportHeld
  repeat' first | with_reducible assumption | with_reducible apply State.setPort_keeps hP | with_reducible apply State.outcome_keeps hP | with_reducible refine of_fst (by assumption) ?_ | (intro _; intros) | split

theorem State.activateFb_keeps (hP : Stable P) (s : State) (kept : Bool) (p : Nat) (hs : P s) : P (s.activateFb kept p) := by
  unfold State.activateFb
  repeat' first | with_reducible assumption | with_reducible apply ite_keeps | with_reducible apply State.put_keeps hP | with_reducible apply State.setPort_keeps hP | with_reducible apply State.settlePort_keeps hP | with_reducible apply State.arriveFb_keeps hP | with_reducible apply State.disablePort_keeps hP | with_reducible apply State.reportHeld_keeps hP

theorem State.releaseSp_keeps (hP : Stable P) (s : State) (n : Nat) (hs : P s) : P (s.releaseSp n) := by
  unfold State.releaseSp
  repeat' first | with_reducible assumption | with_reducible apply State.setSpt_keeps hP | with_reducible apply State.spSteer_keeps hP | with_reducible apply foldl_keeps | with_reducible apply foldl_fst_keeps | (intro _; intros)

theorem State.activateSp_keeps (hP : Stable P) (s : State) (kept : Bool) (n : Nat) (hs : P s) : P (s.activateSp kept n) := by
  unfold State.activateSp
  repeat' first | with_reducible assumption | with_reducible apply ite_keeps | with_reducible apply State.put_keeps hP | with_reducible apply State.setSpt_keeps hP | with_reducible apply State.setSpState_keeps hP | with_reducible apply State.spBoundary_keeps hP | with_reducible apply State.spTurnOn_keeps hP | with_reducible apply State.spDisable_keeps hP | with_reducible apply State.releaseSp_keeps hP

theorem State.activateBank_keeps (hP : Stable P) (s : State) (old : Image) (kept : Bool) (b : Nat) (hs : P s) : P (s.activateBank old kept b) := by
  unfold State.activateBank
  repeat' first | with_reducible assumption | with_reducible apply ite_keeps | with_reducible apply State.wr_keeps hP | with_reducible apply State.setBank_keeps hP | with_reducible apply State.refreshDrive_keeps hP | with_reducible apply State.maceForceBank_keeps hP | with_reducible apply State.maceReleaseBank_keeps hP

theorem State.activateRoles_keeps (hP : Stable P) (s : State) (old : Image) (kept : Bool) (p : Nat) (hs : P s) : P (s.activateRoles old kept p) := by
  unfold State.activateRoles
  repeat' first | with_reducible assumption | with_reducible apply ite_keeps | with_reducible apply State.wrA_keeps hP | with_reducible apply State.setTt_keeps hP | with_reducible apply State.setAn_keeps hP | with_reducible apply State.wakePort_keeps hP

theorem State.activateRing_keeps (hP : Stable P) (s : State) (old : Image) (hs : P s) : P (s.activateRing old) := by
  unfold State.activateRing
  repeat' first | with_reducible assumption | with_reducible apply ite_keeps | with_reducible apply State.put_keeps hP | with_reducible apply State.loseLink_keeps hP | with_reducible apply State.stopRing_keeps hP | with_reducible apply State.unstopRing_keeps hP | with_reducible apply State.showMembers_keeps hP | with_reducible apply foldl_keeps | with_reducible apply foldl_fst_keeps | (intro _; intros)

theorem State.activatePair_keeps (hP : Stable P) (s : State) (old : Image) (boot : Bool) (hs : P s) : P (s.activatePair old boot) := by
  unfold State.activatePair
  repeat' first | with_reducible assumption | with_reducible apply ite_keeps | with_reducible apply State.put_keeps hP | with_reducible apply State.setPair_keeps hP | with_reducible apply State.role_keeps hP | with_reducible apply State.endContest_keeps hP

theorem State.activateFaults_keeps (hP : Stable P) (s : State) (hs : P s) : P (s.activateFaults) := by
  unfold State.activateFaults
  repeat' first | with_reducible assumption | with_reducible apply State.refreshForces_keeps hP | with_reducible apply State.clearSource_keeps hP | with_reducible apply foldl_keeps

theorem State.showRun_keeps (hP : Stable P) (s : State) (l : Loaded) (k : Nat) (hs : P s) : P (s.showRun l k) := by
  unfold State.showRun
  repeat' first | with_reducible assumption | with_reducible apply ite_keeps | with_reducible apply State.wr_keeps hP | with_reducible apply State.put_keeps hP | with_reducible apply State.setNvm_keeps hP | with_reducible apply foldl_keeps | with_reducible apply foldl_fst_keeps | (intro _; intros)

theorem State.remapEvents_keeps (hP : Stable P) (s : State) (gone : List Nat) (entries leases : List Nat) (hs : P s) : P (s.remapEvents gone entries leases) := by
  unfold State.remapEvents
  repeat' first | with_reducible assumption | with_reducible apply ite_keeps | with_reducible apply State.eventLim_keeps hP | with_reducible apply foldl_keeps | with_reducible apply foldl_fst_keeps | (intro _; intros)

theorem State.fanoutEvents_keeps (hP : Stable P) (s : State) (p : Nat) (hs : P s) : P (s.fanoutEvents p) := by
  unfold State.fanoutEvents
  repeat' first | with_reducible assumption | with_reducible apply State.eventLim_keeps hP | with_reducible apply foldl_keeps | with_reducible apply foldl_fst_keeps | with_reducible refine of_fst (by assumption) ?_ | (intro _; intros) | split | (simp only [])

theorem State.masterOff_keeps (hP : Stable P) (s : State) (hs : P s) : P (s.masterOff) := by
  unfold State.masterOff
  repeat' first | with_reducible assumption | with_reducible apply ite_keeps | with_reducible apply State.masterEvent_keeps hP | with_reducible apply State.stopMaster_keeps hP

theorem State.crossItems_keeps (hP : Stable P) (s : State) (old keep : Image) (kept boot : Bool) (rt : Tbl LeaseRt) (hs : P s) : P (s.crossItems old keep kept boot rt) := by
  unfold State.crossItems
  repeat' first | with_reducible assumption | with_reducible apply ite_keeps | with_reducible apply State.dropLost_keeps hP | with_reducible apply State.dropReplies_keeps hP | with_reducible apply State.moveItems_keeps hP | with_reducible apply State.dropMsgs_keeps hP | with_reducible apply State.carryReflex_keeps hP | with_reducible apply State.carryGroups_keeps hP | with_reducible apply State.carryIrq_keeps hP | with_reducible apply State.carryRings_keeps hP | with_reducible apply State.activateFb_keeps hP | with_reducible apply State.activateSp_keeps hP | with_reducible apply State.activateBank_keeps hP | with_reducible apply State.activateRoles_keeps hP | with_reducible apply foldl_keeps | with_reducible apply foldl_fst_keeps | (intro _; intros) | split | (simp only []) | with_reducible apply hP.leaseRt | with_reducible apply hP.rx

theorem State.activate_keeps (hP : Stable P) (s : State) (l : Loaded) (k : Nat) (boot kept : Bool) (hs : P s) : P (s.activate l k boot kept) := by
  unfold State.activate
  repeat' first | with_reducible assumption | with_reducible apply ite_keeps | with_reducible apply State.timeMark_keeps hP | with_reducible apply State.setCu_keeps hP | with_reducible apply State.powerUp_keeps hP | with_reducible apply State.loadImage_keeps hP | with_reducible apply State.activateRing_keeps hP | with_reducible apply State.activatePair_keeps hP | with_reducible apply State.activateFaults_keeps hP | with_reducible apply State.showRun_keeps hP | with_reducible apply State.remapEvents_keeps hP | with_reducible apply State.fanoutEvents_keeps hP | with_reducible apply State.masterOff_keeps hP | with_reducible apply State.crossItems_keeps hP | with_reducible apply foldl_keeps | with_reducible apply foldl_fst_keeps | with_reducible refine of_fst (by assumption) ?_ | (intro _; intros) | split | (simp only []) | with_reducible apply hP.rx

theorem State.releasePort_keeps (hP : Stable P) (s : State) (p : Nat) (hs : P s) : P (s.releasePort p) := by
  unfold State.releasePort
  repeat' first | with_reducible assumption | with_reducible apply ite_keeps | with_reducible apply State.addA_keeps hP | with_reducible apply State.bump_keeps hP | with_reducible apply State.setPort_keeps hP | with_reducible apply State.eventLim_keeps hP | with_reducible apply State.takeSlot_keeps hP | with_reducible apply State.refreshHead_keeps hP | with_reducible apply State.returnAll_keeps hP | with_reducible apply State.commitFrame_keeps hP | with_reducible apply State.reportHeld_keeps hP | with_reducible apply ite_fst_keeps | with_reducible apply foldl_keeps | with_reducible apply foldl_fst_keeps | with_reducible refine of_fst (by assumption) ?_ | (intro _; intros) | split

theorem State.releaseRing_keeps (hP : Stable P) (s : State) (r : Nat) (hs : P s) : P (s.releaseRing r) := by
  unfold State.releaseRing
  repeat' first | with_reducible assumption | with_reducible apply ite_keeps | with_reducible apply State.setRing_keeps hP | with_reducible apply State.absorb_keeps hP | with_reducible apply State.dbApply_keeps hP | with_reducible refine of_fst (by assumption) ?_ | (intro _; intros) | split

theorem State.refuseSwap_keeps (hP : Stable P) (s : State) (hs : P s) : P (s.refuseSwap) := by
  unfold State.refuseSwap
  repeat' first | with_reducible assumption | with_reducible apply State.settleFaults_keeps hP | with_reducible apply State.checkEvent_keeps hP | with_reducible apply State.crossItems_keeps hP

theorem State.takeSwap_keeps (hP : Stable P) (s : State) (epoch : Nat) (recs : List MirrorRec) (record : List Byte) (hs : P s) : P (s.takeSwap epoch recs record) := by
  unfold State.takeSwap
  repeat' first | with_reducible assumption | with_reducible apply ite_keeps | with_reducible apply State.wr_keeps hP | with_reducible apply State.role_keeps hP | with_reducible apply State.takeRecords_keeps hP | with_reducible apply State.refuseSwap_keeps hP

theorem State.resetRing_keeps (hP : Stable P) (s : State) (r : Nat) (hs : P s) : P (s.resetRing r) := by
  unfold State.resetRing
  repeat' first | with_reducible assumption | with_reducible apply State.wr_keeps hP | with_reducible apply State.put_keeps hP | with_reducible apply State.setRing_keeps hP | with_reducible apply State.setProd_keeps hP | with_reducible apply State.setCons_keeps hP | with_reducible apply State.killReads_keeps hP | with_reducible apply State.idleRing_keeps hP

theorem State.resetQueue_keeps (hP : Stable P) (s : State) (f : Func) (p : Nat) (hs : P s) : P (s.resetQueue f p) := by
  unfold State.resetQueue
  repeat' first | with_reducible assumption | with_reducible apply ite_keeps | with_reducible apply State.mirror_keeps hP | with_reducible apply State.setEntries_keeps hP | with_reducible apply State.freeEntry_keeps hP | with_reducible apply foldl_keeps | with_reducible apply foldl_fst_keeps | (intro _; intros)

theorem State.dropWaiting_keeps (hP : Stable P) (s : State) (f : Func) (hs : P s) : P (s.dropWaiting f) := by
  unfold State.dropWaiting
  repeat' first | with_reducible assumption | with_reducible apply State.setLink_keeps hP | with_reducible refine of_fst (by assumption) ?_ | (intro _; intros) | split | (simp only []) | with_reducible apply hP.host | with_reducible apply hP.hostPair

theorem State.freeTenantSlots_keeps (hP : Stable P) (s : State) (f : Func) (hs : P s) : P (s.freeTenantSlots f) := by
  unfold State.freeTenantSlots
  repeat' first | with_reducible assumption | with_reducible apply State.setPaySlot_keeps hP | with_reducible apply foldl_keeps | with_reducible apply foldl_fst_keeps | (intro _; intros)

theorem State.resetWindow_keeps (hP : Stable P) (s : State) (t : Nat) (hs : P s) : P (s.resetWindow t) :=
  hP.subFrame s _ List.filter_sublist rfl rfl rfl rfl hs

theorem State.resetGathers_keeps (hP : Stable P) (s : State) (f : Func) (hs : P s) : P (s.resetGathers f) := by
  unfold State.resetGathers
  repeat' first | with_reducible assumption | with_reducible apply ite_keeps | (intro _; intros) | with_reducible apply hP.gt

theorem State.resetTenant_keeps (hP : Stable P) (s : State) (f : Func) (hs : P s) : P (s.resetTenant f) := by
  unfold State.resetTenant
  repeat' first | with_reducible assumption | with_reducible apply ite_keeps | with_reducible apply State.dropParts_keeps hP | with_reducible apply State.resetIrq_keeps hP | with_reducible apply State.closeMailboxes_keeps hP | with_reducible apply State.purge_keeps hP | with_reducible apply State.abortSession_keeps hP | with_reducible apply State.resetRing_keeps hP | with_reducible apply State.resetQueue_keeps hP | with_reducible apply State.dropWaiting_keeps hP | with_reducible apply State.freeTenantSlots_keeps hP | with_reducible apply State.resetWindow_keeps hP | with_reducible apply State.resetGathers_keeps hP | with_reducible apply foldl_keeps | with_reducible apply foldl_fst_keeps | (intro _; intros)

theorem State.resetFunc_keeps (hP : Stable P) (s : State) (f : Func) (enabled : Bool) (hs : P s) : P (s.resetFunc f enabled) := by
  unfold State.resetFunc
  repeat' first | with_reducible assumption | with_reducible apply ite_keeps | with_reducible apply State.setFunc_keeps hP | with_reducible apply State.refreshHeads_keeps hP | with_reducible apply State.resetTenant_keeps hP

theorem State.removeVfs_keeps (hP : Stable P) (s : State) (link n : Nat) (hs : P s) : P (s.removeVfs link n) := by
  unfold State.removeVfs
  repeat' first | with_reducible assumption | with_reducible apply State.setLink_keeps hP | with_reducible apply State.resetFunc_keeps hP | with_reducible apply foldl_keeps | with_reducible apply foldl_fst_keeps | (intro _; intros)

theorem State.resetLink_keeps (hP : Stable P) (s : State) (link : Nat) (hs : P s) : P (s.resetLink link) := by
  unfold State.resetLink
  repeat' first | with_reducible assumption | with_reducible apply State.setLink_keeps hP | with_reducible apply State.resetFunc_keeps hP | with_reducible apply foldl_keeps | with_reducible apply foldl_fst_keeps | (intro _; intros)

theorem State.resumeFunc_keeps (hP : Stable P) (s : State) (f : Func) (hs : P s) : P (s.resumeFunc f) := by
  unfold State.resumeFunc
  repeat' first | with_reducible assumption | with_reducible apply ite_keeps | with_reducible apply State.post_keeps hP | with_reducible apply State.judgeWhere_keeps hP | with_reducible apply State.refreshHeads_keeps hP | with_reducible apply State.drainLink_keeps hP | with_reducible apply foldl_keeps | with_reducible apply foldl_fst_keeps | (intro _; intros) | split | (simp only []) | with_reducible apply hP.host

theorem State.keepField_keeps (hP : Stable P) (s : State) (old : State) (f : Fld) (k : Nat) (hs : P s) : P (s.keepField old f k) := by
  unfold State.keepField
  repeat' first | with_reducible assumption | with_reducible apply State.wrA_keeps hP

theorem State.keepFaults_keeps (hP : Stable P) (s : State) (old : State) (hs : P s) : P (s.keepFaults old) := by
  unfold State.keepFaults
  repeat' first | with_reducible assumption | with_reducible apply ite_keeps | with_reducible apply State.wrA_keeps hP | with_reducible apply State.setForced_keeps hP | with_reducible apply State.setFifo_keeps hP | with_reducible apply State.keepField_keeps hP | with_reducible apply foldl_keeps | with_reducible apply foldl_fst_keeps | (intro _; intros) | split | (simp only []) | with_reducible apply hP.fc

theorem State.keepSwitches_keeps (hP : Stable P) (s : State) (old : State) (hs : P s) : P (s.keepSwitches old) := by
  unfold State.keepSwitches
  repeat' first | with_reducible assumption | with_reducible apply State.setPort_keeps hP | with_reducible apply State.setSpt_keeps hP | with_reducible apply foldl_keeps | with_reducible apply foldl_fst_keeps | (intro _; intros)

theorem State.quietPins_keeps (hP : Stable P) (s : State) (hs : P s) : P (s.quietPins) := by
  unfold State.quietPins
  repeat' first | with_reducible assumption | with_reducible apply ite_keeps | with_reducible apply State.emit_keeps hP | with_reducible apply foldl_keeps | with_reducible apply foldl_fst_keeps | (intro _; intros)

theorem State.faultLanes_keeps (hP : Stable P) (s : State) (hs : P s) : P (s.faultLanes) := by
  unfold State.faultLanes
  repeat' first | with_reducible assumption | with_reducible apply State.sendFault_keeps hP | with_reducible apply foldl_keeps | with_reducible apply foldl_fst_keeps | (intro _; intros)

theorem State.pinsAtReset_keeps (hP : Stable P) (s : State) (cause : Nat) (hs : P s) : P (s.pinsAtReset cause) := by
  unfold State.pinsAtReset
  repeat' first | with_reducible assumption | with_reducible apply ite_keeps | with_reducible apply State.quietPins_keeps hP | with_reducible apply State.faultLanes_keeps hP

theorem State.bootCheck_keeps (hP : Stable P) (s : State) (k : Nat) (nvm : Bool) (hs : P s) : P (s.bootCheck k nvm).1 := by
  unfold State.bootCheck
  repeat' first | with_reducible assumption | with_reducible apply ite_keeps | with_reducible apply State.noteCheck_keeps hP | with_reducible apply ite_fst_keeps | with_reducible refine of_fst (by assumption) ?_ | (intro _; intros) | split | (simp only [])

theorem State.tapLoad_keeps (hP : Stable P) (s : State) (code : Nat) (hs : P s) : P (s.tapLoad code) := by
  unfold State.tapLoad
  repeat' first | with_reducible assumption | with_reducible apply ite_keeps | with_reducible apply State.emit_keeps hP | (intro _; intros) | with_reducible apply hP.tap

theorem State.boundaryOf_keeps (hP : Stable P) (s : State) (x0 : Inst) (hs : P s) : P (s.boundaryOf x0) := by
  unfold State.boundaryOf
  repeat' first | with_reducible assumption | with_reducible apply ite_keeps | with_reducible apply State.applyStaged_keeps hP | with_reducible apply State.fbBoundary_keeps hP | with_reducible apply State.applyBank_keeps hP | with_reducible apply State.spBoundary_keeps hP | (intro _; intros) | split

theorem State.settleInst_keeps (hP : Stable P) (s : State) (i : Inst) (hs : P s) : P (s.settleInst i) := by
  unfold State.settleInst
  repeat' first | with_reducible assumption | with_reducible apply ite_keeps | with_reducible apply State.boundaryOf_keeps hP

theorem State.writeAlias_keeps (hP : Stable P) (s : State) (f : Func) (l : Loc) (bit : Nat) (one : Bool) (hs : P s) : P (s.writeAlias f l bit one) := by
  unfold State.writeAlias
  repeat' first | with_reducible assumption | with_reducible apply ite_keeps | with_reducible apply State.clearCount_keeps hP | with_reducible apply State.writeWord_keeps hP | with_reducible apply State.setPend_keeps hP | with_reducible apply State.clrPend_keeps hP | with_reducible apply State.eachBit_keeps hP | with_reducible apply State.bankCmd_keeps hP | with_reducible apply State.clearOc_keeps hP | with_reducible apply State.spCommand_keeps hP | with_reducible apply State.fbCommand_keeps hP | with_reducible apply State.settleInst_keeps hP | with_reducible refine of_fst (by assumption) ?_ | (intro _; intros) | split

theorem State.afterWrite_keeps (hP : Stable P) (s : State) (f : Func) (l : Loc) (v : Nat) (hs : P s) : P (s.afterWrite f l v) := by
  unfold State.afterWrite
  repeat' first | with_reducible assumption | with_reducible apply ite_keeps | with_reducible apply State.put_keeps hP | with_reducible apply State.discardStaged_keeps hP | with_reducible apply State.pwrDone_keeps hP | with_reducible apply State.tellFallback_keeps hP | with_reducible apply State.cuDone_keeps hP | with_reducible apply State.settleInst_keeps hP | with_reducible refine of_fst (by assumption) ?_ | (intro _; intros) | split

theorem State.writePlace_keeps (hP : Stable P) (s : State) (f : Func) (v : Nat) (x0 : Place) (hs : P s) : P (s.writePlace f v x0) := by
  unfold State.writePlace
  repeat' first | with_reducible assumption | with_reducible apply ite_keeps | with_reducible apply State.writeReg_keeps hP | with_reducible apply State.voteSettled_keeps hP | with_reducible apply State.writeAlias_keeps hP | with_reducible apply State.afterWrite_keeps hP | (intro _; intros) | split

theorem State.writeTable_keeps (hP : Stable P) (s : State) (a : Access) (hs : P s) : P (s.writeTable a) := by
  unfold State.writeTable
  repeat' first | with_reducible assumption | with_reducible apply ite_keeps | with_reducible apply State.writeMsix_keeps hP | with_reducible apply State.judge_keeps hP | with_reducible refine of_fst (by assumption) ?_ | (intro _; intros) | split

end Sys2Proof.Machine
end

