-- ==== Sys2Proof/Laws/KeepsExec.lean ====
section
/-! SUPPORT. Every operation of the model keeps a stable predicate: the commands. -/

set_option linter.unusedTactic false
set_option linter.unreachableTactic false
set_option linter.unusedVariables false

namespace Sys2Proof.Machine

variable {P : State → Prop}

theorem execRefusedAccess_keeps (hP : Stable P) (t : Nat) (a : Access) (s : State) (hs : P (s.tick t)) : NextKeeps P (execRefusedAccess t a s) := by
  unfold execRefusedAccess
  repeat' first | with_reducible apply next_keeps | with_reducible apply ite_next_keeps | with_reducible assumption | with_reducible apply ite_keeps | with_reducible apply State.emit_keeps hP | with_reducible apply State.refuse_keeps hP | with_reducible apply ite_fst_keeps | with_reducible refine of_fst (by assumption) ?_ | (intro _; intros) | split

theorem execWideGroupRead_keeps (hP : Stable P) (t : Nat) (a : Access) (found : List Found) (s : State) (hs : P (s.tick t)) : NextKeeps P (execWideGroupRead t a found s) := by
  unfold execWideGroupRead
  repeat' first | with_reducible apply next_keeps | with_reducible apply ite_next_keeps | with_reducible assumption | with_reducible apply ite_keeps | with_reducible apply State.hostReads_keeps hP | with_reducible apply State.readConfig_keeps hP | with_reducible apply State.readMsix_keeps hP | with_reducible apply State.readDwords_keeps hP | with_reducible apply ite_fst_keeps | (intro _; intros)

theorem execScrubVisit_keeps (hP : Stable P) (t blk inst off lo : Nat) (staged : Bool) (found : Copies) (s : State) (hs : P (s.tick t)) : NextKeeps P (execScrubVisit t blk inst off lo staged found s) := by
  unfold execScrubVisit
  repeat' first | with_reducible apply next_keeps | with_reducible apply ite_next_keeps | with_reducible assumption | with_reducible apply ite_keeps | with_reducible apply State.vote_keeps hP | with_reducible apply ite_fst_keeps | with_reducible refine of_fst (by assumption) ?_ | (intro _; intros) | split

theorem execRwiRestore_keeps (hP : Stable P) (t blk inst off lo : Nat) (s : State) (hs : P (s.tick t)) : NextKeeps P (execRwiRestore t blk inst off lo s) := by
  unfold execRwiRestore
  repeat' first | with_reducible apply next_keeps | with_reducible apply ite_next_keeps | with_reducible assumption | with_reducible apply ite_keeps | with_reducible apply State.rewritten_keeps hP | with_reducible apply State.wrA_keeps hP | with_reducible apply State.voteSettled_keeps hP | with_reducible apply ite_fst_keeps | with_reducible refine of_fst (by assumption) ?_ | (intro _; intros) | split

theorem execBoundary_keeps (hP : Stable P) (t : Nat) (i : Inst) (s : State) (hs : P (s.tick t)) : NextKeeps P (execBoundary t i s) := by
  unfold execBoundary
  repeat' first | with_reducible apply next_keeps | with_reducible apply ite_next_keeps | with_reducible assumption | with_reducible apply State.voteSettled_keeps hP | with_reducible apply State.boundaryOf_keeps hP

theorem execDiscard_keeps (hP : Stable P) (t : Nat) (f : Func) (i : Inst) (s : State) (hs : P (s.tick t)) : NextKeeps P (execDiscard t f i s) := by
  unfold execDiscard
  repeat' first | with_reducible apply next_keeps | with_reducible apply ite_next_keeps | with_reducible assumption | with_reducible apply State.discardStaged_keeps hP | with_reducible apply State.hostWrite_keeps hP | with_reducible apply State.voteSettled_keeps hP | with_reducible apply ite_fst_keeps | (intro _; intros)

theorem execFlr_keeps (hP : Stable P) (t : Nat) (f : Func) (s : State) (hs : P (s.tick t)) : NextKeeps P (execFlr t f s) := by
  unfold execFlr
  repeat' first | with_reducible apply next_keeps | with_reducible apply ite_next_keeps | with_reducible assumption | with_reducible apply ite_keeps | with_reducible apply State.resetFunc_keeps hP | with_reducible apply State.removeVfs_keeps hP

theorem execVfEnableCleared_keeps (hP : Stable P) (t link numVfs : Nat) (s : State) (hs : P (s.tick t)) : NextKeeps P (execVfEnableCleared t link numVfs s) := by
  unfold execVfEnableCleared
  repeat' first | with_reducible apply next_keeps | with_reducible apply ite_next_keeps | with_reducible assumption | with_reducible apply State.removeVfs_keeps hP

theorem execBusMasterEnableCleared_keeps (hP : Stable P) (t : Nat) (f : Func) (s : State) (hs : P (s.tick t)) : NextKeeps P (execBusMasterEnableCleared t f s) := by
  unfold execBusMasterEnableCleared
  repeat' first | with_reducible apply next_keeps | with_reducible apply ite_next_keeps | with_reducible assumption | with_reducible apply State.setFunc_keeps hP | with_reducible apply State.refreshHeads_keeps hP

theorem execD3hotEntered_keeps (hP : Stable P) (t link : Nat) (s : State) (hs : P (s.tick t)) : NextKeeps P (execD3hotEntered t link s) := by
  unfold execD3hotEntered
  repeat' first | with_reducible apply next_keeps | with_reducible apply ite_next_keeps | with_reducible assumption | with_reducible apply State.setFunc_keeps hP | with_reducible apply State.refreshHeads_keeps hP

theorem execHotReset_keeps (hP : Stable P) (t link : Nat) (s : State) (hs : P (s.tick t)) : NextKeeps P (execHotReset t link s) := by
  unfold execHotReset
  repeat' first | with_reducible apply next_keeps | with_reducible apply ite_next_keeps | with_reducible assumption | with_reducible apply ite_keeps | with_reducible apply State.setLink_keeps hP | with_reducible apply State.resetLink_keeps hP

theorem execFunctionResetComplete_keeps (hP : Stable P) (t : Nat) (f : Func) (s : State) (hs : P (s.tick t)) : NextKeeps P (execFunctionResetComplete t f s) := by
  unfold execFunctionResetComplete
  repeat' first | with_reducible apply next_keeps | with_reducible apply ite_next_keeps | with_reducible assumption | with_reducible apply State.setFunc_keeps hP

theorem execCompletionsResume_keeps (hP : Stable P) (t : Nat) (f : Func) (s : State) (hs : P (s.tick t)) : NextKeeps P (execCompletionsResume t f s) := by
  unfold execCompletionsResume
  repeat' first | with_reducible apply next_keeps | with_reducible apply ite_next_keeps | with_reducible assumption | with_reducible apply ite_keeps | with_reducible apply State.setLink_keeps hP | with_reducible apply State.setFunc_keeps hP | with_reducible apply State.resumeFunc_keeps hP

theorem execArm_keeps (hP : Stable P) (t : Nat) (f : Func) (k : Nat) (both : Bool) (s : State) (hs : P (s.tick t)) : NextKeeps P (execArm t f k both s) := by
  unfold execArm
  repeat' first | with_reducible apply next_keeps | with_reducible apply ite_next_keeps | with_reducible assumption | with_reducible apply ite_keeps | with_reducible apply State.hostWrite_keeps hP | with_reducible apply State.armCmd_keeps hP | with_reducible apply State.tellFallback_keeps hP | with_reducible apply ite_fst_keeps | (intro _; intros)

theorem execDisarm_keeps (hP : Stable P) (t : Nat) (f : Func) (k : Nat) (both : Bool) (s : State) (hs : P (s.tick t)) : NextKeeps P (execDisarm t f k both s) := by
  unfold execDisarm
  repeat' first | with_reducible apply next_keeps | with_reducible apply ite_next_keeps | with_reducible assumption | with_reducible apply ite_keeps | with_reducible apply State.hostWrite_keeps hP | with_reducible apply State.disarmCmd_keeps hP | with_reducible apply ite_fst_keeps | (intro _; intros)

theorem execRingDrainEnd_keeps (hP : Stable P) (t ring : Nat) (s : State) (hs : P (s.tick t)) : NextKeeps P (execRingDrainEnd t ring s) := by
  unfold execRingDrainEnd
  repeat' first | with_reducible apply next_keeps | with_reducible apply ite_next_keeps | with_reducible assumption | with_reducible apply ite_keeps | with_reducible apply State.idleRing_keeps hP

theorem execDoorbell_keeps (hP : Stable P) (t : Nat) (f : Func) (k v : Nat) (s : State) (hs : P (s.tick t)) : NextKeeps P (execDoorbell t f k v s) := by
  unfold execDoorbell
  repeat' first | with_reducible apply next_keeps | with_reducible apply ite_next_keeps | with_reducible assumption | with_reducible apply ite_keeps | with_reducible apply State.doorbell_keeps hP

theorem execFetchRequest_keeps (hP : Stable P) (t link : Nat) (s : State) (hs : P (s.tick t)) : NextKeeps P (execFetchRequest t link s) := by
  unfold execFetchRequest
  repeat' first | with_reducible apply next_keeps | with_reducible apply ite_next_keeps | with_reducible assumption | with_reducible apply ite_keeps | with_reducible apply State.pushPayload_keeps hP | with_reducible apply State.fetchFor_keeps hP | with_reducible apply State.pushPull_keeps hP | with_reducible apply ite_fst_keeps | with_reducible apply foldl_keeps | with_reducible apply foldl_fst_keeps | with_reducible refine of_fst (by assumption) ?_ | (intro _; intros) | split | (simp only [])

theorem execFetchCompletion_keeps (hP : Stable P) (t link tag : Nat) (r : ReadResult) (s : State) (hs : P (s.tick t)) : NextKeeps P (execFetchCompletion t link tag r s) := by
  unfold execFetchCompletion
  repeat' first | with_reducible apply next_keeps | with_reducible apply ite_next_keeps | with_reducible assumption | with_reducible apply ite_keeps | with_reducible apply State.bump_keeps hP | with_reducible apply State.endRead_keeps hP | with_reducible apply State.descRead_keeps hP | with_reducible apply ite_fst_keeps | with_reducible refine of_fst (by assumption) ?_ | (intro _; intros) | split | (simp only [])

theorem execCompletionTimeout_keeps (hP : Stable P) (t link tag : Nat) (s : State) (hs : P (s.tick t)) : NextKeeps P (execCompletionTimeout t link tag s) := by
  unfold execCompletionTimeout
  repeat' first | with_reducible apply next_keeps | with_reducible apply ite_next_keeps | with_reducible assumption | with_reducible apply ite_keeps | with_reducible apply State.bump_keeps hP | with_reducible apply State.endRead_keeps hP | with_reducible apply State.descRead_keeps hP | with_reducible apply State.payloadRead_keeps hP | with_reducible apply State.pullRead_keeps hP | with_reducible apply ite_fst_keeps | with_reducible refine of_fst (by assumption) ?_ | (intro _; intros) | split | (simp only [])

theorem execPayloadReadDone_keeps (hP : Stable P) (t link tag : Nat) (r : ReadResult) (s : State) (hs : P (s.tick t)) : NextKeeps P (execPayloadReadDone t link tag r s) := by
  unfold execPayloadReadDone
  repeat' first | with_reducible apply next_keeps | with_reducible apply ite_next_keeps | with_reducible assumption | with_reducible apply ite_keeps | with_reducible apply State.bump_keeps hP | with_reducible apply State.endRead_keeps hP | with_reducible apply State.payloadRead_keeps hP | with_reducible apply ite_fst_keeps | with_reducible refine of_fst (by assumption) ?_ | (intro _; intros) | split | (simp only [])

theorem execDescOpcode_keeps (hP : Stable P) (t ring : Nat) (s : State) (hs : P (s.tick t)) : NextKeeps P (execDescOpcode t ring s) := by
  unfold execDescOpcode
  repeat' first | with_reducible apply next_keeps | with_reducible apply ite_next_keeps | with_reducible assumption | with_reducible apply State.finishDesc_keeps hP | with_reducible apply State.runDesc_keeps hP | with_reducible apply ite_fst_keeps | (intro _; intros)

theorem execTxFrame_keeps (hP : Stable P) (t ring : Nat) (s : State) (hs : P (s.tick t)) : NextKeeps P (execTxFrame t ring s) := by
  unfold execTxFrame
  repeat' first | with_reducible apply next_keeps | with_reducible apply ite_next_keeps | with_reducible assumption | with_reducible apply ite_keeps | with_reducible apply State.runDesc_keeps hP | with_reducible apply State.withHandle_keeps hP | with_reducible apply State.admitFrame_keeps hP | with_reducible apply ite_fst_keeps | (intro _; intros)

theorem execCancel_keeps (hP : Stable P) (t ring : Nat) (s : State) (hs : P (s.tick t)) : NextKeeps P (execCancel t ring s) := by
  unfold execCancel
  repeat' first | with_reducible apply next_keeps | with_reducible apply ite_next_keeps | with_reducible assumption | with_reducible apply State.runDesc_keeps hP | with_reducible apply State.cancelFrames_keeps hP | with_reducible apply ite_fst_keeps | (intro _; intros)

theorem execAlloc_keeps (hP : Stable P) (t ring : Nat) (s : State) (hs : P (s.tick t)) : NextKeeps P (execAlloc t ring s) := by
  unfold execAlloc
  repeat' first | with_reducible apply next_keeps | with_reducible apply ite_next_keeps | with_reducible assumption | with_reducible apply State.runDesc_keeps hP | with_reducible apply State.alloc_keeps hP | with_reducible apply ite_fst_keeps | (intro _; intros)

theorem execFreeSlot_keeps (hP : Stable P) (t ring : Nat) (s : State) (hs : P (s.tick t)) : NextKeeps P (execFreeSlot t ring s) := by
  unfold execFreeSlot
  repeat' first | with_reducible apply next_keeps | with_reducible apply ite_next_keeps | with_reducible assumption | with_reducible apply State.finishDesc_keeps hP | with_reducible apply State.runDesc_keeps hP | with_reducible apply State.setPaySlot_keeps hP | with_reducible apply State.withHandle_keeps hP | with_reducible apply ite_fst_keeps | (intro _; intros)

theorem execWriteSlot_keeps (hP : Stable P) (t ring : Nat) (s : State) (hs : P (s.tick t)) : NextKeeps P (execWriteSlot t ring s) := by
  unfold execWriteSlot
  repeat' first | with_reducible apply next_keeps | with_reducible apply ite_next_keeps | with_reducible assumption | with_reducible apply State.finishDesc_keeps hP | with_reducible apply State.runDesc_keeps hP | with_reducible apply State.setPaySlot_keeps hP | with_reducible apply State.withHandle_keeps hP | with_reducible apply ite_fst_keeps | (intro _; intros)

theorem execFence_keeps (hP : Stable P) (t ring : Nat) (s : State) (hs : P (s.tick t)) : NextKeeps P (execFence t ring s) := by
  unfold execFence
  repeat' first | with_reducible apply next_keeps | with_reducible apply ite_next_keeps | with_reducible assumption | with_reducible apply ite_keeps | with_reducible apply State.finishDesc_keeps hP | with_reducible apply State.runDesc_keeps hP | with_reducible apply ite_fst_keeps | with_reducible refine of_fst (by assumption) ?_ | (intro _; intros) | split | (simp only [])

theorem execNop_keeps (hP : Stable P) (t ring : Nat) (s : State) (hs : P (s.tick t)) : NextKeeps P (execNop t ring s) := by
  unfold execNop
  repeat' first | with_reducible apply next_keeps | with_reducible apply ite_next_keeps | with_reducible assumption | with_reducible apply State.finishDesc_keeps hP | with_reducible apply State.runDesc_keeps hP | with_reducible apply ite_fst_keeps | (intro _; intros)

theorem execHeaderEvent_keeps (hP : Stable P) (t p : Nat) (h : Header) (s : State) (hs : P (s.tick t)) : NextKeeps P (execHeaderEvent t p h s) := by
  unfold execHeaderEvent
  repeat' first | with_reducible apply next_keeps | with_reducible apply ite_next_keeps | with_reducible assumption | with_reducible apply ite_keeps | with_reducible apply State.setPort_keeps hP | with_reducible apply State.settleFaults_keeps hP | with_reducible apply State.takeHeader_keeps hP | with_reducible apply State.formError_keeps hP | with_reducible apply ite_fst_keeps | with_reducible refine of_fst (by assumption) ?_ | (intro _; intros) | split | (simp only [])

theorem execEofEvent_keeps (hP : Stable P) (t p : Nat) (data : List Byte) (s : State) (hs : P (s.tick t)) : NextKeeps P (execEofEvent t p data s) := by
  unfold execEofEvent
  repeat' first | with_reducible apply next_keeps | with_reducible apply ite_next_keeps | with_reducible assumption | with_reducible apply ite_keeps | with_reducible apply State.setPort_keeps hP | with_reducible apply State.endCur_keeps hP | with_reducible apply State.reportOutcome_keeps hP | with_reducible apply State.frameGood_keeps hP | with_reducible apply State.settleFaults_keeps hP | with_reducible apply State.foreignFrame_keeps hP | with_reducible apply State.commitOrHold_keeps hP | with_reducible apply State.countFrame_keeps hP | with_reducible apply ite_fst_keeps | with_reducible refine of_fst (by assumption) ?_ | (intro _; intros) | split | (simp only [])

theorem execRecordWrite_keeps (hP : Stable P) (t link : Nat) (s : State) (hs : P (s.tick t)) : NextKeeps P (execRecordWrite t link s) := by
  unfold execRecordWrite
  repeat' first | with_reducible apply next_keeps | with_reducible apply ite_next_keeps | with_reducible assumption | with_reducible apply ite_keeps | with_reducible apply State.issueRq_keeps hP | with_reducible apply ite_fst_keeps | with_reducible apply foldl_keeps | with_reducible apply foldl_fst_keeps | with_reducible refine of_fst (by assumption) ?_ | (intro _; intros) | split | (simp only []) | with_reducible apply hP.rx

theorem execFrameTake_keeps (hP : Stable P) (t p : Nat) (s : State) (hs : P (s.tick t)) : NextKeeps P (execFrameTake t p s) := by
  unfold execFrameTake
  repeat' first | with_reducible apply next_keeps | with_reducible apply ite_next_keeps | with_reducible assumption | with_reducible apply ite_keeps | with_reducible apply State.queueReset_keeps hP | with_reducible apply State.checkPtrs_keeps hP | with_reducible apply State.settleFaults_keeps hP | with_reducible apply State.takeEntry_keeps hP | with_reducible apply ite_fst_keeps | with_reducible refine of_fst (by assumption) ?_ | (intro _; intros) | split

theorem execArbitrationLost_keeps (hP : Stable P) (t p : Nat) (s : State) (hs : P (s.tick t)) : NextKeeps P (execArbitrationLost t p s) := by
  unfold execArbitrationLost
  repeat' first | with_reducible apply next_keeps | with_reducible apply ite_next_keeps | with_reducible assumption | with_reducible apply ite_keeps | with_reducible apply State.put_keeps hP | with_reducible apply State.bump_keeps hP | with_reducible apply State.setPort_keeps hP | with_reducible apply State.reportOutcome_keeps hP | with_reducible apply State.settleFaults_keeps hP

theorem execFrameError_keeps (hP : Stable P) (t p : Nat) (e : BusError) (s : State) (hs : P (s.tick t)) : NextKeeps P (execFrameError t p e s) := by
  unfold execFrameError
  repeat' first | with_reducible apply next_keeps | with_reducible apply ite_next_keeps | with_reducible assumption | with_reducible apply ite_keeps | with_reducible apply State.settleFaults_keeps hP | with_reducible apply State.busError_keeps hP

theorem execOverloadFrame_keeps (hP : Stable P) (t p : Nat) (_c : OverloadCause) (s : State) (hs : P (s.tick t)) : NextKeeps P (execOverloadFrame t p _c s) := by
  unfold execOverloadFrame
  repeat' first | with_reducible apply next_keeps | with_reducible apply ite_next_keeps | with_reducible assumption | with_reducible apply ite_keeps | with_reducible apply State.put_keeps hP | with_reducible apply State.bump_keeps hP | with_reducible apply State.emit_keeps hP | with_reducible apply State.setPort_keeps hP

theorem execProtocolException_keeps (hP : Stable P) (t p : Nat) (s : State) (hs : P (s.tick t)) : NextKeeps P (execProtocolException t p s) := by
  unfold execProtocolException
  repeat' first | with_reducible apply next_keeps | with_reducible apply ite_next_keeps | with_reducible assumption | with_reducible apply ite_keeps | with_reducible apply State.bump_keeps hP | with_reducible apply State.setPort_keeps hP | with_reducible apply State.fbEvt_keeps hP | with_reducible apply State.protoEvt_keeps hP | with_reducible apply State.dropTransit_keeps hP | with_reducible apply State.endCur_keeps hP

theorem execTdcSat_keeps (hP : Stable P) (t p : Nat) (s : State) (hs : P (s.tick t)) : NextKeeps P (execTdcSat t p s) := by
  unfold execTdcSat
  repeat' first | with_reducible apply next_keeps | with_reducible apply ite_next_keeps | with_reducible assumption | with_reducible apply ite_keeps | with_reducible apply State.wr_keeps hP | with_reducible apply State.put_keeps hP | with_reducible apply State.bump_keeps hP | with_reducible apply State.setPort_keeps hP | with_reducible apply State.fbEvt_keeps hP | with_reducible apply State.protoEvt_keeps hP

theorem execIntegrationComplete_keeps (hP : Stable P) (t p : Nat) (s : State) (hs : P (s.tick t)) : NextKeeps P (execIntegrationComplete t p s) := by
  unfold execIntegrationComplete
  repeat' first | with_reducible apply next_keeps | with_reducible apply ite_next_keeps | with_reducible assumption | with_reducible apply ite_keeps | with_reducible apply State.integrated_keeps hP

theorem execOccurrence_keeps (hP : Stable P) (t p : Nat) (s : State) (hs : P (s.tick t)) : NextKeeps P (execOccurrence t p s) := by
  unfold execOccurrence
  repeat' first | with_reducible apply next_keeps | with_reducible apply ite_next_keeps | with_reducible assumption | with_reducible apply ite_keeps | with_reducible apply State.wr_keeps hP | with_reducible apply State.put_keeps hP

theorem execAutoClear_keeps (hP : Stable P) (t p : Nat) (s : State) (hs : P (s.tick t)) : NextKeeps P (execAutoClear t p s) := by
  unfold execAutoClear
  repeat' first | with_reducible apply next_keeps | with_reducible apply ite_next_keeps | with_reducible assumption | with_reducible apply ite_keeps | with_reducible apply State.put_keeps hP | with_reducible apply State.bump_keeps hP | with_reducible apply State.setPort_keeps hP | with_reducible apply State.event_keeps hP | with_reducible apply State.fbEvt_keeps hP | with_reducible apply State.clearBusOff_keeps hP

theorem execRecovered_keeps (hP : Stable P) (t p : Nat) (s : State) (hs : P (s.tick t)) : NextKeeps P (execRecovered t p s) := by
  unfold execRecovered
  repeat' first | with_reducible apply next_keeps | with_reducible apply ite_next_keeps | with_reducible assumption | with_reducible apply ite_keeps | with_reducible apply State.wr_keeps hP | with_reducible apply State.put_keeps hP | with_reducible apply State.event_keeps hP | with_reducible apply State.fbEvt_keeps hP | with_reducible apply State.setFstate_keeps hP | with_reducible apply State.fbBoundary_keeps hP | with_reducible apply State.zeroErrors_keeps hP

theorem execTxdom_keeps (hP : Stable P) (t p : Nat) (s : State) (hs : P (s.tick t)) : NextKeeps P (execTxdom t p s) := by
  unfold execTxdom
  repeat' first | with_reducible apply next_keeps | with_reducible apply ite_next_keeps | with_reducible assumption | with_reducible apply ite_keeps | with_reducible apply State.bump_keeps hP | with_reducible apply State.setPort_keeps hP | with_reducible apply State.fbEvt_keeps hP | with_reducible apply State.xcvrEvt_keeps hP | with_reducible apply State.faultAssert_keeps hP

theorem execBusdom_keeps (hP : Stable P) (t p : Nat) (on : Bool) (s : State) (hs : P (s.tick t)) : NextKeeps P (execBusdom t p on s) := by
  unfold execBusdom
  repeat' first | with_reducible apply next_keeps | with_reducible apply ite_next_keeps | with_reducible assumption | with_reducible apply ite_keeps | with_reducible apply State.put_keeps hP | with_reducible apply State.fbEvt_keeps hP | with_reducible apply State.xcvrEvt_keeps hP

theorem execWakeSignal_keeps (hP : Stable P) (t p : Nat) (s : State) (hs : P (s.tick t)) : NextKeeps P (execWakeSignal t p s) := by
  unfold execWakeSignal
  repeat' first | with_reducible apply next_keeps | with_reducible apply ite_next_keeps | with_reducible assumption | with_reducible apply ite_keeps | with_reducible apply State.wrA_keeps hP | with_reducible apply State.bump_keeps hP | with_reducible apply State.setAn_keeps hP | with_reducible apply State.fbEvt_keeps hP | with_reducible apply State.xcvrEvt_keeps hP | with_reducible apply State.wakeEvent_keeps hP | with_reducible apply State.handWaiting_keeps hP

theorem execTransceiverModeDone_keeps (hP : Stable P) (t p : Nat) (s : State) (hs : P (s.tick t)) : NextKeeps P (execTransceiverModeDone t p s) := by
  unfold execTransceiverModeDone
  repeat' first | with_reducible apply next_keeps | with_reducible apply ite_next_keeps | with_reducible assumption | with_reducible apply State.setPort_keeps hP | with_reducible apply State.setXcvr_keeps hP | with_reducible apply ite_fst_keeps | with_reducible refine of_fst (by assumption) ?_ | (intro _; intros) | split | (simp only [])

theorem execEnable_keeps (hP : Stable P) (t : Nat) (f : Func) (p bits : Nat) (s : State) (hs : P (s.tick t)) : NextKeeps P (execEnable t f p bits s) := by
  unfold execEnable
  repeat' first | with_reducible apply next_keeps | with_reducible apply ite_next_keeps | with_reducible assumption | with_reducible apply State.hostWrite_keeps hP | with_reducible apply State.fbCommand_keeps hP | with_reducible apply ite_fst_keeps | (intro _; intros)

theorem execDisable_keeps (hP : Stable P) (t : Nat) (f : Func) (p bits : Nat) (s : State) (hs : P (s.tick t)) : NextKeeps P (execDisable t f p bits s) := by
  unfold execDisable
  repeat' first | with_reducible apply next_keeps | with_reducible apply ite_next_keeps | with_reducible assumption | with_reducible apply State.hostWrite_keeps hP | with_reducible apply State.fbCommand_keeps hP | with_reducible apply ite_fst_keeps | (intro _; intros)

theorem execClrBo_keeps (hP : Stable P) (t : Nat) (f : Func) (p bits : Nat) (s : State) (hs : P (s.tick t)) : NextKeeps P (execClrBo t f p bits s) := by
  unfold execClrBo
  repeat' first | with_reducible apply next_keeps | with_reducible apply ite_next_keeps | with_reducible assumption | with_reducible apply State.hostWrite_keeps hP | with_reducible apply State.fbCommand_keeps hP | with_reducible apply ite_fst_keeps | (intro _; intros)

theorem execDrainEnd_keeps (hP : Stable P) (t p : Nat) (s : State) (hs : P (s.tick t)) : NextKeeps P (execDrainEnd t p s) := by
  unfold execDrainEnd
  repeat' first | with_reducible apply next_keeps | with_reducible apply ite_next_keeps | with_reducible assumption | with_reducible apply ite_keeps | with_reducible apply State.put_keeps hP | with_reducible apply State.setPort_keeps hP | with_reducible apply State.endDrain_keeps hP | with_reducible apply State.settleFaults_keeps hP

theorem execDrainLimit_keeps (hP : Stable P) (t p : Nat) (s : State) (hs : P (s.tick t)) : NextKeeps P (execDrainLimit t p s) := by
  unfold execDrainLimit
  repeat' first | with_reducible apply next_keeps | with_reducible apply ite_next_keeps | with_reducible assumption | with_reducible apply ite_keeps | with_reducible apply State.endDrain_keeps hP | with_reducible apply State.settleFaults_keeps hP

theorem execTokens_keeps (hP : Stable P) (t lease : Nat) (s : State) (hs : P (s.tick t)) : NextKeeps P (execTokens t lease s) := by
  unfold execTokens
  repeat' first | with_reducible apply next_keeps | with_reducible apply ite_next_keeps | with_reducible assumption | with_reducible apply State.refreshHead_keeps hP | with_reducible apply ite_fst_keeps | with_reducible refine of_fst (by assumption) ?_ | (intro _; intros) | split | (simp only [])

theorem execReplyExpiry_keeps (hP : Stable P) (t p seq : Nat) (s : State) (hs : P (s.tick t)) : NextKeeps P (execReplyExpiry t p seq s) := by
  unfold execReplyExpiry
  repeat' first | with_reducible apply next_keeps | with_reducible apply ite_next_keeps | with_reducible assumption | with_reducible apply ite_keeps | with_reducible apply State.bump_keeps hP | with_reducible apply State.setEntry_keeps hP | with_reducible apply State.freeEntry_keeps hP | with_reducible apply State.checkPtrs_keeps hP | with_reducible apply State.settleFaults_keeps hP | with_reducible apply ite_fst_keeps | with_reducible refine of_fst (by assumption) ?_ | (intro _; intros) | split | (simp only [])

theorem execQueueRebuildDone_keeps (hP : Stable P) (t p : Nat) (s : State) (hs : P (s.tick t)) : NextKeeps P (execQueueRebuildDone t p s) := by
  unfold execQueueRebuildDone
  repeat' first | with_reducible apply next_keeps | with_reducible apply ite_next_keeps | with_reducible assumption | with_reducible apply ite_keeps | with_reducible apply State.put_keeps hP | with_reducible apply State.refreshHead_keeps hP | with_reducible apply State.setEntries_keeps hP

theorem execPqHead0_keeps (hP : Stable P) (t : Nat) (f : Func) (p : Nat) (s : State) (hs : P (s.tick t)) : NextKeeps P (execPqHead0 t f p s) := by
  unfold execPqHead0
  repeat' first | with_reducible apply next_keeps | with_reducible apply ite_next_keeps | with_reducible assumption | with_reducible apply ite_keeps | with_reducible apply State.hostRead_keeps hP | with_reducible apply State.readHead_keeps hP | with_reducible apply ite_fst_keeps | (intro _; intros)

theorem execMbOpen_keeps (hP : Stable P) (t : Nat) (f : Func) (m : Nat) (s : State) (hs : P (s.tick t)) : NextKeeps P (execMbOpen t f m s) := by
  unfold execMbOpen
  repeat' first | with_reducible apply next_keeps | with_reducible apply ite_next_keeps | with_reducible assumption | with_reducible apply State.hostRead_keeps hP | with_reducible apply State.openBox_keeps hP | with_reducible apply ite_fst_keeps | (intro _; intros)

theorem execMbClose_keeps (hP : Stable P) (t : Nat) (f : Func) (m : Nat) (s : State) (hs : P (s.tick t)) : NextKeeps P (execMbClose t f m s) := by
  unfold execMbClose
  repeat' first | with_reducible apply next_keeps | with_reducible apply ite_next_keeps | with_reducible assumption | with_reducible apply State.hostRead_keeps hP | with_reducible apply State.closeBox_keeps hP | with_reducible apply ite_fst_keeps | (intro _; intros)

theorem execMailboxAutoClose_keeps (hP : Stable P) (t m : Nat) (s : State) (hs : P (s.tick t)) : NextKeeps P (execMailboxAutoClose t m s) := by
  unfold execMailboxAutoClose
  repeat' first | with_reducible apply next_keeps | with_reducible apply ite_next_keeps | with_reducible assumption | with_reducible apply ite_keeps | with_reducible apply State.setMbox_keeps hP | with_reducible apply ite_fst_keeps | with_reducible refine of_fst (by assumption) ?_ | (intro _; intros) | split | (simp only [])

theorem execLowclr_keeps (hP : Stable P) (t : Nat) (f : Func) (s : State) (hs : P (s.tick t)) : NextKeeps P (execLowclr t f s) := by
  unfold execLowclr
  repeat' first | with_reducible apply next_keeps | with_reducible apply ite_next_keeps | with_reducible assumption | with_reducible apply State.wr_keeps hP | with_reducible apply State.hostWrite_keeps hP | with_reducible apply ite_fst_keeps | (intro _; intros)

theorem execSyncCell_keeps (hP : Stable P) (t port : Nat) (x : SyncCell) (s : State) (hs : P (s.tick t)) : NextKeeps P (execSyncCell t port x s) := by
  unfold execSyncCell
  repeat' first | with_reducible apply next_keeps | with_reducible apply ite_next_keeps | with_reducible assumption | with_reducible apply ite_keeps | with_reducible apply State.accept_keeps hP | with_reducible apply State.syncIn_keeps hP

theorem execSyncSend_keeps (hP : Stable P) (t : Nat) (s : State) (hs : P (s.tick t)) : NextKeeps P (execSyncSend t s) := by
  unfold execSyncSend
  repeat' first | with_reducible apply next_keeps | with_reducible apply ite_next_keeps | with_reducible assumption | with_reducible apply ite_keeps | with_reducible apply State.insertCell_keeps hP | with_reducible apply State.setTime_keeps hP | with_reducible apply ite_fst_keeps | with_reducible apply foldl_keeps | with_reducible apply foldl_fst_keeps | (intro _; intros) | split | (simp only [])

theorem execMasterTimeout_keeps (hP : Stable P) (t : Nat) (s : State) (hs : P (s.tick t)) : NextKeeps P (execMasterTimeout t s) := by
  unfold execMasterTimeout
  repeat' first | with_reducible apply next_keeps | with_reducible apply ite_next_keeps | with_reducible assumption | with_reducible apply ite_keeps | with_reducible apply State.wr_keeps hP | with_reducible apply State.put_keeps hP | with_reducible apply State.loseReference_keeps hP | with_reducible apply State.masterEvent_keeps hP

theorem execReferenceLoss_keeps (hP : Stable P) (t : Nat) (s : State) (hs : P (s.tick t)) : NextKeeps P (execReferenceLoss t s) := by
  unfold execReferenceLoss
  repeat' first | with_reducible apply next_keeps | with_reducible apply ite_next_keeps | with_reducible assumption | with_reducible apply ite_keeps | with_reducible apply State.loseReference_keeps hP

theorem execHoldoverTimeout_keeps (hP : Stable P) (t : Nat) (s : State) (hs : P (s.tick t)) : NextKeeps P (execHoldoverTimeout t s) := by
  unfold execHoldoverTimeout
  repeat' first | with_reducible apply next_keeps | with_reducible apply ite_next_keeps | with_reducible assumption | with_reducible apply ite_keeps | with_reducible apply State.setTimeState_keeps hP

theorem execSlewEnd_keeps (hP : Stable P) (t : Nat) (s : State) (hs : P (s.tick t)) : NextKeeps P (execSlewEnd t s) := by
  unfold execSlewEnd
  repeat' first | with_reducible apply next_keeps | with_reducible apply ite_next_keeps | with_reducible assumption | with_reducible apply ite_keeps | with_reducible apply State.put_keeps hP

theorem execDelayMeasure_keeps (hP : Stable P) (t port : Nat) (s : State) (hs : P (s.tick t)) : NextKeeps P (execDelayMeasure t port s) := by
  unfold execDelayMeasure
  repeat' first | with_reducible apply next_keeps | with_reducible apply ite_next_keeps | with_reducible assumption | with_reducible apply ite_keeps | with_reducible apply State.sendNow_keeps hP | with_reducible apply State.setTime_keeps hP | with_reducible apply ite_fst_keeps | (intro _; intros) | rfl

theorem execPpsInputLoss_keeps (hP : Stable P) (t : Nat) (s : State) (hs : P (s.tick t)) : NextKeeps P (execPpsInputLoss t s) := by
  unfold execPpsInputLoss
  repeat' first | with_reducible apply next_keeps | with_reducible apply ite_next_keeps | with_reducible assumption | with_reducible apply ite_keeps | with_reducible apply State.put_keeps hP | with_reducible apply State.bump_keeps hP | with_reducible apply State.setTime_keeps hP | with_reducible apply State.loseReference_keeps hP | with_reducible apply ite_fst_keeps | with_reducible refine of_fst (by assumption) ?_ | (intro _; intros) | split | (simp only [])

theorem execTuSet_keeps (hP : Stable P) (t : Nat) (f : Func) (v : Nat) (s : State) (hs : P (s.tick t)) : NextKeeps P (execTuSet t f v s) := by
  unfold execTuSet
  repeat' first | with_reducible apply next_keeps | with_reducible apply ite_next_keeps | with_reducible assumption | with_reducible apply ite_keeps | with_reducible apply State.wr_keeps hP | with_reducible apply State.evt_keeps hP | with_reducible apply State.commitGroup_keeps hP | with_reducible apply State.hostWrite_keeps hP | with_reducible apply State.setFabric_keeps hP | with_reducible apply ite_fst_keeps | with_reducible refine of_fst (by assumption) ?_ | (intro _; intros)

theorem execTuAlarm_keeps (hP : Stable P) (t : Nat) (f : Func) (v : Nat) (s : State) (hs : P (s.tick t)) : NextKeeps P (execTuAlarm t f v s) := by
  unfold execTuAlarm
  repeat' first | with_reducible apply next_keeps | with_reducible apply ite_next_keeps | with_reducible assumption | with_reducible apply ite_keeps | with_reducible apply State.put_keeps hP | with_reducible apply State.commitGroup_keeps hP | with_reducible apply State.hostWrite_keeps hP | with_reducible apply State.fireAlarm_keeps hP | with_reducible apply ite_fst_keeps | (intro _; intros)

theorem execAlarmDisarm_keeps (hP : Stable P) (t : Nat) (f : Func) (s : State) (hs : P (s.tick t)) : NextKeeps P (execAlarmDisarm t f s) := by
  unfold execAlarmDisarm
  repeat' first | with_reducible apply next_keeps | with_reducible apply ite_next_keeps | with_reducible assumption | with_reducible apply State.put_keeps hP | with_reducible apply State.hostWrite_keeps hP | with_reducible apply ite_fst_keeps | (intro _; intros)

theorem execAlarmFire_keeps (hP : Stable P) (t : Nat) (s : State) (hs : P (s.tick t)) : NextKeeps P (execAlarmFire t s) := by
  unfold execAlarmFire
  repeat' first | with_reducible apply next_keeps | with_reducible apply ite_next_keeps | with_reducible assumption | with_reducible apply ite_keeps | with_reducible apply State.fireAlarm_keeps hP

theorem execPpsOn_keeps (hP : Stable P) (t line : Nat) (s : State) (hs : P (s.tick t)) : NextKeeps P (execPpsOn t line s) := by
  unfold execPpsOn
  repeat' first | with_reducible apply next_keeps | with_reducible apply ite_next_keeps | with_reducible assumption | with_reducible apply ite_keeps | with_reducible apply State.put_keeps hP | with_reducible apply State.bump_keeps hP | with_reducible apply State.evt_keeps hP | with_reducible apply State.setBank_keeps hP | with_reducible apply State.refreshDrive_keeps hP | with_reducible apply State.setTime_keeps hP | with_reducible apply ite_fst_keeps | (intro _; intros) | rfl

theorem execPpsOff_keeps (hP : Stable P) (t line : Nat) (s : State) (hs : P (s.tick t)) : NextKeeps P (execPpsOff t line s) := by
  unfold execPpsOff
  repeat' first | with_reducible apply next_keeps | with_reducible apply ite_next_keeps | with_reducible assumption | with_reducible apply ite_keeps | with_reducible apply State.setBank_keeps hP | with_reducible apply State.refreshDrive_keeps hP

theorem execTtCycleStart_keeps (hP : Stable P) (t p : Nat) (s : State) (hs : P (s.tick t)) : NextKeeps P (execTtCycleStart t p s) := by
  unfold execTtCycleStart
  repeat' first | with_reducible apply next_keeps | with_reducible apply ite_next_keeps | with_reducible assumption | with_reducible apply ite_keeps | with_reducible apply State.setTt_keeps hP | with_reducible apply State.ttCount_keeps hP | with_reducible apply State.ttMaster_keeps hP | with_reducible apply State.withdrawDev_keeps hP | with_reducible apply State.settleFaults_keeps hP | with_reducible apply State.submitDev_keeps hP

theorem execTtTimeout_keeps (hP : Stable P) (t p : Nat) (s : State) (hs : P (s.tick t)) : NextKeeps P (execTtTimeout t p s) := by
  unfold execTtTimeout
  repeat' first | with_reducible apply next_keeps | with_reducible apply ite_next_keeps | with_reducible assumption | with_reducible apply ite_keeps | with_reducible apply State.setTt_keeps hP | with_reducible apply State.ttCount_keeps hP | with_reducible apply State.setSyncOk_keeps hP

theorem execTtClr_keeps (hP : Stable P) (t : Nat) (f : Func) (s : State) (hs : P (s.tick t)) : NextKeeps P (execTtClr t f s) := by
  unfold execTtClr
  repeat' first | with_reducible apply next_keeps | with_reducible apply ite_next_keeps | with_reducible assumption | with_reducible apply State.clearCount_keeps hP | with_reducible apply State.hostWrite_keeps hP | with_reducible apply ite_fst_keeps | (intro _; intros)

theorem execCharacter_keeps (hP : Stable P) (t n : Nat) (c : SerialChar) (s : State) (hs : P (s.tick t)) : NextKeeps P (execCharacter t n c s) := by
  unfold execCharacter
  repeat' first | with_reducible apply next_keeps | with_reducible apply ite_next_keeps | with_reducible assumption | with_reducible apply ite_keeps | with_reducible apply State.charFaults_keeps hP | with_reducible apply State.dataChar_keeps hP | with_reducible apply State.addrChar_keeps hP | with_reducible apply State.echo_keeps hP | with_reducible apply State.lineActive_keeps hP

theorem execIdleClose_keeps (hP : Stable P) (t n : Nat) (s : State) (hs : P (s.tick t)) : NextKeeps P (execIdleClose t n s) := by
  unfold execIdleClose
  repeat' first | with_reducible apply next_keeps | with_reducible apply ite_next_keeps | with_reducible assumption | with_reducible apply ite_keeps | with_reducible apply State.setSpt_keeps hP | with_reducible apply State.closeRec_keeps hP | with_reducible apply ite_fst_keeps | with_reducible refine of_fst (by assumption) ?_ | (intro _; intros) | split

theorem execLineBreak_keeps (hP : Stable P) (t n low : Nat) (s : State) (hs : P (s.tick t)) : NextKeeps P (execLineBreak t n low s) := by
  unfold execLineBreak
  repeat' first | with_reducible apply next_keeps | with_reducible apply ite_next_keeps | with_reducible assumption | with_reducible apply ite_keeps | with_reducible apply State.bump_keeps hP | with_reducible apply State.spEvt_keeps hP | with_reducible apply State.closeRec_keeps hP | with_reducible apply State.lineActive_keeps hP

theorem execTenSptxSel_keeps (hP : Stable P) (t : Nat) (f : Func) (v : Nat) (s : State) (hs : P (s.tick t)) : NextKeeps P (execTenSptxSel t f v s) := by
  unfold execTenSptxSel
  repeat' first | with_reducible apply next_keeps | with_reducible apply ite_next_keeps | with_reducible assumption | with_reducible apply State.wr_keeps hP | with_reducible apply State.hostWrite_keeps hP | with_reducible apply ite_fst_keeps | (intro _; intros) | with_reducible apply hP.stage

theorem execTenSptxD_keeps (hP : Stable P) (t : Nat) (f : Func) (n v : Nat) (s : State) (hs : P (s.tick t)) : NextKeeps P (execTenSptxD t f n v s) := by
  unfold execTenSptxD
  repeat' first | with_reducible apply next_keeps | with_reducible apply ite_next_keeps | with_reducible assumption | with_reducible apply ite_keeps | with_reducible apply State.wr_keeps hP | with_reducible apply State.put_keeps hP | with_reducible apply State.hostWrite_keeps hP | with_reducible apply ite_fst_keeps | (intro _; intros) | with_reducible apply hP.stage

theorem execTenSptxGo_keeps (hP : Stable P) (t : Nat) (f : Func) (s : State) (hs : P (s.tick t)) : NextKeeps P (execTenSptxGo t f s) := by
  unfold execTenSptxGo
  repeat' first | with_reducible apply next_keeps | with_reducible apply ite_next_keeps | with_reducible assumption | with_reducible apply ite_keeps | with_reducible apply State.wr_keeps hP | with_reducible apply State.put_keeps hP | with_reducible apply State.setLrt_keeps hP | with_reducible apply State.hostWrite_keeps hP | with_reducible apply State.setSpt_keeps hP | with_reducible apply State.refreshTxq_keeps hP | with_reducible apply ite_fst_keeps | with_reducible refine of_fst (by assumption) ?_ | (intro _; intros) | split | (simp only []) | with_reducible apply hP.stage

theorem execSpMessageStart_keeps (hP : Stable P) (t : Nat) (m : SpStart) (s : State) (hs : P (s.tick t)) : NextKeeps P (execSpMessageStart t m s) := by
  unfold execSpMessageStart
  repeat' first | with_reducible apply next_keeps | with_reducible apply ite_next_keeps | with_reducible assumption | with_reducible apply ite_keeps | with_reducible apply State.emit_keeps hP | with_reducible apply State.charge_keeps hP | with_reducible apply State.setSpt_keeps hP | with_reducible apply State.refreshTxq_keeps hP | with_reducible apply ite_fst_keeps | with_reducible refine of_fst (by assumption) ?_ | (intro _; intros) | split

theorem execSpMessageEnd_keeps (hP : Stable P) (t n : Nat) (s : State) (hs : P (s.tick t)) : NextKeeps P (execSpMessageEnd t n s) := by
  unfold execSpMessageEnd
  repeat' first | with_reducible apply next_keeps | with_reducible apply ite_next_keeps | with_reducible assumption | with_reducible apply ite_keeps | with_reducible apply State.bump_keeps hP | with_reducible apply State.setSpt_keeps hP | with_reducible apply State.refreshTxq_keeps hP | with_reducible apply State.msgGone_keeps hP | with_reducible apply State.driverOff_keeps hP | with_reducible apply ite_fst_keeps | with_reducible refine of_fst (by assumption) ?_ | (intro _; intros) | split | (simp only [])

theorem execSpEnable_keeps (hP : Stable P) (t : Nat) (f : Func) (n bits : Nat) (s : State) (hs : P (s.tick t)) : NextKeeps P (execSpEnable t f n bits s) := by
  unfold execSpEnable
  repeat' first | with_reducible apply next_keeps | with_reducible apply ite_next_keeps | with_reducible assumption | with_reducible apply ite_keeps | with_reducible apply State.spOwnerCmd_keeps hP

theorem execSpDisable_keeps (hP : Stable P) (t : Nat) (f : Func) (n bits : Nat) (s : State) (hs : P (s.tick t)) : NextKeeps P (execSpDisable t f n bits s) := by
  unfold execSpDisable
  repeat' first | with_reducible apply next_keeps | with_reducible apply ite_next_keeps | with_reducible assumption | with_reducible apply ite_keeps | with_reducible apply State.spOwnerCmd_keeps hP

theorem execSpDrainEnd_keeps (hP : Stable P) (t n : Nat) (s : State) (hs : P (s.tick t)) : NextKeeps P (execSpDrainEnd t n s) := by
  unfold execSpDrainEnd
  repeat' first | with_reducible apply next_keeps | with_reducible apply ite_next_keeps | with_reducible assumption | with_reducible apply ite_keeps | with_reducible apply State.spDrainOver_keeps hP

theorem execSpReceiverReady_keeps (hP : Stable P) (t n : Nat) (s : State) (hs : P (s.tick t)) : NextKeeps P (execSpReceiverReady t n s) := by
  unfold execSpReceiverReady
  repeat' first | with_reducible apply next_keeps | with_reducible apply ite_next_keeps | with_reducible assumption | with_reducible apply ite_keeps | with_reducible apply State.setSpt_keeps hP

theorem execBankSampleTick_keeps (hP : Stable P) (t b levels : Nat) (s : State) (hs : P (s.tick t)) : NextKeeps P (execBankSampleTick t b levels s) := by
  unfold execBankSampleTick
  repeat' first | with_reducible apply next_keeps | with_reducible apply ite_next_keeps | with_reducible assumption | with_reducible apply ite_keeps | with_reducible apply State.applyBank_keeps hP | with_reducible apply State.liftBank_keeps hP | with_reducible apply State.bankTick_keeps hP

theorem execFunctionSwitchStart_keeps (hP : Stable P) (t b line : Nat) (s : State) (hs : P (s.tick t)) : NextKeeps P (execFunctionSwitchStart t b line s) := by
  unfold execFunctionSwitchStart
  repeat' first | with_reducible apply next_keeps | with_reducible apply ite_next_keeps | with_reducible assumption | with_reducible apply ite_keeps | with_reducible apply State.refreshDrive_keeps hP | with_reducible apply State.startFn_keeps hP

theorem execPulseEnd_keeps (hP : Stable P) (t b line : Nat) (s : State) (hs : P (s.tick t)) : NextKeeps P (execPulseEnd t b line s) := by
  unfold execPulseEnd
  repeat' first | with_reducible apply next_keeps | with_reducible apply ite_next_keeps | with_reducible assumption | with_reducible apply ite_keeps | with_reducible apply State.refreshDrive_keeps hP | with_reducible apply State.noteOut_keeps hP | with_reducible apply State.endPulse_keeps hP

theorem execFastEdge_keeps (hP : Stable P) (t b line : Nat) (rise : Bool) (s : State) (hs : P (s.tick t)) : NextKeeps P (execFastEdge t b line rise s) := by
  unfold execFastEdge
  repeat' first | with_reducible apply next_keeps | with_reducible apply ite_next_keeps | with_reducible assumption | with_reducible apply ite_keeps | with_reducible apply State.wrA_keeps hP | with_reducible apply State.note_keeps hP | with_reducible apply State.evt_keeps hP | with_reducible apply State.reportEdge_keeps hP | with_reducible apply State.setLevel_keeps hP | with_reducible apply State.ppsInput_keeps hP

theorem execDbOset_keeps (hP : Stable P) (t : Nat) (f : Func) (b lines : Nat) (s : State) (hs : P (s.tick t)) : NextKeeps P (execDbOset t f b lines s) := by
  unfold execDbOset
  repeat' first | with_reducible apply next_keeps | with_reducible apply ite_next_keeps | with_reducible assumption | with_reducible apply State.hostWrite_keeps hP | with_reducible apply State.bankCmd_keeps hP | with_reducible apply ite_fst_keeps | (intro _; intros)

theorem execDbOclr_keeps (hP : Stable P) (t : Nat) (f : Func) (b lines : Nat) (s : State) (hs : P (s.tick t)) : NextKeeps P (execDbOclr t f b lines s) := by
  unfold execDbOclr
  repeat' first | with_reducible apply next_keeps | with_reducible apply ite_next_keeps | with_reducible assumption | with_reducible apply State.hostWrite_keeps hP | with_reducible apply State.bankCmd_keeps hP | with_reducible apply ite_fst_keeps | (intro _; intros)

theorem execDbOpulse_keeps (hP : Stable P) (t : Nat) (f : Func) (b lines : Nat) (s : State) (hs : P (s.tick t)) : NextKeeps P (execDbOpulse t f b lines s) := by
  unfold execDbOpulse
  repeat' first | with_reducible apply next_keeps | with_reducible apply ite_next_keeps | with_reducible assumption | with_reducible apply State.hostWrite_keeps hP | with_reducible apply State.bankCmd_keeps hP | with_reducible apply ite_fst_keeps | (intro _; intros)

theorem execDbCntclr_keeps (hP : Stable P) (t : Nat) (f : Func) (b lines : Nat) (s : State) (hs : P (s.tick t)) : NextKeeps P (execDbCntclr t f b lines s) := by
  unfold execDbCntclr
  repeat' first | with_reducible apply next_keeps | with_reducible apply ite_next_keeps | with_reducible assumption | with_reducible apply State.clearCount_keeps hP | with_reducible apply State.hostWrite_keeps hP | with_reducible apply ite_fst_keeps | with_reducible apply foldl_keeps | with_reducible apply foldl_fst_keeps | (intro _; intros)

theorem execDbTsf0_keeps (hP : Stable P) (t : Nat) (f : Func) (b : Nat) (s : State) (hs : P (s.tick t)) : NextKeeps P (execDbTsf0 t f b s) := by
  unfold execDbTsf0
  repeat' first | with_reducible apply next_keeps | with_reducible apply ite_next_keeps | with_reducible assumption | with_reducible apply State.hostRead_keeps hP | with_reducible apply State.popStamp_keeps hP | with_reducible apply ite_fst_keeps | (intro _; intros)

theorem execDbOc_keeps (hP : Stable P) (t : Nat) (f : Func) (b lines : Nat) (s : State) (hs : P (s.tick t)) : NextKeeps P (execDbOc t f b lines s) := by
  unfold execDbOc
  repeat' first | with_reducible apply next_keeps | with_reducible apply ite_next_keeps | with_reducible assumption | with_reducible apply State.hostWrite_keeps hP | with_reducible apply State.clearOc_keeps hP | with_reducible apply ite_fst_keeps | (intro _; intros)

theorem execOvercurrent_keeps (hP : Stable P) (t b line : Nat) (s : State) (hs : P (s.tick t)) : NextKeeps P (execOvercurrent t b line s) := by
  unfold execOvercurrent
  repeat' first | with_reducible apply next_keeps | with_reducible apply ite_next_keeps | with_reducible assumption | with_reducible apply ite_keeps | with_reducible apply State.evt_keeps hP | with_reducible apply State.eventLim_keeps hP | with_reducible apply State.refreshDrive_keeps hP

theorem execVfLost_keeps (hP : Stable P) (t b : Nat) (s : State) (hs : P (s.tick t)) : NextKeeps P (execVfLost t b s) := by
  unfold execVfLost
  repeat' first | with_reducible apply next_keeps | with_reducible apply ite_next_keeps | with_reducible assumption | with_reducible apply ite_keeps | with_reducible apply State.put_keeps hP | with_reducible apply State.evt_keeps hP | with_reducible apply State.eventLim_keeps hP | with_reducible apply State.bankDown_keeps hP | with_reducible apply State.applyBank_keeps hP

theorem execVfRet_keeps (hP : Stable P) (t b : Nat) (s : State) (hs : P (s.tick t)) : NextKeeps P (execVfRet t b s) := by
  unfold execVfRet
  repeat' first | with_reducible apply next_keeps | with_reducible apply ite_next_keeps | with_reducible assumption | with_reducible apply ite_keeps | with_reducible apply State.put_keeps hP | with_reducible apply State.evt_keeps hP | with_reducible apply State.eventLim_keeps hP | with_reducible apply State.setBank_keeps hP | with_reducible apply State.refreshDrive_keeps hP

theorem execCellReceive_keeps (hP : Stable P) (t port : Nat) (c : Cell) (s : State) (hs : P (s.tick t)) : NextKeeps P (execCellReceive t port c s) := by
  unfold execCellReceive
  repeat' first | with_reducible apply next_keeps | with_reducible apply ite_next_keeps | with_reducible assumption | with_reducible apply ite_keeps | with_reducible apply State.accept_keeps hP | with_reducible apply State.routeCell_keeps hP

theorem execCellRead_keeps (hP : Stable P) (t port : Nat) (c : Cell) (s : State) (hs : P (s.tick t)) : NextKeeps P (execCellRead t port c s) := by
  unfold execCellRead
  repeat' first | with_reducible apply next_keeps | with_reducible apply ite_next_keeps | with_reducible assumption | with_reducible apply ite_keeps | with_reducible apply State.takeReq_keeps hP

theorem execMboxWrite_keeps (hP : Stable P) (t port : Nat) (c : Cell) (s : State) (hs : P (s.tick t)) : NextKeeps P (execMboxWrite t port c s) := by
  unfold execMboxWrite
  repeat' first | with_reducible apply next_keeps | with_reducible apply ite_next_keeps | with_reducible assumption | with_reducible apply ite_keeps | with_reducible apply State.takeReq_keeps hP

theorem execDcmd_keeps (hP : Stable P) (t port : Nat) (c : Cell) (s : State) (hs : P (s.tick t)) : NextKeeps P (execDcmd t port c s) := by
  unfold execDcmd
  repeat' first | with_reducible apply next_keeps | with_reducible apply ite_next_keeps | with_reducible assumption | with_reducible apply ite_keeps | with_reducible apply State.takeReq_keeps hP

theorem execRsp_keeps (hP : Stable P) (t port : Nat) (c : Cell) (s : State) (hs : P (s.tick t)) : NextKeeps P (execRsp t port c s) := by
  unfold execRsp
  repeat' first | with_reducible apply next_keeps | with_reducible apply ite_next_keeps | with_reducible assumption | with_reducible apply ite_keeps | with_reducible apply State.accept_keeps hP | with_reducible apply State.rspIn_keeps hP

theorem execMember_keeps (hP : Stable P) (t port : Nat) (c : Cell) (s : State) (hs : P (s.tick t)) : NextKeeps P (execMember t port c s) := by
  unfold execMember
  repeat' first | with_reducible apply next_keeps | with_reducible apply ite_next_keeps | with_reducible assumption | with_reducible apply ite_keeps | with_reducible apply State.accept_keeps hP | with_reducible apply State.heardMember_keeps hP | with_reducible apply State.broadcastIn_keeps hP | with_reducible apply ite_fst_keeps | with_reducible refine of_fst (by assumption) ?_ | (intro _; intros)

theorem execMemberSend_keeps (hP : Stable P) (t : Nat) (s : State) (hs : P (s.tick t)) : NextKeeps P (execMemberSend t s) := by
  unfold execMemberSend
  repeat' first | with_reducible apply next_keeps | with_reducible apply ite_next_keeps | with_reducible assumption | with_reducible apply ite_keeps | with_reducible apply State.insertCell_keeps hP | with_reducible apply ite_fst_keeps | with_reducible apply foldl_keeps | with_reducible apply foldl_fst_keeps | (intro _; intros)

theorem execMemberTimeout_keeps (hP : Stable P) (t node : Nat) (s : State) (hs : P (s.tick t)) : NextKeeps P (execMemberTimeout t node s) := by
  unfold execMemberTimeout
  repeat' first | with_reducible apply next_keeps | with_reducible apply ite_next_keeps | with_reducible assumption | with_reducible apply State.memberGone_keeps hP

theorem execConsent_keeps (hP : Stable P) (t port : Nat) (c : Cell) (s : State) (hs : P (s.tick t)) : NextKeeps P (execConsent t port c s) := by
  unfold execConsent
  repeat' first | with_reducible apply next_keeps | with_reducible apply ite_next_keeps | with_reducible assumption | with_reducible apply ite_keeps | with_reducible apply State.accept_keeps hP | with_reducible apply State.consentIn_keeps hP

theorem execCommit_keeps (hP : Stable P) (t port : Nat) (c : Cell) (s : State) (hs : P (s.tick t)) : NextKeeps P (execCommit t port c s) := by
  unfold execCommit
  repeat' first | with_reducible apply next_keeps | with_reducible apply ite_next_keeps | with_reducible assumption | with_reducible apply ite_keeps | with_reducible apply State.accept_keeps hP | with_reducible apply State.broadcastIn_keeps hP | with_reducible apply State.takeCommit_keeps hP

theorem execDelayCell_keeps (hP : Stable P) (t port : Nat) (c : Cell) (s : State) (hs : P (s.tick t)) : NextKeeps P (execDelayCell t port c s) := by
  unfold execDelayCell
  repeat' first | with_reducible apply next_keeps | with_reducible apply ite_next_keeps | with_reducible assumption | with_reducible apply ite_keeps | with_reducible apply State.accept_keeps hP | with_reducible apply State.delayIn_keeps hP

theorem execAck_keeps (hP : Stable P) (t port v : Nat) (s : State) (hs : P (s.tick t)) : NextKeeps P (execAck t port v s) := by
  unfold execAck
  repeat' first | with_reducible apply next_keeps | with_reducible apply ite_next_keeps | with_reducible assumption | with_reducible apply ite_keeps | with_reducible apply State.setLp_keeps hP | with_reducible apply State.pump_keeps hP | with_reducible apply State.pumpMirror_keeps hP | with_reducible apply State.ackMirror_keeps hP | with_reducible apply State.heard_keeps hP

theorem execNak_keeps (hP : Stable P) (t port v : Nat) (s : State) (hs : P (s.tick t)) : NextKeeps P (execNak t port v s) := by
  unfold execNak
  repeat' first | with_reducible apply next_keeps | with_reducible apply ite_next_keeps | with_reducible assumption | with_reducible apply ite_keeps | with_reducible apply State.replay_keeps hP | with_reducible apply State.heard_keeps hP | with_reducible apply State.checkSends_keeps hP

theorem execCredit_keeps (hP : Stable P) (t port vc n : Nat) (s : State) (hs : P (s.tick t)) : NextKeeps P (execCredit t port vc n s) := by
  unfold execCredit
  repeat' first | with_reducible apply next_keeps | with_reducible apply ite_next_keeps | with_reducible assumption | with_reducible apply ite_keeps | with_reducible apply State.setLp_keeps hP | with_reducible apply State.pump_keeps hP | with_reducible apply State.heard_keeps hP

theorem execIdent_keeps (hP : Stable P) (t port i v : Nat) (s : State) (hs : P (s.tick t)) : NextKeeps P (execIdent t port i v s) := by
  unfold execIdent
  repeat' first | with_reducible apply next_keeps | with_reducible apply ite_next_keeps | with_reducible assumption | with_reducible apply ite_keeps | with_reducible apply State.wrA_keeps hP | with_reducible apply State.setLp_keeps hP | with_reducible apply State.loseLink_keeps hP | with_reducible apply State.identified_keeps hP | with_reducible apply State.heard_keeps hP | with_reducible apply State.retryDue_keeps hP

theorem execKeep_keeps (hP : Stable P) (t port : Nat) (s : State) (hs : P (s.tick t)) : NextKeeps P (execKeep t port s) := by
  unfold execKeep
  repeat' first | with_reducible apply next_keeps | with_reducible apply ite_next_keeps | with_reducible assumption | with_reducible apply ite_keeps | with_reducible apply State.pump_keeps hP | with_reducible apply State.heard_keeps hP

theorem execWrapnote_keeps (hP : Stable P) (t port v : Nat) (s : State) (hs : P (s.tick t)) : NextKeeps P (execWrapnote t port v s) := by
  unfold execWrapnote
  repeat' first | with_reducible apply next_keeps | with_reducible apply ite_next_keeps | with_reducible assumption | with_reducible apply ite_keeps | with_reducible apply State.refreshRings_keeps hP | with_reducible apply State.heard_keeps hP | with_reducible apply ite_fst_keeps | (intro _; intros) | with_reducible apply hP.ring

theorem execAckTimeout_keeps (hP : Stable P) (t port : Nat) (s : State) (hs : P (s.tick t)) : NextKeeps P (execAckTimeout t port s) := by
  unfold execAckTimeout
  repeat' first | with_reducible apply next_keeps | with_reducible apply ite_next_keeps | with_reducible assumption | with_reducible apply ite_keeps | with_reducible apply State.replay_keeps hP | with_reducible apply State.checkSends_keeps hP | with_reducible apply ite_fst_keeps | with_reducible refine of_fst (by assumption) ?_ | (intro _; intros) | split | (simp only [])

theorem execLinkLoss_keeps (hP : Stable P) (t port : Nat) (c : LossCause) (s : State) (hs : P (s.tick t)) : NextKeeps P (execLinkLoss t port c s) := by
  unfold execLinkLoss
  repeat' first | with_reducible apply next_keeps | with_reducible apply ite_next_keeps | with_reducible assumption | with_reducible apply ite_keeps | with_reducible apply State.receiverLost_keeps hP | with_reducible apply State.loseLink_keeps hP

theorem execBlockLockHeld_keeps (hP : Stable P) (t port : Nat) (s : State) (hs : P (s.tick t)) : NextKeeps P (execBlockLockHeld t port s) := by
  unfold execBlockLockHeld
  repeat' first | with_reducible apply next_keeps | with_reducible apply ite_next_keeps | with_reducible assumption | with_reducible apply ite_keeps | with_reducible apply State.put_keeps hP | with_reducible apply State.setLp_keeps hP | with_reducible apply State.setLstate_keeps hP | with_reducible apply State.sendIdent_keeps hP

theorem execRetryTimerExpiry_keeps (hP : Stable P) (t port : Nat) (s : State) (hs : P (s.tick t)) : NextKeeps P (execRetryTimerExpiry t port s) := by
  unfold execRetryTimerExpiry
  repeat' first | with_reducible apply next_keeps | with_reducible apply ite_next_keeps | with_reducible assumption | with_reducible apply State.retryDue_keeps hP

theorem execForget_keeps (hP : Stable P) (t : Nat) (f : Func) (port : Nat) (s : State) (hs : P (s.tick t)) : NextKeeps P (execForget t f port s) := by
  unfold execForget
  repeat' first | with_reducible apply next_keeps | with_reducible apply ite_next_keeps | with_reducible assumption | with_reducible apply ite_keeps | with_reducible apply State.hostWrite_keeps hP | with_reducible apply State.retryEnd_keeps hP | with_reducible apply ite_fst_keeps | (intro _; intros)

theorem execRetrain_keeps (hP : Stable P) (t : Nat) (f : Func) (port : Nat) (s : State) (hs : P (s.tick t)) : NextKeeps P (execRetrain t f port s) := by
  unfold execRetrain
  repeat' first | with_reducible apply next_keeps | with_reducible apply ite_next_keeps | with_reducible assumption | with_reducible apply State.hostWrite_keeps hP | with_reducible apply State.loseLink_keeps hP | with_reducible apply ite_fst_keeps | (intro _; intros)

theorem execRemoteGo_keeps (hP : Stable P) (t : Nat) (f : Func) (v : Nat) (s : State) (hs : P (s.tick t)) : NextKeeps P (execRemoteGo t f v s) := by
  unfold execRemoteGo
  repeat' first | with_reducible apply next_keeps | with_reducible apply ite_next_keeps | with_reducible assumption | with_reducible apply ite_keeps | with_reducible apply State.wr_keeps hP | with_reducible apply State.put_keeps hP | with_reducible apply State.hostWrite_keeps hP | with_reducible apply State.windowGo_keeps hP | with_reducible apply ite_fst_keeps | (intro _; intros)

theorem execRequestTimeout_keeps (hP : Stable P) (t tag : Nat) (s : State) (hs : P (s.tick t)) : NextKeeps P (execRequestTimeout t tag s) := by
  unfold execRequestTimeout
  repeat' first | with_reducible apply next_keeps | with_reducible apply ite_next_keeps | with_reducible assumption | with_reducible apply State.timeoutDue_keeps hP

theorem execSleepStart_keeps (hP : Stable P) (t : Nat) (f : Func) (s : State) (hs : P (s.tick t)) : NextKeeps P (execSleepStart t f s) := by
  unfold execSleepStart
  repeat' first | with_reducible apply next_keeps | with_reducible apply ite_next_keeps | with_reducible assumption | with_reducible apply ite_keeps | with_reducible apply State.hostWrite_keeps hP | with_reducible apply State.beginRound_keeps hP | with_reducible apply ite_fst_keeps | (intro _; intros)

theorem execSleepRoundTimeout_keeps (hP : Stable P) (t : Nat) (s : State) (hs : P (s.tick t)) : NextKeeps P (execSleepRoundTimeout t s) := by
  unfold execSleepRoundTimeout
  repeat' first | with_reducible apply next_keeps | with_reducible apply ite_next_keeps | with_reducible assumption | with_reducible apply ite_keeps | with_reducible apply State.endSleepRound_keeps hP | with_reducible apply ite_fst_keeps | with_reducible refine of_fst (by assumption) ?_ | (intro _; intros) | split | (simp only [])

theorem execGtStart_keeps (hP : Stable P) (t : Nat) (f : Func) (g : Nat) (s : State) (hs : P (s.tick t)) : NextKeeps P (execGtStart t f g s) := by
  unfold execGtStart
  repeat' first | with_reducible apply next_keeps | with_reducible apply ite_next_keeps | with_reducible assumption | with_reducible apply State.wr_keeps hP | with_reducible apply State.hostWrite_keeps hP | with_reducible apply State.gatherStart_keeps hP | with_reducible apply ite_fst_keeps | with_reducible refine of_fst (by assumption) ?_ | (intro _; intros)

theorem execGatherSchedule_keeps (hP : Stable P) (t g : Nat) (s : State) (hs : P (s.tick t)) : NextKeeps P (execGatherSchedule t g s) := by
  unfold execGatherSchedule
  repeat' first | with_reducible apply next_keeps | with_reducible apply ite_next_keeps | with_reducible assumption | with_reducible apply ite_keeps | with_reducible apply State.gatherStart_keeps hP | with_reducible apply ite_fst_keeps | with_reducible refine of_fst (by assumption) ?_ | (intro _; intros) | split | (simp only []) | with_reducible apply hP.gt

theorem execGatherElementReduce_keeps (hP : Stable P) (t g : Nat) (s : State) (hs : P (s.tick t)) : NextKeeps P (execGatherElementReduce t g s) := by
  unfold execGatherElementReduce
  repeat' first | with_reducible apply next_keeps | with_reducible apply ite_next_keeps | with_reducible assumption | with_reducible apply State.reduce_keeps hP | with_reducible apply ite_fst_keeps | with_reducible refine of_fst (by assumption) ?_ | (intro _; intros) | split | (simp only [])

theorem execHbSend_keeps (hP : Stable P) (t : Nat) (s : State) (hs : P (s.tick t)) : NextKeeps P (execHbSend t s) := by
  unfold execHbSend
  repeat' first | with_reducible apply next_keeps | with_reducible apply ite_next_keeps | with_reducible assumption | with_reducible apply ite_keeps | with_reducible apply State.sendPair_keeps hP | with_reducible apply State.request_keeps hP

theorem execHb_keeps (hP : Stable P) (t path : Nat) (c : HbCell) (s : State) (hs : P (s.tick t)) : NextKeeps P (execHb t path c s) := by
  unfold execHb
  repeat' first | with_reducible apply next_keeps | with_reducible apply ite_next_keeps | with_reducible assumption | with_reducible apply ite_keeps | with_reducible apply State.bump_keeps hP | with_reducible apply State.heartbeat_keeps hP | with_reducible apply State.acceptLane_keeps hP | with_reducible apply State.pairTime_keeps hP

theorem execPathTimeout_keeps (hP : Stable P) (t path : Nat) (s : State) (hs : P (s.tick t)) : NextKeeps P (execPathTimeout t path s) := by
  unfold execPathTimeout
  repeat' first | with_reducible apply next_keeps | with_reducible apply ite_next_keeps | with_reducible assumption | with_reducible apply ite_keeps | with_reducible apply State.put_keeps hP | with_reducible apply State.bump_keeps hP | with_reducible apply State.eventLim_keeps hP | with_reducible apply State.prEvt_keeps hP | with_reducible apply State.pairLoss_keeps hP

theorem execJoinTimeout_keeps (hP : Stable P) (t : Nat) (s : State) (hs : P (s.tick t)) : NextKeeps P (execJoinTimeout t s) := by
  unfold execJoinTimeout
  repeat' first | with_reducible apply next_keeps | with_reducible apply ite_next_keeps | with_reducible assumption | with_reducible apply ite_keeps | with_reducible apply State.startContest_keeps hP | with_reducible apply ite_fst_keeps | with_reducible refine of_fst (by assumption) ?_ | (intro _; intros) | split | (simp only [])

theorem execContestClose_keeps (hP : Stable P) (t : Nat) (s : State) (hs : P (s.tick t)) : NextKeeps P (execContestClose t s) := by
  unfold execContestClose
  repeat' first | with_reducible apply next_keeps | with_reducible apply ite_next_keeps | with_reducible assumption | with_reducible apply ite_keeps | with_reducible apply State.closeContest_keeps hP | with_reducible apply State.clovesNow_keeps hP | with_reducible apply ite_fst_keeps | with_reducible refine of_fst (by assumption) ?_ | (intro _; intros) | split | (simp only [])

theorem execIsolationTimeout_keeps (hP : Stable P) (t : Nat) (s : State) (hs : P (s.tick t)) : NextKeeps P (execIsolationTimeout t s) := by
  unfold execIsolationTimeout
  repeat' first | with_reducible apply next_keeps | with_reducible apply ite_next_keeps | with_reducible assumption | with_reducible apply ite_keeps | with_reducible apply State.startContest_keeps hP

theorem execClovePeriodic_keeps (hP : Stable P) (t : Nat) (s : State) (hs : P (s.tick t)) : NextKeeps P (execClovePeriodic t s) := by
  unfold execClovePeriodic
  repeat' first | with_reducible apply next_keeps | with_reducible apply ite_next_keeps | with_reducible assumption | with_reducible apply ite_keeps | with_reducible apply State.setPair_keeps hP | with_reducible apply State.sendClove_keeps hP

theorem execMirrorRecs_keeps (hP : Stable P) (t : Nat) (c : RecordCell) (s : State) (hs : P (s.tick t)) : NextKeeps P (execMirrorRecs t c s) := by
  unfold execMirrorRecs
  repeat' first | with_reducible apply next_keeps | with_reducible apply ite_next_keeps | with_reducible assumption | with_reducible apply ite_keeps | with_reducible apply State.takeRecords_keeps hP | with_reducible apply State.pairIn_keeps hP | with_reducible apply ite_fst_keeps | (intro _; intros)

theorem execSnapRecs_keeps (hP : Stable P) (t : Nat) (c : RecordCell) (last : Bool) (s : State) (hs : P (s.tick t)) : NextKeeps P (execSnapRecs t c last s) := by
  unfold execSnapRecs
  repeat' first | with_reducible apply next_keeps | with_reducible apply ite_next_keeps | with_reducible assumption | with_reducible apply State.pairIn_keeps hP | with_reducible apply State.takeSnapshot_keeps hP | with_reducible apply ite_fst_keeps | (intro _; intros)

theorem execSwap_keeps (hP : Stable P) (t : Nat) (f : Func) (s : State) (hs : P (s.tick t)) : NextKeeps P (execSwap t f s) := by
  unfold execSwap
  repeat' first | with_reducible apply next_keeps | with_reducible apply ite_next_keeps | with_reducible assumption | with_reducible apply ite_keeps | with_reducible apply State.wr_keeps hP | with_reducible apply State.put_keeps hP | with_reducible apply State.hostWrite_keeps hP | with_reducible apply State.settlePort_keeps hP | with_reducible apply State.setPair_keeps hP | with_reducible apply ite_fst_keeps | with_reducible apply foldl_keeps | with_reducible apply foldl_fst_keeps | (intro _; intros)

theorem execSwapPortsStopped_keeps (hP : Stable P) (t : Nat) (s : State) (hs : P (s.tick t)) : NextKeeps P (execSwapPortsStopped t s) := by
  unfold execSwapPortsStopped
  repeat' first | with_reducible apply next_keeps | with_reducible apply ite_next_keeps | with_reducible assumption | with_reducible apply ite_keeps | with_reducible apply State.sendPair_keeps hP | with_reducible apply State.setPair_keeps hP | with_reducible apply ite_fst_keeps | with_reducible refine of_fst (by assumption) ?_ | (intro _; intros) | split | (simp only [])

theorem execSwapCell_keeps (hP : Stable P) (t epoch : Nat) (c : HandoverCell) (s : State) (hs : P (s.tick t)) : NextKeeps P (execSwapCell t epoch c s) := by
  unfold execSwapCell
  repeat' first | with_reducible apply next_keeps | with_reducible apply ite_next_keeps | with_reducible assumption | with_reducible apply State.pairIn_keeps hP | with_reducible apply State.takeSwap_keeps hP | with_reducible apply ite_fst_keeps | (intro _; intros)

theorem execSourceInputChange_keeps (hP : Stable P) (t src : Nat) (s : State) (hs : P (s.tick t)) : NextKeeps P (execSourceInputChange t src s) := by
  unfold execSourceInputChange
  repeat' first | with_reducible apply next_keeps | with_reducible apply ite_next_keeps | with_reducible assumption | with_reducible apply ite_keeps | with_reducible apply State.inputChange_keeps hP

theorem execIcSetb_keeps (hP : Stable P) (t : Nat) (f : Func) (i v : Nat) (s : State) (hs : P (s.tick t)) : NextKeeps P (execIcSetb t f i v s) := by
  unfold execIcSetb
  repeat' first | with_reducible apply next_keeps | with_reducible apply ite_next_keeps | with_reducible assumption | with_reducible apply State.hostWrite_keeps hP | with_reducible apply State.setPend_keeps hP | with_reducible apply State.eachBit_keeps hP | with_reducible apply ite_fst_keeps | (intro _; intros)

theorem execIcClrb_keeps (hP : Stable P) (t : Nat) (f : Func) (i v : Nat) (s : State) (hs : P (s.tick t)) : NextKeeps P (execIcClrb t f i v s) := by
  unfold execIcClrb
  repeat' first | with_reducible apply next_keeps | with_reducible apply ite_next_keeps | with_reducible assumption | with_reducible apply State.hostWrite_keeps hP | with_reducible apply State.clrPend_keeps hP | with_reducible apply State.eachBit_keeps hP | with_reducible apply ite_fst_keeps | (intro _; intros)

theorem execIcSetn_keeps (hP : Stable P) (t : Nat) (f : Func) (v : Nat) (s : State) (hs : P (s.tick t)) : NextKeeps P (execIcSetn t f v s) := by
  unfold execIcSetn
  repeat' first | with_reducible apply next_keeps | with_reducible apply ite_next_keeps | with_reducible assumption | with_reducible apply ite_keeps | with_reducible apply State.hostWrite_keeps hP | with_reducible apply State.setPend_keeps hP | with_reducible apply ite_fst_keeps | (intro _; intros)

theorem execIcClrn_keeps (hP : Stable P) (t : Nat) (f : Func) (v : Nat) (s : State) (hs : P (s.tick t)) : NextKeeps P (execIcClrn t f v s) := by
  unfold execIcClrn
  repeat' first | with_reducible apply next_keeps | with_reducible apply ite_next_keeps | with_reducible assumption | with_reducible apply ite_keeps | with_reducible apply State.hostWrite_keeps hP | with_reducible apply State.clrPend_keeps hP | with_reducible apply ite_fst_keeps | (intro _; intros)

theorem execIcClaim_keeps (hP : Stable P) (t : Nat) (f : Func) (vec : Nat) (s : State) (hs : P (s.tick t)) : NextKeeps P (execIcClaim t f vec s) := by
  unfold execIcClaim
  repeat' first | with_reducible apply next_keeps | with_reducible apply ite_next_keeps | with_reducible assumption | with_reducible apply State.hostRead_keeps hP | with_reducible apply State.claim_keeps hP | with_reducible apply ite_fst_keeps | with_reducible refine of_fst (by assumption) ?_ | (intro _; intros) | split

theorem execIcComplete_keeps (hP : Stable P) (t : Nat) (f : Func) (vec v : Nat) (s : State) (hs : P (s.tick t)) : NextKeeps P (execIcComplete t f vec v s) := by
  unfold execIcComplete
  repeat' first | with_reducible apply next_keeps | with_reducible apply ite_next_keeps | with_reducible assumption | with_reducible apply State.hostWrite_keeps hP | with_reducible apply State.finish_keeps hP | with_reducible apply ite_fst_keeps | with_reducible refine of_fst (by assumption) ?_ | (intro _; intros) | split

theorem execIcSrc_keeps (hP : Stable P) (t : Nat) (f : Func) (src v : Nat) (s : State) (hs : P (s.tick t)) : NextKeeps P (execIcSrc t f src v s) := by
  unfold execIcSrc
  repeat' first | with_reducible apply next_keeps | with_reducible apply ite_next_keeps | with_reducible assumption | with_reducible apply ite_keeps | with_reducible apply State.hostWrite_keeps hP | with_reducible apply State.writeSrc_keeps hP | with_reducible apply ite_fst_keeps | (intro _; intros)

theorem execIcTcfg_keeps (hP : Stable P) (t : Nat) (f : Func) (vec v : Nat) (s : State) (hs : P (s.tick t)) : NextKeeps P (execIcTcfg t f vec v s) := by
  unfold execIcTcfg
  repeat' first | with_reducible apply next_keeps | with_reducible apply ite_next_keeps | with_reducible assumption | with_reducible apply ite_keeps | with_reducible apply State.wr_keeps hP | with_reducible apply State.put_keeps hP | with_reducible apply State.hostWrite_keeps hP | with_reducible apply State.setWindow_keeps hP | with_reducible apply State.rearm_keeps hP | with_reducible apply ite_fst_keeps | with_reducible refine of_fst (by assumption) ?_ | (intro _; intros) | split

theorem execCoalesceTimeout_keeps (hP : Stable P) (t tgt : Nat) (s : State) (hs : P (s.tick t)) : NextKeeps P (execCoalesceTimeout t tgt s) := by
  unfold execCoalesceTimeout
  repeat' first | with_reducible apply next_keeps | with_reducible apply ite_next_keeps | with_reducible assumption | with_reducible apply ite_keeps | with_reducible apply State.setWindow_keeps hP | with_reducible apply State.release_keeps hP | with_reducible apply ite_fst_keeps | with_reducible refine of_fst (by assumption) ?_ | (intro _; intros) | split | (simp only [])

theorem execHoldEnd_keeps (hP : Stable P) (t tgt : Nat) (h : HoldEnd) (s : State) (hs : P (s.tick t)) : NextKeeps P (execHoldEnd t tgt h s) := by
  unfold execHoldEnd
  repeat' first | with_reducible apply next_keeps | with_reducible apply ite_next_keeps | with_reducible assumption | with_reducible apply State.put_keeps hP | with_reducible apply State.setLink_keeps hP | with_reducible apply State.setFunc_keeps hP | with_reducible apply State.judge_keeps hP | with_reducible apply State.judgeWhere_keeps hP | with_reducible apply State.resumeFunc_keeps hP | with_reducible apply ite_fst_keeps | with_reducible apply foldl_keeps | with_reducible apply foldl_fst_keeps | with_reducible refine of_fst (by assumption) ?_ | (intro _; intros) | split | (simp only [])

theorem execFaultEvent_keeps (hP : Stable P) (t src detail : Nat) (s : State) (hs : P (s.tick t)) : NextKeeps P (execFaultEvent t src detail s) := by
  unfold execFaultEvent
  repeat' first | with_reducible apply next_keeps | with_reducible apply ite_next_keeps | with_reducible assumption | with_reducible apply ite_keeps | with_reducible apply State.queueReset_keeps hP | with_reducible apply State.settleFaults_keeps hP | with_reducible apply State.faultAssert_keeps hP | with_reducible apply State.netFail_keeps hP

theorem execRailFault_keeps (hP : Stable P) (t src : Nat) (s : State) (hs : P (s.tick t)) : NextKeeps P (execRailFault t src s) := by
  unfold execRailFault
  repeat' first | with_reducible apply next_keeps | with_reducible apply ite_next_keeps | with_reducible assumption | with_reducible apply ite_keeps | with_reducible apply State.wrA_keeps hP | with_reducible apply State.railEvent_keeps hP

theorem execCauseExpiry_keeps (hP : Stable P) (t src : Nat) (s : State) (hs : P (s.tick t)) : NextKeeps P (execCauseExpiry t src s) := by
  unfold execCauseExpiry
  repeat' first | with_reducible apply next_keeps | with_reducible apply ite_next_keeps | with_reducible assumption | with_reducible apply ite_keeps | with_reducible apply State.wrA_keeps hP

theorem execFcRec0_keeps (hP : Stable P) (t : Nat) (f : Func) (s : State) (hs : P (s.tick t)) : NextKeeps P (execFcRec0 t f s) := by
  unfold execFcRec0
  repeat' first | with_reducible apply next_keeps | with_reducible apply ite_next_keeps | with_reducible assumption | with_reducible apply State.hostRead_keeps hP | with_reducible apply State.popRec_keeps hP | with_reducible apply ite_fst_keeps | (intro _; intros)

theorem execFcGclr_keeps (hP : Stable P) (t : Nat) (f : Func) (g v : Nat) (s : State) (hs : P (s.tick t)) : NextKeeps P (execFcGclr t f g v s) := by
  unfold execFcGclr
  repeat' first | with_reducible apply next_keeps | with_reducible apply ite_next_keeps | with_reducible assumption | with_reducible apply ite_keeps | with_reducible apply State.hostWrite_keeps hP | with_reducible apply State.clearGroup_keeps hP | with_reducible apply ite_fst_keeps | (intro _; intros)

theorem execFaultTest_keeps (hP : Stable P) (t : Nat) (f : Func) (g : Nat) (on : Bool) (s : State) (hs : P (s.tick t)) : NextKeeps P (execFaultTest t f g on s) := by
  unfold execFaultTest
  repeat' first | with_reducible apply next_keeps | with_reducible apply ite_next_keeps | with_reducible assumption | with_reducible apply ite_keeps | with_reducible apply State.wrA_keeps hP | with_reducible apply State.hostWrite_keeps hP | with_reducible apply State.faultAssert_keeps hP | with_reducible apply ite_fst_keeps | (intro _; intros)

theorem execDomainOff_keeps (hP : Stable P) (t : Nat) (f : Func) (d : Nat) (s : State) (hs : P (s.tick t)) : NextKeeps P (execDomainOff t f d s) := by
  unfold execDomainOff
  repeat' first | with_reducible apply next_keeps | with_reducible apply ite_next_keeps | with_reducible assumption | with_reducible apply State.pwrCmd_keeps hP | with_reducible apply State.domCmd_keeps hP | with_reducible apply ite_fst_keeps | (intro _; intros)

theorem execDomainOn_keeps (hP : Stable P) (t : Nat) (f : Func) (d : Nat) (s : State) (hs : P (s.tick t)) : NextKeeps P (execDomainOn t f d s) := by
  unfold execDomainOn
  repeat' first | with_reducible apply next_keeps | with_reducible apply ite_next_keeps | with_reducible assumption | with_reducible apply State.pwrCmd_keeps hP | with_reducible apply State.domCmd_keeps hP | with_reducible apply ite_fst_keeps | (intro _; intros)

theorem execDomainOffDone_keeps (hP : Stable P) (t d : Nat) (s : State) (hs : P (s.tick t)) : NextKeeps P (execDomainOffDone t d s) := by
  unfold execDomainOffDone
  repeat' first | with_reducible apply next_keeps | with_reducible apply ite_next_keeps | with_reducible assumption | with_reducible apply State.bump_keeps hP | with_reducible apply State.pwrDone_keeps hP | with_reducible apply State.domDown_keeps hP | with_reducible apply State.endSwitch_keeps hP | with_reducible apply ite_fst_keeps | with_reducible refine of_fst (by assumption) ?_ | (intro _; intros) | split | (simp only [])

theorem execDomainOnDone_keeps (hP : Stable P) (t d : Nat) (good : Bool) (s : State) (hs : P (s.tick t)) : NextKeeps P (execDomainOnDone t d good s) := by
  unfold execDomainOnDone
  repeat' first | with_reducible apply next_keeps | with_reducible apply ite_next_keeps | with_reducible assumption | with_reducible apply ite_keeps | with_reducible apply State.bump_keeps hP | with_reducible apply State.pwrDone_keeps hP | with_reducible apply State.domUp_keeps hP | with_reducible apply State.endSwitch_keeps hP | with_reducible apply ite_fst_keeps | with_reducible refine of_fst (by assumption) ?_ | (intro _; intros) | split | (simp only [])

theorem execSetOp_keeps (hP : Stable P) (t : Nat) (f : Func) (o : Nat) (s : State) (hs : P (s.tick t)) : NextKeeps P (execSetOp t f o s) := by
  unfold execSetOp
  repeat' first | with_reducible apply next_keeps | with_reducible apply ite_next_keeps | with_reducible assumption | with_reducible apply ite_keeps | with_reducible apply State.pwrDone_keeps hP | with_reducible apply State.pwrCmd_keeps hP | with_reducible apply State.setOp_keeps hP | with_reducible apply ite_fst_keeps | (intro _; intros)

theorem execSlewSettled_keeps (hP : Stable P) (t : Nat) (s : State) (hs : P (s.tick t)) : NextKeeps P (execSlewSettled t s) := by
  unfold execSlewSettled
  repeat' first | with_reducible apply next_keeps | with_reducible apply ite_next_keeps | with_reducible assumption | with_reducible apply ite_keeps | with_reducible apply State.wr_keeps hP | with_reducible apply State.put_keeps hP | with_reducible apply State.event_keeps hP | with_reducible apply State.refreshEst_keeps hP

theorem execPaceSample_keeps (hP : Stable P) (t ps tj : Nat) (s : State) (hs : P (s.tick t)) : NextKeeps P (execPaceSample t ps tj s) := by
  unfold execPaceSample
  repeat' first | with_reducible apply next_keeps | with_reducible apply ite_next_keeps | with_reducible assumption | with_reducible apply ite_keeps | with_reducible apply State.wrA_keeps hP | with_reducible apply State.wr_keeps hP | with_reducible apply State.note_keeps hP | with_reducible apply State.faultAssert_keeps hP | with_reducible apply State.refreshEst_keeps hP | with_reducible apply ite_fst_keeps | (intro _; intros) | with_reducible apply hP.pm

theorem execPaceCal_keeps (hP : Stable P) (t : Nat) (f : Func) (s : State) (hs : P (s.tick t)) : NextKeeps P (execPaceCal t f s) := by
  unfold execPaceCal
  repeat' first | with_reducible apply next_keeps | with_reducible apply ite_next_keeps | with_reducible assumption | with_reducible apply ite_keeps | with_reducible apply State.put_keeps hP | with_reducible apply State.pwrDone_keeps hP | with_reducible apply State.pwrCmd_keeps hP | with_reducible apply ite_fst_keeps | (intro _; intros) | with_reducible apply hP.pm

theorem execPaceCalDone_keeps (hP : Stable P) (t factor : Nat) (s : State) (hs : P (s.tick t)) : NextKeeps P (execPaceCalDone t factor s) := by
  unfold execPaceCalDone
  repeat' first | with_reducible apply next_keeps | with_reducible apply ite_next_keeps | with_reducible assumption | with_reducible apply ite_keeps | with_reducible apply State.wrA_keeps hP | with_reducible apply State.put_keeps hP | with_reducible apply State.pwrDone_keeps hP | with_reducible apply State.refreshEst_keeps hP | with_reducible apply ite_fst_keeps | with_reducible refine of_fst (by assumption) ?_ | (intro _; intros) | split | (simp only []) | with_reducible apply hP.pm

theorem execSleep_keeps (hP : Stable P) (t : Nat) (f : Func) (p : Nat) (s : State) (hs : P (s.tick t)) : NextKeeps P (execSleep t f p s) := by
  unfold execSleep
  repeat' first | with_reducible apply next_keeps | with_reducible apply ite_next_keeps | with_reducible assumption | with_reducible apply ite_keeps | with_reducible apply State.startAnise_keeps hP | with_reducible apply State.portPwr_keeps hP | with_reducible apply ite_fst_keeps | (intro _; intros)

theorem execWake_keeps (hP : Stable P) (t : Nat) (f : Func) (p : Nat) (s : State) (hs : P (s.tick t)) : NextKeeps P (execWake t f p s) := by
  unfold execWake
  repeat' first | with_reducible apply next_keeps | with_reducible apply ite_next_keeps | with_reducible assumption | with_reducible apply ite_keeps | with_reducible apply State.wrA_keeps hP | with_reducible apply State.wakePort_keeps hP | with_reducible apply State.portPwr_keeps hP | with_reducible apply ite_fst_keeps | (intro _; intros)

theorem execVetoSet_keeps (hP : Stable P) (t : Nat) (f : Func) (p : Nat) (s : State) (hs : P (s.tick t)) : NextKeeps P (execVetoSet t f p s) := by
  unfold execVetoSet
  repeat' first | with_reducible apply next_keeps | with_reducible apply ite_next_keeps | with_reducible assumption | with_reducible apply State.portPwr_keeps hP | with_reducible apply State.setVeto_keeps hP | with_reducible apply ite_fst_keeps | (intro _; intros)

theorem execVetoClr_keeps (hP : Stable P) (t : Nat) (f : Func) (p : Nat) (s : State) (hs : P (s.tick t)) : NextKeeps P (execVetoClr t f p s) := by
  unfold execVetoClr
  repeat' first | with_reducible apply next_keeps | with_reducible apply ite_next_keeps | with_reducible assumption | with_reducible apply State.portPwr_keeps hP | with_reducible apply State.setVeto_keeps hP | with_reducible apply ite_fst_keeps | (intro _; intros)

theorem execWakeAck_keeps (hP : Stable P) (t : Nat) (f : Func) (p : Nat) (s : State) (hs : P (s.tick t)) : NextKeeps P (execWakeAck t f p s) := by
  unfold execWakeAck
  repeat' first | with_reducible apply next_keeps | with_reducible apply ite_next_keeps | with_reducible assumption | with_reducible apply ite_keeps | with_reducible apply State.wakeHanded_keeps hP | with_reducible apply State.portPwr_keeps hP | with_reducible apply ite_fst_keeps | (intro _; intros)

theorem execFabricWake_keeps (hP : Stable P) (t : Nat) (f : Func) (s : State) (hs : P (s.tick t)) : NextKeeps P (execFabricWake t f s) := by
  unfold execFabricWake
  repeat' first | with_reducible apply next_keeps | with_reducible apply ite_next_keeps | with_reducible assumption | with_reducible apply ite_keeps | with_reducible apply State.pwrDone_keeps hP | with_reducible apply State.pwrCmd_keeps hP | with_reducible apply State.leaveFabricSleep_keeps hP | with_reducible apply ite_fst_keeps | (intro _; intros)

theorem execAniseWindowTimeout_keeps (hP : Stable P) (t p : Nat) (s : State) (hs : P (s.tick t)) : NextKeeps P (execAniseWindowTimeout t p s) := by
  unfold execAniseWindowTimeout
  repeat' first | with_reducible apply next_keeps | with_reducible apply ite_next_keeps | with_reducible assumption | with_reducible apply ite_keeps | with_reducible apply State.endRound_keeps hP | with_reducible apply State.withdrawDev_keeps hP | with_reducible apply State.settleFaults_keeps hP | with_reducible apply ite_fst_keeps | with_reducible refine of_fst (by assumption) ?_ | (intro _; intros) | split

theorem execAniseSleepEntry_keeps (hP : Stable P) (t p : Nat) (s : State) (hs : P (s.tick t)) : NextKeeps P (execAniseSleepEntry t p s) := by
  unfold execAniseSleepEntry
  repeat' first | with_reducible apply next_keeps | with_reducible apply ite_next_keeps | with_reducible assumption | with_reducible apply ite_keeps | with_reducible apply State.wrA_keeps hP | with_reducible apply State.setAn_keeps hP | with_reducible apply State.endRound_keeps hP | with_reducible apply State.portReturns_keeps hP | with_reducible apply State.setFstate_keeps hP | with_reducible apply State.settlePort_keeps hP | with_reducible apply State.settleFaults_keeps hP

theorem execWakeAnswerTimeout_keeps (hP : Stable P) (t p : Nat) (s : State) (hs : P (s.tick t)) : NextKeeps P (execWakeAnswerTimeout t p s) := by
  unfold execWakeAnswerTimeout
  repeat' first | with_reducible apply next_keeps | with_reducible apply ite_next_keeps | with_reducible assumption | with_reducible apply ite_keeps | with_reducible apply State.wrA_keeps hP | with_reducible apply State.bump_keeps hP | with_reducible apply State.wakeEvent_keeps hP

theorem execSessionOpen_keeps (hP : Stable P) (t : Nat) (f : Func) (force : Bool) (s : State) (hs : P (s.tick t)) : NextKeeps P (execSessionOpen t f force s) := by
  unfold execSessionOpen
  repeat' first | with_reducible apply next_keeps | with_reducible apply ite_next_keeps | with_reducible assumption | with_reducible apply ite_keeps | with_reducible apply State.put_keeps hP | with_reducible apply State.cuDone_keeps hP | with_reducible apply State.cuCmd_keeps hP | with_reducible apply State.beginErase_keeps hP | with_reducible apply ite_fst_keeps | (intro _; intros)

theorem execEraseDone_keeps (hP : Stable P) (t : Nat) (s : State) (hs : P (s.tick t)) : NextKeeps P (execEraseDone t s) := by
  unfold execEraseDone
  repeat' first | with_reducible apply next_keeps | with_reducible apply ite_next_keeps | with_reducible assumption | with_reducible apply ite_keeps | with_reducible apply State.setNvm_keeps hP | with_reducible apply State.setCu_keeps hP | with_reducible apply State.cuDone_keeps hP | with_reducible apply ite_fst_keeps | (intro _; intros) | rfl

theorem execWindowWrite_keeps (hP : Stable P) (t : Nat) (f : Func) (off : Nat) (data : List Nat) (s : State) (hs : P (s.tick t)) : NextKeeps P (execWindowWrite t f off data s) := by
  unfold execWindowWrite
  repeat' first | with_reducible apply next_keeps | with_reducible apply ite_next_keeps | with_reducible assumption | with_reducible apply ite_keeps | with_reducible apply State.refuse_keeps hP | with_reducible apply State.programAll_keeps hP | with_reducible apply State.xferRej_keeps hP | with_reducible apply ite_fst_keeps | with_reducible refine of_fst (by assumption) ?_ | (intro _; intros) | split

theorem execPullGo_keeps (hP : Stable P) (t : Nat) (f : Func) (s : State) (hs : P (s.tick t)) : NextKeeps P (execPullGo t f s) := by
  unfold execPullGo
  repeat' first | with_reducible apply next_keeps | with_reducible apply ite_next_keeps | with_reducible assumption | with_reducible apply ite_keeps | with_reducible apply State.wr_keeps hP | with_reducible apply State.put_keeps hP | with_reducible apply State.setCu_keeps hP | with_reducible apply State.hostWriteOr_keeps hP | with_reducible apply State.pushPull_keeps hP | with_reducible apply State.xferEvent_keeps hP | with_reducible apply State.xferRej_keeps hP | with_reducible apply State.pullDone_keeps hP | with_reducible apply ite_fst_keeps | (intro _; intros) | rfl

theorem execPullDone_keeps (hP : Stable P) (t link tag : Nat) (r : ReadResult) (s : State) (hs : P (s.tick t)) : NextKeeps P (execPullDone t link tag r s) := by
  unfold execPullDone
  repeat' first | with_reducible apply next_keeps | with_reducible apply ite_next_keeps | with_reducible assumption | with_reducible apply ite_keeps | with_reducible apply State.endRead_keeps hP | with_reducible apply State.pullRead_keeps hP | with_reducible apply ite_fst_keeps | with_reducible refine of_fst (by assumption) ?_ | (intro _; intros) | split | (simp only [])

theorem execSessionClose_keeps (hP : Stable P) (t : Nat) (f : Func) (s : State) (hs : P (s.tick t)) : NextKeeps P (execSessionClose t f s) := by
  unfold execSessionClose
  repeat' first | with_reducible apply next_keeps | with_reducible apply ite_next_keeps | with_reducible assumption | with_reducible apply ite_keeps | with_reducible apply State.complete_keeps hP | with_reducible apply State.setNvm_keeps hP | with_reducible apply State.cuDone_keeps hP | with_reducible apply State.cuCmd_keeps hP | with_reducible apply State.xferEvent_keeps hP | with_reducible apply State.endSession_keeps hP | with_reducible apply State.noSession_keeps hP | with_reducible apply ite_fst_keeps | (intro _; intros)

theorem execSessionAbort_keeps (hP : Stable P) (t : Nat) (f : Func) (s : State) (hs : P (s.tick t)) : NextKeeps P (execSessionAbort t f s) := by
  unfold execSessionAbort
  repeat' first | with_reducible apply next_keeps | with_reducible apply ite_next_keeps | with_reducible assumption | with_reducible apply ite_keeps | with_reducible apply State.cuDone_keeps hP | with_reducible apply State.cuCmd_keeps hP | with_reducible apply State.abortSession_keeps hP | with_reducible apply State.noSession_keeps hP | with_reducible apply ite_fst_keeps | (intro _; intros)

theorem execActivate_keeps (hP : Stable P) (t : Nat) (f : Func) (s : State) (hs : P (s.tick t)) : NextKeeps P (execActivate t f s) := by
  unfold execActivate
  repeat' first | with_reducible apply next_keeps | with_reducible apply ite_next_keeps | with_reducible assumption | with_reducible apply ite_keeps | with_reducible apply State.wr_keeps hP | with_reducible apply State.put_keeps hP | with_reducible apply State.cuDone_keeps hP | with_reducible apply State.cuCmd_keeps hP | with_reducible apply ite_fst_keeps | (intro _; intros)

theorem execActivateCold_keeps (hP : Stable P) (t : Nat) (f : Func) (s : State) (hs : P (s.tick t)) : NextKeeps P (execActivateCold t f s) := by
  unfold execActivateCold
  repeat' first | with_reducible apply next_keeps | with_reducible apply ite_next_keeps | with_reducible assumption | with_reducible apply ite_keeps | with_reducible apply State.wr_keeps hP | with_reducible apply State.put_keeps hP | with_reducible apply State.setCu_keeps hP | with_reducible apply State.cuDone_keeps hP | with_reducible apply State.cuCmd_keeps hP | with_reducible apply ite_fst_keeps | (intro _; intros) | rfl

theorem execRollfwd_keeps (hP : Stable P) (t : Nat) (f : Func) (s : State) (hs : P (s.tick t)) : NextKeeps P (execRollfwd t f s) := by
  unfold execRollfwd
  repeat' first | with_reducible apply next_keeps | with_reducible apply ite_next_keeps | with_reducible assumption | with_reducible apply ite_keeps | with_reducible apply State.put_keeps hP | with_reducible apply State.setCu_keeps hP | with_reducible apply State.cuDone_keeps hP | with_reducible apply State.cuCmd_keeps hP | with_reducible apply ite_fst_keeps | (intro _; intros) | rfl

theorem execCheckDone_keeps (hP : Stable P) (t : Nat) (nvm : Bool) (s : State) (hs : P (s.tick t)) : NextKeeps P (execCheckDone t nvm s) := by
  unfold execCheckDone
  repeat' first | with_reducible apply next_keeps | with_reducible apply ite_next_keeps | with_reducible assumption | with_reducible apply ite_keeps | with_reducible apply State.wr_keeps hP | with_reducible apply State.setCu_keeps hP | with_reducible apply State.failRound_keeps hP | with_reducible apply State.cuDone_keeps hP | with_reducible apply State.noteCheck_keeps hP | with_reducible apply State.checkEvent_keeps hP | with_reducible apply State.gapEvent_keeps hP | with_reducible apply ite_fst_keeps | with_reducible apply foldl_keeps | with_reducible apply foldl_fst_keeps | with_reducible refine of_fst (by assumption) ?_ | (intro _; intros) | split | (simp only [])

theorem execGapEnd_keeps (hP : Stable P) (t : Nat) (s : State) (hs : P (s.tick t)) : NextKeeps P (execGapEnd t s) := by
  unfold execGapEnd
  repeat' first | with_reducible apply next_keeps | with_reducible apply ite_next_keeps | with_reducible assumption | with_reducible apply ite_keeps | with_reducible apply State.wr_keeps hP | with_reducible apply State.bump_keeps hP | with_reducible apply State.setCu_keeps hP | with_reducible apply State.tapEnd_keeps hP | with_reducible apply State.judgeWhere_keeps hP | with_reducible apply State.record_keeps hP | with_reducible apply State.settleFaults_keeps hP | with_reducible apply State.drainLink_keeps hP | with_reducible apply State.cuDone_keeps hP | with_reducible apply State.checkEvent_keeps hP | with_reducible apply State.gapEvent_keeps hP | with_reducible apply State.releaseSp_keeps hP | with_reducible apply State.activate_keeps hP | with_reducible apply State.releasePort_keeps hP | with_reducible apply State.releaseRing_keeps hP | with_reducible apply ite_fst_keeps | with_reducible apply foldl_keeps | with_reducible apply foldl_fst_keeps | with_reducible refine of_fst (by assumption) ?_ | (intro _; intros) | split | (simp only [])

theorem execPerst_keeps (hP : Stable P) (t link : Nat) (high : Bool) (s : State) (hs : P (s.tick t)) : NextKeeps P (execPerst t link high s) := by
  unfold execPerst
  repeat' first | with_reducible apply next_keeps | with_reducible apply ite_next_keeps | with_reducible assumption | with_reducible apply ite_keeps | with_reducible apply State.setLink_keeps hP | with_reducible apply State.resetLink_keeps hP

theorem execTapReset_keeps (hP : Stable P) (t : Nat) (s : State) (hs : P (s.tick t)) : NextKeeps P (execTapReset t s) := by
  unfold execTapReset
  repeat' first | with_reducible apply next_keeps | with_reducible apply ite_next_keeps | with_reducible assumption | with_reducible apply State.tapLoad_keeps hP

theorem execIdcode_keeps (hP : Stable P) (t : Nat) (s : State) (hs : P (s.tick t)) : NextKeeps P (execIdcode t s) := by
  unfold execIdcode
  repeat' first | with_reducible apply next_keeps | with_reducible apply ite_next_keeps | with_reducible assumption | with_reducible apply State.emit_keeps hP | with_reducible apply State.tapLoad_keeps hP

theorem execSamplePreload_keeps (hP : Stable P) (t : Nat) (s : State) (hs : P (s.tick t)) : NextKeeps P (execSamplePreload t s) := by
  unfold execSamplePreload
  repeat' first | with_reducible apply next_keeps | with_reducible apply ite_next_keeps | with_reducible assumption | with_reducible apply State.draw_keeps hP | with_reducible apply State.emit_keeps hP | with_reducible apply State.tapLoad_keeps hP

theorem execExtest_keeps (hP : Stable P) (t : Nat) (s : State) (hs : P (s.tick t)) : NextKeeps P (execExtest t s) := by
  unfold execExtest
  repeat' first | with_reducible apply next_keeps | with_reducible apply ite_next_keeps | with_reducible assumption | with_reducible apply State.tapLoad_keeps hP

theorem execExtestPulse_keeps (hP : Stable P) (t : Nat) (s : State) (hs : P (s.tick t)) : NextKeeps P (execExtestPulse t s) := by
  unfold execExtestPulse
  repeat' first | with_reducible apply next_keeps | with_reducible apply ite_next_keeps | with_reducible assumption | with_reducible apply State.tapLoad_keeps hP

theorem execExtestTrain_keeps (hP : Stable P) (t : Nat) (s : State) (hs : P (s.tick t)) : NextKeeps P (execExtestTrain t s) := by
  unfold execExtestTrain
  repeat' first | with_reducible apply next_keeps | with_reducible apply ite_next_keeps | with_reducible assumption | with_reducible apply State.tapLoad_keeps hP

theorem execClampPins_keeps (hP : Stable P) (t : Nat) (s : State) (hs : P (s.tick t)) : NextKeeps P (execClampPins t s) := by
  unfold execClampPins
  repeat' first | with_reducible apply next_keeps | with_reducible apply ite_next_keeps | with_reducible assumption | with_reducible apply State.tapLoad_keeps hP

theorem execHighz_keeps (hP : Stable P) (t : Nat) (s : State) (hs : P (s.tick t)) : NextKeeps P (execHighz t s) := by
  unfold execHighz
  repeat' first | with_reducible apply next_keeps | with_reducible apply ite_next_keeps | with_reducible assumption | with_reducible apply State.tapLoad_keeps hP

theorem execBypass_keeps (hP : Stable P) (t : Nat) (s : State) (hs : P (s.tick t)) : NextKeeps P (execBypass t s) := by
  unfold execBypass
  repeat' first | with_reducible apply next_keeps | with_reducible apply ite_next_keeps | with_reducible assumption | with_reducible apply State.tapLoad_keeps hP

theorem execTermArmDisconnect_keeps (hP : Stable P) (t p arm : Nat) (s : State) (hs : P (s.tick t)) : NextKeeps P (execTermArmDisconnect t p arm s) := by
  unfold execTermArmDisconnect
  repeat' first | with_reducible apply next_keeps | with_reducible apply ite_next_keeps | with_reducible assumption | with_reducible apply ite_keeps | with_reducible apply State.setPort_keeps hP | with_reducible apply State.faultAssert_keeps hP

theorem execTermArmReconnect_keeps (hP : Stable P) (t p arm : Nat) (s : State) (hs : P (s.tick t)) : NextKeeps P (execTermArmReconnect t p arm s) := by
  unfold execTermArmReconnect
  repeat' first | with_reducible apply next_keeps | with_reducible apply ite_next_keeps | with_reducible assumption | with_reducible apply State.setPort_keeps hP

theorem execThermalShutdown_keeps (hP : Stable P) (t p : Nat) (s : State) (hs : P (s.tick t)) : NextKeeps P (execThermalShutdown t p s) := by
  unfold execThermalShutdown
  repeat' first | with_reducible apply next_keeps | with_reducible apply ite_next_keeps | with_reducible assumption | with_reducible apply ite_keeps | with_reducible apply State.setPort_keeps hP | with_reducible apply State.faultAssert_keeps hP

theorem execNakRepeat_keeps (hP : Stable P) (t port : Nat) (s : State) (hs : P (s.tick t)) : NextKeeps P (execNakRepeat t port s) := by
  unfold execNakRepeat
  repeat' first | with_reducible apply next_keeps | with_reducible apply ite_next_keeps | with_reducible assumption | with_reducible apply ite_keeps | with_reducible apply State.setLp_keeps hP | with_reducible apply State.say_keeps hP | with_reducible apply ite_fst_keeps | with_reducible refine of_fst (by assumption) ?_ | (intro _; intros) | split | (simp only [])

theorem execLevelCauseEnd_keeps (hP : Stable P) (t src : Nat) (s : State) (hs : P (s.tick t)) : NextKeeps P (execLevelCauseEnd t src s) := by
  unfold execLevelCauseEnd
  repeat' first | with_reducible apply next_keeps | with_reducible apply ite_next_keeps | with_reducible assumption | with_reducible apply ite_keeps | with_reducible apply State.setPort_keeps hP | with_reducible apply State.levelEnd_keeps hP | with_reducible apply State.handWaiting_keeps hP

theorem execMaceNetRailEqual_keeps (hP : Stable P) (t g : Nat) (eq : Bool) (s : State) (hs : P (s.tick t)) : NextKeeps P (execMaceNetRailEqual t g eq s) := by
  unfold execMaceNetRailEqual
  repeat' first | with_reducible apply next_keeps | with_reducible apply ite_next_keeps | with_reducible assumption | with_reducible apply ite_keeps | with_reducible apply State.wrA_keeps hP | with_reducible apply State.faultAssert_keeps hP | with_reducible apply State.netFail_keeps hP

theorem execThermalRecovery_keeps (hP : Stable P) (t p : Nat) (s : State) (hs : P (s.tick t)) : NextKeeps P (execThermalRecovery t p s) := by
  unfold execThermalRecovery
  repeat' first | with_reducible apply next_keeps | with_reducible apply ite_next_keeps | with_reducible assumption | with_reducible apply ite_keeps | with_reducible apply State.setPort_keeps hP | with_reducible apply State.levelEnd_keeps hP

theorem execFrameStoreScrub_keeps (hP : Stable P) (t frame : Nat) (bad : Bool) (s : State) (hs : P (s.tick t)) : NextKeeps P (execFrameStoreScrub t frame bad s) := by
  unfold execFrameStoreScrub
  repeat' first | with_reducible apply next_keeps | with_reducible apply ite_next_keeps | with_reducible assumption | with_reducible apply ite_keeps | with_reducible apply State.bump_keeps hP | with_reducible apply State.faultAssert_keeps hP | with_reducible apply State.purge_keeps hP

theorem execLeaseRecordPeriodic_keeps (hP : Stable P) (t : Nat) (s : State) (hs : P (s.tick t)) : NextKeeps P (execLeaseRecordPeriodic t s) := by
  unfold execLeaseRecordPeriodic
  repeat' first | with_reducible apply next_keeps | with_reducible apply ite_next_keeps | with_reducible assumption | with_reducible apply ite_keeps | with_reducible apply State.noteLease_keeps hP | with_reducible apply ite_fst_keeps | with_reducible apply foldl_keeps | with_reducible apply foldl_fst_keeps | (intro _; intros)

theorem execPostedCreditReturn_keeps (hP : Stable P) (t link n : Nat) (s : State) (hs : P (s.tick t)) : NextKeeps P (execPostedCreditReturn t link n s) := by
  unfold execPostedCreditReturn
  repeat' first | with_reducible apply next_keeps | with_reducible apply ite_next_keeps | with_reducible assumption | with_reducible apply State.setLink_keeps hP | with_reducible apply State.drainLink_keeps hP

theorem powerRow_keeps (hP : Stable P) (t : Nat) (f : Func) (v : Nat) (s : State) (hs : P (s.tick t))
    (o : Host.Outcome State Fault Refusal) (ho : powerRow t f v s = some o) : NextKeeps P o := by
  unfold powerRow at ho
  simp only [] at ho
  repeat' split at ho
  all_goals first
    | (cases ho; done)
    | (obtain ⟨k, -, rfl⟩ := Option.map_eq_some_iff.1 ho)
    | (cases ho)
    | skip
  all_goals first
    | with_reducible apply execDomainOff_keeps hP | with_reducible apply execDomainOn_keeps hP | with_reducible apply execFabricWake_keeps hP | with_reducible apply execPaceCal_keeps hP | with_reducible apply execSetOp_keeps hP | with_reducible apply execSleep_keeps hP | with_reducible apply execVetoClr_keeps hP | with_reducible apply execVetoSet_keeps hP | with_reducible apply execWake_keeps hP | with_reducible apply execWakeAck_keeps hP
    | skip
  all_goals first | assumption | skip

theorem imageRow_keeps (hP : Stable P) (t : Nat) (f : Func) (v : Nat) (s : State) (hs : P (s.tick t))
    (o : Host.Outcome State Fault Refusal) (ho : imageRow t f v s = some o) : NextKeeps P o := by
  unfold imageRow at ho
  repeat' split at ho
  all_goals first
    | (cases ho; done)
    | (obtain ⟨k, -, rfl⟩ := Option.map_eq_some_iff.1 ho)
    | (cases ho)
    | skip
  all_goals first
    | with_reducible apply execActivate_keeps hP | with_reducible apply execActivateCold_keeps hP | with_reducible apply execRollfwd_keeps hP | with_reducible apply execSessionAbort_keeps hP | with_reducible apply execSessionClose_keeps hP | with_reducible apply execSessionOpen_keeps hP
    | skip
  all_goals first | assumption | skip

theorem irqRow_keeps (hP : Stable P) (t : Nat) (f : Func) (l : Loc) (v : Nat) (s : State) (hs : P (s.tick t))
    (o : Host.Outcome State Fault Refusal) (ho : irqRow t f l v s = some o) : NextKeeps P o := by
  unfold irqRow at ho
  simp only [] at ho
  generalize (List.range 512).find? _ = vec at ho
  repeat' split at ho
  all_goals first
    | (obtain ⟨k, -, rfl⟩ := Option.map_eq_some_iff.1 ho)
    | (cases ho; done)
    | (cases ho)
    | skip
  all_goals first
    | with_reducible apply execIcClrb_keeps hP | with_reducible apply execIcClrn_keeps hP | with_reducible apply execIcComplete_keeps hP | with_reducible apply execIcSetb_keeps hP | with_reducible apply execIcSetn_keeps hP | with_reducible apply execIcSrc_keeps hP | with_reducible apply execIcTcfg_keeps hP
    | skip
  all_goals first | assumption | skip

theorem portRow_keeps (hP : Stable P) (t : Nat) (f : Func) (l : Loc) (v : Nat) (s : State) (hs : P (s.tick t))
    (o : Host.Outcome State Fault Refusal) (ho : portRow t f l v s = some o) : NextKeeps P o := by
  unfold portRow at ho
  repeat' split at ho
  all_goals first
    | (cases ho; done)
    | (obtain ⟨k, -, rfl⟩ := Option.map_eq_some_iff.1 ho)
    | (cases ho)
    | skip
  all_goals first
    | with_reducible apply execDbCntclr_keeps hP | with_reducible apply execDbOc_keeps hP | with_reducible apply execDbOclr_keeps hP | with_reducible apply execDbOpulse_keeps hP | with_reducible apply execDbOset_keeps hP | with_reducible apply execEnable_keeps hP | with_reducible apply execForget_keeps hP | with_reducible apply execRetrain_keeps hP | with_reducible apply execSpEnable_keeps hP
    | skip
  all_goals first | assumption | skip

theorem rowWrite_keeps (hP : Stable P) (t : Nat) (f : Func) (l : Loc) (v : Nat) (s : State) (hs : P (s.tick t))
    (o : Host.Outcome State Fault Refusal) (ho : rowWrite t f l v s = some o) : NextKeeps P o := by
  unfold rowWrite at ho
  simp only [] at ho
  repeat' split at ho
  all_goals first
    | exact powerRow_keeps hP _ _ _ _ hs _ ho
    | exact imageRow_keeps hP _ _ _ _ hs _ ho
    | exact irqRow_keeps hP _ _ _ _ _ hs _ ho
    | exact portRow_keeps hP _ _ _ _ _ hs _ ho
    | (cases ho; done)
    | (cases ho)
  all_goals first
    | with_reducible apply execAlarmDisarm_keeps hP | with_reducible apply execArm_keeps hP | with_reducible apply execDisarm_keeps hP | with_reducible apply execFaultTest_keeps hP | with_reducible apply execFcGclr_keeps hP | with_reducible apply execGtStart_keeps hP | with_reducible apply execPullGo_keeps hP | with_reducible apply execRemoteGo_keeps hP | with_reducible apply execSleepStart_keeps hP | with_reducible apply execSwap_keeps hP | with_reducible apply execTenSptxD_keeps hP | with_reducible apply execTenSptxGo_keeps hP | with_reducible apply execTenSptxSel_keeps hP | with_reducible apply execTtClr_keeps hP | with_reducible apply execTuAlarm_keeps hP | with_reducible apply execTuSet_keeps hP
    | exact next_keeps (State.bump_keeps hP _ _ _ hs)
    | exact next_keeps (State.wr_keeps hP _ _ _ _ hs)
    | skip
  all_goals first | assumption | skip

theorem State.passWrite_keeps (hP : Stable P) (s : State) (t : Nat) (a : Access) (hs : P (s.tick t)) : NextKeeps P (s.passWrite t a) := by
  unfold State.passWrite
  have hp : NextKeeps P (.next (if (s.tick t).inGap then (s.tick t).bump CU_GAPWR_COUNT 0
      else (s.tick t).writePlace a.f a.val ((s.tick t).place a.f a.off))) :=
    next_keeps (ite_keeps (State.bump_keeps hP _ _ _ hs) (State.writePlace_keeps hP _ _ _ _ hs))
  simp only []
  split
  · exact next_keeps hs
  · refine ite_next_keeps hp ?_
    cases ho : rowWrite t a.f _ a.val s with
    | none => exact hp
    | some o => exact rowWrite_keeps hP _ _ _ _ _ hs _ ho
  · exact hp

theorem execRegisterWrite_keeps (hP : Stable P) (t : Nat) (a : Access) (s : State) (hs : P (s.tick t)) : NextKeeps P (execRegisterWrite t a s) := by
  unfold execRegisterWrite
  simp only []
  refine ite_next_keeps (next_keeps (State.writeConfig_keeps hP _ _ hs)) ?_
  refine ite_next_keeps (next_keeps hs) ?_
  refine ite_next_keeps (next_keeps (State.writeTable_keeps hP _ _ hs)) ?_
  split
  · exact next_keeps (State.refuse_keeps hP _ _ _ hs)
  · exact ite_next_keeps (next_keeps hs) (State.passWrite_keeps hP _ _ _ hs)

/-- Every command but those of a device reset, of a boot and of the end of an OTP write keeps what is stable, from the tick on. -/
theorem exec_keeps (hP : Stable P) (i : Instr) (s : State) (hi : i.special = false) (hs : P (s.tick i.at_)) : NextKeeps P (exec i s) := by
  cases i with
  | registerWrite t a => exact execRegisterWrite_keeps hP t a s hs
  | refusedAccess t a => exact execRefusedAccess_keeps hP t a s hs
  | wideGroupRead t a found => exact execWideGroupRead_keeps hP t a found s hs
  | scrubVisit t blk inst off lo staged found => exact execScrubVisit_keeps hP t blk inst off lo staged found s hs
  | rwiRestore t blk inst off lo => exact execRwiRestore_keeps hP t blk inst off lo s hs
  | boundary t ix => exact execBoundary_keeps hP t ix s hs
  | discard t f ix => exact execDiscard_keeps hP t f ix s hs
  | flr t f => exact execFlr_keeps hP t f s hs
  | vfEnableCleared t link numVfs => exact execVfEnableCleared_keeps hP t link numVfs s hs
  | busMasterEnableCleared t f => exact execBusMasterEnableCleared_keeps hP t f s hs
  | d3hotEntered t link => exact execD3hotEntered_keeps hP t link s hs
  | hotReset t link => exact execHotReset_keeps hP t link s hs
  | functionResetComplete t f => exact execFunctionResetComplete_keeps hP t f s hs
  | completionsResume t f => exact execCompletionsResume_keeps hP t f s hs
  | arm t f k both => exact execArm_keeps hP t f k both s hs
  | disarm t f k both => exact execDisarm_keeps hP t f k both s hs
  | ringDrainEnd t ring => exact execRingDrainEnd_keeps hP t ring s hs
  | doorbell t f k v => exact execDoorbell_keeps hP t f k v s hs
  | fetchRequest t link => exact execFetchRequest_keeps hP t link s hs
  | fetchCompletion t link tag r => exact execFetchCompletion_keeps hP t link tag r s hs
  | completionTimeout t link tag => exact execCompletionTimeout_keeps hP t link tag s hs
  | payloadReadDone t link tag r => exact execPayloadReadDone_keeps hP t link tag r s hs
  | descOpcode t ring => exact execDescOpcode_keeps hP t ring s hs
  | txFrame t ring => exact execTxFrame_keeps hP t ring s hs
  | cancel t ring => exact execCancel_keeps hP t ring s hs
  | alloc t ring => exact execAlloc_keeps hP t ring s hs
  | freeSlot t ring => exact execFreeSlot_keeps hP t ring s hs
  | writeSlot t ring => exact execWriteSlot_keeps hP t ring s hs
  | fence t ring => exact execFence_keeps hP t ring s hs
  | nop t ring => exact execNop_keeps hP t ring s hs
  | headerEvent t p h => exact execHeaderEvent_keeps hP t p h s hs
  | eofEvent t p data => exact execEofEvent_keeps hP t p data s hs
  | recordWrite t link => exact execRecordWrite_keeps hP t link s hs
  | frameTake t p => exact execFrameTake_keeps hP t p s hs
  | arbitrationLost t p => exact execArbitrationLost_keeps hP t p s hs
  | frameError t p e => exact execFrameError_keeps hP t p e s hs
  | overloadFrame t p c => exact execOverloadFrame_keeps hP t p c s hs
  | protocolException t p => exact execProtocolException_keeps hP t p s hs
  | tdcSat t p => exact execTdcSat_keeps hP t p s hs
  | integrationComplete t p => exact execIntegrationComplete_keeps hP t p s hs
  | occurrence t p => exact execOccurrence_keeps hP t p s hs
  | autoClear t p => exact execAutoClear_keeps hP t p s hs
  | recovered t p => exact execRecovered_keeps hP t p s hs
  | txdom t p => exact execTxdom_keeps hP t p s hs
  | busdom t p on => exact execBusdom_keeps hP t p on s hs
  | wakeSignal t p => exact execWakeSignal_keeps hP t p s hs
  | transceiverModeDone t p => exact execTransceiverModeDone_keeps hP t p s hs
  | enable t f p bits => exact execEnable_keeps hP t f p bits s hs
  | disable t f p bits => exact execDisable_keeps hP t f p bits s hs
  | clrBo t f p bits => exact execClrBo_keeps hP t f p bits s hs
  | drainEnd t p => exact execDrainEnd_keeps hP t p s hs
  | drainLimit t p => exact execDrainLimit_keeps hP t p s hs
  | tokens t lease => exact execTokens_keeps hP t lease s hs
  | replyExpiry t p seq => exact execReplyExpiry_keeps hP t p seq s hs
  | queueRebuildDone t p => exact execQueueRebuildDone_keeps hP t p s hs
  | pqHead0 t f p => exact execPqHead0_keeps hP t f p s hs
  | mbOpen t f m => exact execMbOpen_keeps hP t f m s hs
  | mbClose t f m => exact execMbClose_keeps hP t f m s hs
  | mailboxAutoClose t m => exact execMailboxAutoClose_keeps hP t m s hs
  | lowclr t f => exact execLowclr_keeps hP t f s hs
  | syncCell t port c => exact execSyncCell_keeps hP t port c s hs
  | syncSend t => exact execSyncSend_keeps hP t s hs
  | masterTimeout t => exact execMasterTimeout_keeps hP t s hs
  | referenceLoss t => exact execReferenceLoss_keeps hP t s hs
  | holdoverTimeout t => exact execHoldoverTimeout_keeps hP t s hs
  | slewEnd t => exact execSlewEnd_keeps hP t s hs
  | delayMeasure t port => exact execDelayMeasure_keeps hP t port s hs
  | ppsInputLoss t => exact execPpsInputLoss_keeps hP t s hs
  | tuSet t f v => exact execTuSet_keeps hP t f v s hs
  | tuAlarm t f v => exact execTuAlarm_keeps hP t f v s hs
  | alarmDisarm t f => exact execAlarmDisarm_keeps hP t f s hs
  | alarmFire t => exact execAlarmFire_keeps hP t s hs
  | ppsOn t line => exact execPpsOn_keeps hP t line s hs
  | ppsOff t line => exact execPpsOff_keeps hP t line s hs
  | ttCycleStart t p => exact execTtCycleStart_keeps hP t p s hs
  | ttTimeout t p => exact execTtTimeout_keeps hP t p s hs
  | ttClr t f => exact execTtClr_keeps hP t f s hs
  | character t n c => exact execCharacter_keeps hP t n c s hs
  | idleClose t n => exact execIdleClose_keeps hP t n s hs
  | lineBreak t n low => exact execLineBreak_keeps hP t n low s hs
  | tenSptxSel t f v => exact execTenSptxSel_keeps hP t f v s hs
  | tenSptxD t f n v => exact execTenSptxD_keeps hP t f n v s hs
  | tenSptxGo t f => exact execTenSptxGo_keeps hP t f s hs
  | spMessageStart t m => exact execSpMessageStart_keeps hP t m s hs
  | spMessageEnd t n => exact execSpMessageEnd_keeps hP t n s hs
  | spEnable t f n bits => exact execSpEnable_keeps hP t f n bits s hs
  | spDisable t f n bits => exact execSpDisable_keeps hP t f n bits s hs
  | spDrainEnd t n => exact execSpDrainEnd_keeps hP t n s hs
  | spReceiverReady t n => exact execSpReceiverReady_keeps hP t n s hs
  | bankSampleTick t b levels => exact execBankSampleTick_keeps hP t b levels s hs
  | functionSwitchStart t b line => exact execFunctionSwitchStart_keeps hP t b line s hs
  | pulseEnd t b line => exact execPulseEnd_keeps hP t b line s hs
  | fastEdge t b line rise => exact execFastEdge_keeps hP t b line rise s hs
  | dbOset t f b lines => exact execDbOset_keeps hP t f b lines s hs
  | dbOclr t f b lines => exact execDbOclr_keeps hP t f b lines s hs
  | dbOpulse t f b lines => exact execDbOpulse_keeps hP t f b lines s hs
  | dbCntclr t f b lines => exact execDbCntclr_keeps hP t f b lines s hs
  | dbTsf0 t f b => exact execDbTsf0_keeps hP t f b s hs
  | dbOc t f b lines => exact execDbOc_keeps hP t f b lines s hs
  | overcurrent t b line => exact execOvercurrent_keeps hP t b line s hs
  | vfLost t b => exact execVfLost_keeps hP t b s hs
  | vfRet t b => exact execVfRet_keeps hP t b s hs
  | cellReceive t port c => exact execCellReceive_keeps hP t port c s hs
  | cellRead t port c => exact execCellRead_keeps hP t port c s hs
  | mboxWrite t port c => exact execMboxWrite_keeps hP t port c s hs
  | dcmd t port c => exact execDcmd_keeps hP t port c s hs
  | rsp t port c => exact execRsp_keeps hP t port c s hs
  | member t port c => exact execMember_keeps hP t port c s hs
  | memberSend t => exact execMemberSend_keeps hP t s hs
  | memberTimeout t node => exact execMemberTimeout_keeps hP t node s hs
  | consent t port c => exact execConsent_keeps hP t port c s hs
  | commit t port c => exact execCommit_keeps hP t port c s hs
  | delayCell t port c => exact execDelayCell_keeps hP t port c s hs
  | ack t port v => exact execAck_keeps hP t port v s hs
  | nak t port v => exact execNak_keeps hP t port v s hs
  | credit t port vc n => exact execCredit_keeps hP t port vc n s hs
  | ident t port ix v => exact execIdent_keeps hP t port ix v s hs
  | keep t port => exact execKeep_keeps hP t port s hs
  | wrapnote t port v => exact execWrapnote_keeps hP t port v s hs
  | ackTimeout t port => exact execAckTimeout_keeps hP t port s hs
  | linkLoss t port c => exact execLinkLoss_keeps hP t port c s hs
  | blockLockHeld t port => exact execBlockLockHeld_keeps hP t port s hs
  | retryTimerExpiry t port => exact execRetryTimerExpiry_keeps hP t port s hs
  | forget t f port => exact execForget_keeps hP t f port s hs
  | retrain t f port => exact execRetrain_keeps hP t f port s hs
  | remoteGo t f v => exact execRemoteGo_keeps hP t f v s hs
  | requestTimeout t tag => exact execRequestTimeout_keeps hP t tag s hs
  | sleepStart t f => exact execSleepStart_keeps hP t f s hs
  | sleepRoundTimeout t => exact execSleepRoundTimeout_keeps hP t s hs
  | gtStart t f g => exact execGtStart_keeps hP t f g s hs
  | gatherSchedule t g => exact execGatherSchedule_keeps hP t g s hs
  | gatherElementReduce t g => exact execGatherElementReduce_keeps hP t g s hs
  | hbSend t => exact execHbSend_keeps hP t s hs
  | hb t path c => exact execHb_keeps hP t path c s hs
  | pathTimeout t path => exact execPathTimeout_keeps hP t path s hs
  | joinTimeout t => exact execJoinTimeout_keeps hP t s hs
  | contestClose t => exact execContestClose_keeps hP t s hs
  | isolationTimeout t => exact execIsolationTimeout_keeps hP t s hs
  | clovePeriodic t => exact execClovePeriodic_keeps hP t s hs
  | mirrorRecs t c => exact execMirrorRecs_keeps hP t c s hs
  | snapRecs t c last => exact execSnapRecs_keeps hP t c last s hs
  | swap t f => exact execSwap_keeps hP t f s hs
  | swapPortsStopped t => exact execSwapPortsStopped_keeps hP t s hs
  | swapCell t epoch c => exact execSwapCell_keeps hP t epoch c s hs
  | sourceInputChange t src => exact execSourceInputChange_keeps hP t src s hs
  | icSetb t f ix v => exact execIcSetb_keeps hP t f ix v s hs
  | icClrb t f ix v => exact execIcClrb_keeps hP t f ix v s hs
  | icSetn t f v => exact execIcSetn_keeps hP t f v s hs
  | icClrn t f v => exact execIcClrn_keeps hP t f v s hs
  | icClaim t f vec => exact execIcClaim_keeps hP t f vec s hs
  | icComplete t f vec v => exact execIcComplete_keeps hP t f vec v s hs
  | icSrc t f src v => exact execIcSrc_keeps hP t f src v s hs
  | icTcfg t f vec v => exact execIcTcfg_keeps hP t f vec v s hs
  | coalesceTimeout t tgt => exact execCoalesceTimeout_keeps hP t tgt s hs
  | holdEnd t tgt h => exact execHoldEnd_keeps hP t tgt h s hs
  | faultEvent t src detail => exact execFaultEvent_keeps hP t src detail s hs
  | railFault t src => exact execRailFault_keeps hP t src s hs
  | causeExpiry t src => exact execCauseExpiry_keeps hP t src s hs
  | fcRec0 t f => exact execFcRec0_keeps hP t f s hs
  | fcGclr t f g v => exact execFcGclr_keeps hP t f g v s hs
  | faultTest t f g on => exact execFaultTest_keeps hP t f g on s hs
  | domainOff t f d => exact execDomainOff_keeps hP t f d s hs
  | domainOn t f d => exact execDomainOn_keeps hP t f d s hs
  | domainOffDone t d => exact execDomainOffDone_keeps hP t d s hs
  | domainOnDone t d good => exact execDomainOnDone_keeps hP t d good s hs
  | setOp t f o => exact execSetOp_keeps hP t f o s hs
  | slewSettled t => exact execSlewSettled_keeps hP t s hs
  | paceSample t ps tj => exact execPaceSample_keeps hP t ps tj s hs
  | paceCal t f => exact execPaceCal_keeps hP t f s hs
  | paceCalDone t factor => exact execPaceCalDone_keeps hP t factor s hs
  | sleep t f p => exact execSleep_keeps hP t f p s hs
  | wake t f p => exact execWake_keeps hP t f p s hs
  | vetoSet t f p => exact execVetoSet_keeps hP t f p s hs
  | vetoClr t f p => exact execVetoClr_keeps hP t f p s hs
  | wakeAck t f p => exact execWakeAck_keeps hP t f p s hs
  | fabricWake t f => exact execFabricWake_keeps hP t f s hs
  | aniseWindowTimeout t p => exact execAniseWindowTimeout_keeps hP t p s hs
  | aniseSleepEntry t p => exact execAniseSleepEntry_keeps hP t p s hs
  | wakeAnswerTimeout t p => exact execWakeAnswerTimeout_keeps hP t p s hs
  | sessionOpen t f force => exact execSessionOpen_keeps hP t f force s hs
  | eraseDone t => exact execEraseDone_keeps hP t s hs
  | windowWrite t f off data => exact execWindowWrite_keeps hP t f off data s hs
  | pullGo t f => exact execPullGo_keeps hP t f s hs
  | pullDone t link tag r => exact execPullDone_keeps hP t link tag r s hs
  | sessionClose t f => exact execSessionClose_keeps hP t f s hs
  | sessionAbort t f => exact execSessionAbort_keeps hP t f s hs
  | activate t f => exact execActivate_keeps hP t f s hs
  | activateCold t f => exact execActivateCold_keeps hP t f s hs
  | rollfwd t f => exact execRollfwd_keeps hP t f s hs
  | checkDone t nvm => exact execCheckDone_keeps hP t nvm s hs
  | gapEnd t => exact execGapEnd_keeps hP t s hs
  | powerOn t => simp [Instr.special] at hi
  | brownOut t low => simp [Instr.special] at hi
  | resetN t => simp [Instr.special] at hi
  | commandReset t => simp [Instr.special] at hi
  | boot t start count nvm1 nvm2 => simp [Instr.special] at hi
  | perst t link high => exact execPerst_keeps hP t link high s hs
  | tapReset t => exact execTapReset_keeps hP t s hs
  | idcode t => exact execIdcode_keeps hP t s hs
  | samplePreload t => exact execSamplePreload_keeps hP t s hs
  | extest t => exact execExtest_keeps hP t s hs
  | extestPulse t => exact execExtestPulse_keeps hP t s hs
  | extestTrain t => exact execExtestTrain_keeps hP t s hs
  | clampPins t => exact execClampPins_keeps hP t s hs
  | highz t => exact execHighz_keeps hP t s hs
  | bypass t => exact execBypass_keeps hP t s hs
  | termArmDisconnect t p arm => exact execTermArmDisconnect_keeps hP t p arm s hs
  | termArmReconnect t p arm => exact execTermArmReconnect_keeps hP t p arm s hs
  | thermalShutdown t p => exact execThermalShutdown_keeps hP t p s hs
  | nakRepeat t port => exact execNakRepeat_keeps hP t port s hs
  | levelCauseEnd t src => exact execLevelCauseEnd_keeps hP t src s hs
  | maceNetRailEqual t g eq => exact execMaceNetRailEqual_keeps hP t g eq s hs
  | thermalRecovery t p => exact execThermalRecovery_keeps hP t p s hs
  | frameStoreScrub t frame bad => exact execFrameStoreScrub_keeps hP t frame bad s hs
  | leaseRecordPeriodic t => exact execLeaseRecordPeriodic_keeps hP t s hs
  | postedCreditReturn t link n => exact execPostedCreditReturn_keeps hP t link n s hs
  | otpWriteDone t => simp [Instr.special] at hi

end Sys2Proof.Machine
end

