-- ==== Sys2Proof/Laws/State.lean ====
section
/-! SUPPORT. One lemma per field of the state for each elementary update: what it leaves as it was. -/

namespace Sys2Proof.Machine

variable (s : State)

/-! ### wrA -/

@[simp] theorem State.wrA_pending (f : Fld) (i j v : Nat) : (s.wrA f i j v).pending = s.pending := rfl
@[simp] theorem State.wrA_now (f : Fld) (i j v : Nat) : (s.wrA f i j v).now = s.now := rfl
@[simp] theorem State.wrA_fresh (f : Fld) (i j v : Nat) : (s.wrA f i j v).fresh = s.fresh := rfl
@[simp] theorem State.wrA_out (f : Fld) (i j v : Nat) : (s.wrA f i j v).out = s.out := rfl
@[simp] theorem State.wrA_staged (f : Fld) (i j v : Nat) : (s.wrA f i j v).staged = s.staged := rfl
@[simp] theorem State.wrA_noMaj (f : Fld) (i j v : Nat) : (s.wrA f i j v).noMaj = s.noMaj := rfl
@[simp] theorem State.wrA_noMajStaged (f : Fld) (i j v : Nat) : (s.wrA f i j v).noMajStaged = s.noMajStaged := rfl
@[simp] theorem State.wrA_copies (f : Fld) (i j v : Nat) : (s.wrA f i j v).copies = s.copies := rfl
@[simp] theorem State.wrA_copiesStaged (f : Fld) (i j v : Nat) : (s.wrA f i j v).copiesStaged = s.copiesStaged := rfl
@[simp] theorem State.wrA_inst (f : Fld) (i j v : Nat) : (s.wrA f i j v).inst_ = s.inst_ := rfl
@[simp] theorem State.wrA_time (f : Fld) (i j v : Nat) : (s.wrA f i j v).time = s.time := rfl
@[simp] theorem State.wrA_host (f : Fld) (i j v : Nat) : (s.wrA f i j v).host = s.host := rfl
@[simp] theorem State.wrA_img (f : Fld) (i j v : Nat) : (s.wrA f i j v).img = s.img := rfl
@[simp] theorem State.wrA_leaseRt (f : Fld) (i j v : Nat) : (s.wrA f i j v).leaseRt = s.leaseRt := rfl
@[simp] theorem State.wrA_fb (f : Fld) (i j v : Nat) : (s.wrA f i j v).fb = s.fb := rfl
@[simp] theorem State.wrA_tt (f : Fld) (i j v : Nat) : (s.wrA f i j v).tt = s.tt := rfl
@[simp] theorem State.wrA_anise (f : Fld) (i j v : Nat) : (s.wrA f i j v).anise = s.anise := rfl
@[simp] theorem State.wrA_pm (f : Fld) (i j v : Nat) : (s.wrA f i j v).pm = s.pm := rfl
@[simp] theorem State.wrA_pq (f : Fld) (i j v : Nat) : (s.wrA f i j v).pq = s.pq := rfl
@[simp] theorem State.wrA_rx (f : Fld) (i j v : Nat) : (s.wrA f i j v).rx = s.rx := rfl
@[simp] theorem State.wrA_ru (f : Fld) (i j v : Nat) : (s.wrA f i j v).ru = s.ru := rfl
@[simp] theorem State.wrA_sp (f : Fld) (i j v : Nat) : (s.wrA f i j v).sp = s.sp := rfl
@[simp] theorem State.wrA_stage (f : Fld) (i j v : Nat) : (s.wrA f i j v).stage_ = s.stage_ := rfl
@[simp] theorem State.wrA_db (f : Fld) (i j v : Nat) : (s.wrA f i j v).db = s.db := rfl
@[simp] theorem State.wrA_gt (f : Fld) (i j v : Nat) : (s.wrA f i j v).gt = s.gt := rfl
@[simp] theorem State.wrA_ring (f : Fld) (i j v : Nat) : (s.wrA f i j v).ring_ = s.ring_ := rfl
@[simp] theorem State.wrA_pair (f : Fld) (i j v : Nat) : (s.wrA f i j v).pair = s.pair := rfl
@[simp] theorem State.wrA_ic (f : Fld) (i j v : Nat) : (s.wrA f i j v).ic = s.ic := rfl
@[simp] theorem State.wrA_fc (f : Fld) (i j v : Nat) : (s.wrA f i j v).fc = s.fc := rfl
@[simp] theorem State.wrA_cu (f : Fld) (i j v : Nat) : (s.wrA f i j v).cu = s.cu := rfl
@[simp] theorem State.wrA_sys (f : Fld) (i j v : Nat) : (s.wrA f i j v).sys = s.sys := rfl
@[simp] theorem State.wrA_tap (f : Fld) (i j v : Nat) : (s.wrA f i j v).tap = s.tap := rfl

/-! ### wr -/

@[simp] theorem State.wr_pending (f : Fld) (i v : Nat) : (s.wr f i v).pending = s.pending := rfl
@[simp] theorem State.wr_now (f : Fld) (i v : Nat) : (s.wr f i v).now = s.now := rfl
@[simp] theorem State.wr_fresh (f : Fld) (i v : Nat) : (s.wr f i v).fresh = s.fresh := rfl
@[simp] theorem State.wr_out (f : Fld) (i v : Nat) : (s.wr f i v).out = s.out := rfl
@[simp] theorem State.wr_staged (f : Fld) (i v : Nat) : (s.wr f i v).staged = s.staged := rfl
@[simp] theorem State.wr_noMaj (f : Fld) (i v : Nat) : (s.wr f i v).noMaj = s.noMaj := rfl
@[simp] theorem State.wr_noMajStaged (f : Fld) (i v : Nat) : (s.wr f i v).noMajStaged = s.noMajStaged := rfl
@[simp] theorem State.wr_copies (f : Fld) (i v : Nat) : (s.wr f i v).copies = s.copies := rfl
@[simp] theorem State.wr_copiesStaged (f : Fld) (i v : Nat) : (s.wr f i v).copiesStaged = s.copiesStaged := rfl
@[simp] theorem State.wr_inst (f : Fld) (i v : Nat) : (s.wr f i v).inst_ = s.inst_ := rfl
@[simp] theorem State.wr_time (f : Fld) (i v : Nat) : (s.wr f i v).time = s.time := rfl
@[simp] theorem State.wr_host (f : Fld) (i v : Nat) : (s.wr f i v).host = s.host := rfl
@[simp] theorem State.wr_img (f : Fld) (i v : Nat) : (s.wr f i v).img = s.img := rfl
@[simp] theorem State.wr_leaseRt (f : Fld) (i v : Nat) : (s.wr f i v).leaseRt = s.leaseRt := rfl
@[simp] theorem State.wr_fb (f : Fld) (i v : Nat) : (s.wr f i v).fb = s.fb := rfl
@[simp] theorem State.wr_tt (f : Fld) (i v : Nat) : (s.wr f i v).tt = s.tt := rfl
@[simp] theorem State.wr_anise (f : Fld) (i v : Nat) : (s.wr f i v).anise = s.anise := rfl
@[simp] theorem State.wr_pm (f : Fld) (i v : Nat) : (s.wr f i v).pm = s.pm := rfl
@[simp] theorem State.wr_pq (f : Fld) (i v : Nat) : (s.wr f i v).pq = s.pq := rfl
@[simp] theorem State.wr_rx (f : Fld) (i v : Nat) : (s.wr f i v).rx = s.rx := rfl
@[simp] theorem State.wr_ru (f : Fld) (i v : Nat) : (s.wr f i v).ru = s.ru := rfl
@[simp] theorem State.wr_sp (f : Fld) (i v : Nat) : (s.wr f i v).sp = s.sp := rfl
@[simp] theorem State.wr_stage (f : Fld) (i v : Nat) : (s.wr f i v).stage_ = s.stage_ := rfl
@[simp] theorem State.wr_db (f : Fld) (i v : Nat) : (s.wr f i v).db = s.db := rfl
@[simp] theorem State.wr_gt (f : Fld) (i v : Nat) : (s.wr f i v).gt = s.gt := rfl
@[simp] theorem State.wr_ring (f : Fld) (i v : Nat) : (s.wr f i v).ring_ = s.ring_ := rfl
@[simp] theorem State.wr_pair (f : Fld) (i v : Nat) : (s.wr f i v).pair = s.pair := rfl
@[simp] theorem State.wr_ic (f : Fld) (i v : Nat) : (s.wr f i v).ic = s.ic := rfl
@[simp] theorem State.wr_fc (f : Fld) (i v : Nat) : (s.wr f i v).fc = s.fc := rfl
@[simp] theorem State.wr_cu (f : Fld) (i v : Nat) : (s.wr f i v).cu = s.cu := rfl
@[simp] theorem State.wr_sys (f : Fld) (i v : Nat) : (s.wr f i v).sys = s.sys := rfl
@[simp] theorem State.wr_tap (f : Fld) (i v : Nat) : (s.wr f i v).tap = s.tap := rfl

/-! ### put -/

@[simp] theorem State.put_pending (f : Fld) (i : Nat) (b : Bool) : (s.put f i b).pending = s.pending := rfl
@[simp] theorem State.put_now (f : Fld) (i : Nat) (b : Bool) : (s.put f i b).now = s.now := rfl
@[simp] theorem State.put_fresh (f : Fld) (i : Nat) (b : Bool) : (s.put f i b).fresh = s.fresh := rfl
@[simp] theorem State.put_out (f : Fld) (i : Nat) (b : Bool) : (s.put f i b).out = s.out := rfl
@[simp] theorem State.put_staged (f : Fld) (i : Nat) (b : Bool) : (s.put f i b).staged = s.staged := rfl
@[simp] theorem State.put_noMaj (f : Fld) (i : Nat) (b : Bool) : (s.put f i b).noMaj = s.noMaj := rfl
@[simp] theorem State.put_noMajStaged (f : Fld) (i : Nat) (b : Bool) : (s.put f i b).noMajStaged = s.noMajStaged := rfl
@[simp] theorem State.put_copies (f : Fld) (i : Nat) (b : Bool) : (s.put f i b).copies = s.copies := rfl
@[simp] theorem State.put_copiesStaged (f : Fld) (i : Nat) (b : Bool) : (s.put f i b).copiesStaged = s.copiesStaged := rfl
@[simp] theorem State.put_inst (f : Fld) (i : Nat) (b : Bool) : (s.put f i b).inst_ = s.inst_ := rfl
@[simp] theorem State.put_time (f : Fld) (i : Nat) (b : Bool) : (s.put f i b).time = s.time := rfl
@[simp] theorem State.put_host (f : Fld) (i : Nat) (b : Bool) : (s.put f i b).host = s.host := rfl
@[simp] theorem State.put_img (f : Fld) (i : Nat) (b : Bool) : (s.put f i b).img = s.img := rfl
@[simp] theorem State.put_leaseRt (f : Fld) (i : Nat) (b : Bool) : (s.put f i b).leaseRt = s.leaseRt := rfl
@[simp] theorem State.put_fb (f : Fld) (i : Nat) (b : Bool) : (s.put f i b).fb = s.fb := rfl
@[simp] theorem State.put_tt (f : Fld) (i : Nat) (b : Bool) : (s.put f i b).tt = s.tt := rfl
@[simp] theorem State.put_anise (f : Fld) (i : Nat) (b : Bool) : (s.put f i b).anise = s.anise := rfl
@[simp] theorem State.put_pm (f : Fld) (i : Nat) (b : Bool) : (s.put f i b).pm = s.pm := rfl
@[simp] theorem State.put_pq (f : Fld) (i : Nat) (b : Bool) : (s.put f i b).pq = s.pq := rfl
@[simp] theorem State.put_rx (f : Fld) (i : Nat) (b : Bool) : (s.put f i b).rx = s.rx := rfl
@[simp] theorem State.put_ru (f : Fld) (i : Nat) (b : Bool) : (s.put f i b).ru = s.ru := rfl
@[simp] theorem State.put_sp (f : Fld) (i : Nat) (b : Bool) : (s.put f i b).sp = s.sp := rfl
@[simp] theorem State.put_stage (f : Fld) (i : Nat) (b : Bool) : (s.put f i b).stage_ = s.stage_ := rfl
@[simp] theorem State.put_db (f : Fld) (i : Nat) (b : Bool) : (s.put f i b).db = s.db := rfl
@[simp] theorem State.put_gt (f : Fld) (i : Nat) (b : Bool) : (s.put f i b).gt = s.gt := rfl
@[simp] theorem State.put_ring (f : Fld) (i : Nat) (b : Bool) : (s.put f i b).ring_ = s.ring_ := rfl
@[simp] theorem State.put_pair (f : Fld) (i : Nat) (b : Bool) : (s.put f i b).pair = s.pair := rfl
@[simp] theorem State.put_ic (f : Fld) (i : Nat) (b : Bool) : (s.put f i b).ic = s.ic := rfl
@[simp] theorem State.put_fc (f : Fld) (i : Nat) (b : Bool) : (s.put f i b).fc = s.fc := rfl
@[simp] theorem State.put_cu (f : Fld) (i : Nat) (b : Bool) : (s.put f i b).cu = s.cu := rfl
@[simp] theorem State.put_sys (f : Fld) (i : Nat) (b : Bool) : (s.put f i b).sys = s.sys := rfl
@[simp] theorem State.put_tap (f : Fld) (i : Nat) (b : Bool) : (s.put f i b).tap = s.tap := rfl

/-! ### addA -/

@[simp] theorem State.addA_pending (f : Fld) (i j n : Nat) : (s.addA f i j n).pending = s.pending := rfl
@[simp] theorem State.addA_now (f : Fld) (i j n : Nat) : (s.addA f i j n).now = s.now := rfl
@[simp] theorem State.addA_fresh (f : Fld) (i j n : Nat) : (s.addA f i j n).fresh = s.fresh := rfl
@[simp] theorem State.addA_out (f : Fld) (i j n : Nat) : (s.addA f i j n).out = s.out := rfl
@[simp] theorem State.addA_staged (f : Fld) (i j n : Nat) : (s.addA f i j n).staged = s.staged := rfl
@[simp] theorem State.addA_noMaj (f : Fld) (i j n : Nat) : (s.addA f i j n).noMaj = s.noMaj := rfl
@[simp] theorem State.addA_noMajStaged (f : Fld) (i j n : Nat) : (s.addA f i j n).noMajStaged = s.noMajStaged := rfl
@[simp] theorem State.addA_copies (f : Fld) (i j n : Nat) : (s.addA f i j n).copies = s.copies := rfl
@[simp] theorem State.addA_copiesStaged (f : Fld) (i j n : Nat) : (s.addA f i j n).copiesStaged = s.copiesStaged := rfl
@[simp] theorem State.addA_time (f : Fld) (i j n : Nat) : (s.addA f i j n).time = s.time := rfl
@[simp] theorem State.addA_host (f : Fld) (i j n : Nat) : (s.addA f i j n).host = s.host := rfl
@[simp] theorem State.addA_img (f : Fld) (i j n : Nat) : (s.addA f i j n).img = s.img := rfl
@[simp] theorem State.addA_leaseRt (f : Fld) (i j n : Nat) : (s.addA f i j n).leaseRt = s.leaseRt := rfl
@[simp] theorem State.addA_fb (f : Fld) (i j n : Nat) : (s.addA f i j n).fb = s.fb := rfl
@[simp] theorem State.addA_tt (f : Fld) (i j n : Nat) : (s.addA f i j n).tt = s.tt := rfl
@[simp] theorem State.addA_anise (f : Fld) (i j n : Nat) : (s.addA f i j n).anise = s.anise := rfl
@[simp] theorem State.addA_pm (f : Fld) (i j n : Nat) : (s.addA f i j n).pm = s.pm := rfl
@[simp] theorem State.addA_pq (f : Fld) (i j n : Nat) : (s.addA f i j n).pq = s.pq := rfl
@[simp] theorem State.addA_rx (f : Fld) (i j n : Nat) : (s.addA f i j n).rx = s.rx := rfl
@[simp] theorem State.addA_ru (f : Fld) (i j n : Nat) : (s.addA f i j n).ru = s.ru := rfl
@[simp] theorem State.addA_sp (f : Fld) (i j n : Nat) : (s.addA f i j n).sp = s.sp := rfl
@[simp] theorem State.addA_stage (f : Fld) (i j n : Nat) : (s.addA f i j n).stage_ = s.stage_ := rfl
@[simp] theorem State.addA_db (f : Fld) (i j n : Nat) : (s.addA f i j n).db = s.db := rfl
@[simp] theorem State.addA_gt (f : Fld) (i j n : Nat) : (s.addA f i j n).gt = s.gt := rfl
@[simp] theorem State.addA_ring (f : Fld) (i j n : Nat) : (s.addA f i j n).ring_ = s.ring_ := rfl
@[simp] theorem State.addA_pair (f : Fld) (i j n : Nat) : (s.addA f i j n).pair = s.pair := rfl
@[simp] theorem State.addA_ic (f : Fld) (i j n : Nat) : (s.addA f i j n).ic = s.ic := rfl
@[simp] theorem State.addA_fc (f : Fld) (i j n : Nat) : (s.addA f i j n).fc = s.fc := rfl
@[simp] theorem State.addA_cu (f : Fld) (i j n : Nat) : (s.addA f i j n).cu = s.cu := rfl
@[simp] theorem State.addA_sys (f : Fld) (i j n : Nat) : (s.addA f i j n).sys = s.sys := rfl
@[simp] theorem State.addA_tap (f : Fld) (i j n : Nat) : (s.addA f i j n).tap = s.tap := rfl

/-! ### bump -/

@[simp] theorem State.bump_pending (f : Fld) (i : Nat) : (s.bump f i).pending = s.pending := rfl
@[simp] theorem State.bump_now (f : Fld) (i : Nat) : (s.bump f i).now = s.now := rfl
@[simp] theorem State.bump_fresh (f : Fld) (i : Nat) : (s.bump f i).fresh = s.fresh := rfl
@[simp] theorem State.bump_out (f : Fld) (i : Nat) : (s.bump f i).out = s.out := rfl
@[simp] theorem State.bump_staged (f : Fld) (i : Nat) : (s.bump f i).staged = s.staged := rfl
@[simp] theorem State.bump_noMaj (f : Fld) (i : Nat) : (s.bump f i).noMaj = s.noMaj := rfl
@[simp] theorem State.bump_noMajStaged (f : Fld) (i : Nat) : (s.bump f i).noMajStaged = s.noMajStaged := rfl
@[simp] theorem State.bump_copies (f : Fld) (i : Nat) : (s.bump f i).copies = s.copies := rfl
@[simp] theorem State.bump_copiesStaged (f : Fld) (i : Nat) : (s.bump f i).copiesStaged = s.copiesStaged := rfl
@[simp] theorem State.bump_time (f : Fld) (i : Nat) : (s.bump f i).time = s.time := rfl
@[simp] theorem State.bump_host (f : Fld) (i : Nat) : (s.bump f i).host = s.host := rfl
@[simp] theorem State.bump_img (f : Fld) (i : Nat) : (s.bump f i).img = s.img := rfl
@[simp] theorem State.bump_leaseRt (f : Fld) (i : Nat) : (s.bump f i).leaseRt = s.leaseRt := rfl
@[simp] theorem State.bump_fb (f : Fld) (i : Nat) : (s.bump f i).fb = s.fb := rfl
@[simp] theorem State.bump_tt (f : Fld) (i : Nat) : (s.bump f i).tt = s.tt := rfl
@[simp] theorem State.bump_anise (f : Fld) (i : Nat) : (s.bump f i).anise = s.anise := rfl
@[simp] theorem State.bump_pm (f : Fld) (i : Nat) : (s.bump f i).pm = s.pm := rfl
@[simp] theorem State.bump_pq (f : Fld) (i : Nat) : (s.bump f i).pq = s.pq := rfl
@[simp] theorem State.bump_rx (f : Fld) (i : Nat) : (s.bump f i).rx = s.rx := rfl
@[simp] theorem State.bump_ru (f : Fld) (i : Nat) : (s.bump f i).ru = s.ru := rfl
@[simp] theorem State.bump_sp (f : Fld) (i : Nat) : (s.bump f i).sp = s.sp := rfl
@[simp] theorem State.bump_stage (f : Fld) (i : Nat) : (s.bump f i).stage_ = s.stage_ := rfl
@[simp] theorem State.bump_db (f : Fld) (i : Nat) : (s.bump f i).db = s.db := rfl
@[simp] theorem State.bump_gt (f : Fld) (i : Nat) : (s.bump f i).gt = s.gt := rfl
@[simp] theorem State.bump_ring (f : Fld) (i : Nat) : (s.bump f i).ring_ = s.ring_ := rfl
@[simp] theorem State.bump_pair (f : Fld) (i : Nat) : (s.bump f i).pair = s.pair := rfl
@[simp] theorem State.bump_ic (f : Fld) (i : Nat) : (s.bump f i).ic = s.ic := rfl
@[simp] theorem State.bump_fc (f : Fld) (i : Nat) : (s.bump f i).fc = s.fc := rfl
@[simp] theorem State.bump_cu (f : Fld) (i : Nat) : (s.bump f i).cu = s.cu := rfl
@[simp] theorem State.bump_sys (f : Fld) (i : Nat) : (s.bump f i).sys = s.sys := rfl
@[simp] theorem State.bump_tap (f : Fld) (i : Nat) : (s.bump f i).tap = s.tap := rfl

/-! ### bumpSat -/

@[simp] theorem State.bumpSat_pending (f : Fld) (i : Nat) : (s.bumpSat f i).pending = s.pending := rfl
@[simp] theorem State.bumpSat_now (f : Fld) (i : Nat) : (s.bumpSat f i).now = s.now := rfl
@[simp] theorem State.bumpSat_fresh (f : Fld) (i : Nat) : (s.bumpSat f i).fresh = s.fresh := rfl
@[simp] theorem State.bumpSat_out (f : Fld) (i : Nat) : (s.bumpSat f i).out = s.out := rfl
@[simp] theorem State.bumpSat_staged (f : Fld) (i : Nat) : (s.bumpSat f i).staged = s.staged := rfl
@[simp] theorem State.bumpSat_noMaj (f : Fld) (i : Nat) : (s.bumpSat f i).noMaj = s.noMaj := rfl
@[simp] theorem State.bumpSat_noMajStaged (f : Fld) (i : Nat) : (s.bumpSat f i).noMajStaged = s.noMajStaged := rfl
@[simp] theorem State.bumpSat_copies (f : Fld) (i : Nat) : (s.bumpSat f i).copies = s.copies := rfl
@[simp] theorem State.bumpSat_copiesStaged (f : Fld) (i : Nat) : (s.bumpSat f i).copiesStaged = s.copiesStaged := rfl
@[simp] theorem State.bumpSat_inst (f : Fld) (i : Nat) : (s.bumpSat f i).inst_ = s.inst_ := rfl
@[simp] theorem State.bumpSat_time (f : Fld) (i : Nat) : (s.bumpSat f i).time = s.time := rfl
@[simp] theorem State.bumpSat_host (f : Fld) (i : Nat) : (s.bumpSat f i).host = s.host := rfl
@[simp] theorem State.bumpSat_img (f : Fld) (i : Nat) : (s.bumpSat f i).img = s.img := rfl
@[simp] theorem State.bumpSat_leaseRt (f : Fld) (i : Nat) : (s.bumpSat f i).leaseRt = s.leaseRt := rfl
@[simp] theorem State.bumpSat_fb (f : Fld) (i : Nat) : (s.bumpSat f i).fb = s.fb := rfl
@[simp] theorem State.bumpSat_tt (f : Fld) (i : Nat) : (s.bumpSat f i).tt = s.tt := rfl
@[simp] theorem State.bumpSat_anise (f : Fld) (i : Nat) : (s.bumpSat f i).anise = s.anise := rfl
@[simp] theorem State.bumpSat_pm (f : Fld) (i : Nat) : (s.bumpSat f i).pm = s.pm := rfl
@[simp] theorem State.bumpSat_pq (f : Fld) (i : Nat) : (s.bumpSat f i).pq = s.pq := rfl
@[simp] theorem State.bumpSat_rx (f : Fld) (i : Nat) : (s.bumpSat f i).rx = s.rx := rfl
@[simp] theorem State.bumpSat_ru (f : Fld) (i : Nat) : (s.bumpSat f i).ru = s.ru := rfl
@[simp] theorem State.bumpSat_sp (f : Fld) (i : Nat) : (s.bumpSat f i).sp = s.sp := rfl
@[simp] theorem State.bumpSat_stage (f : Fld) (i : Nat) : (s.bumpSat f i).stage_ = s.stage_ := rfl
@[simp] theorem State.bumpSat_db (f : Fld) (i : Nat) : (s.bumpSat f i).db = s.db := rfl
@[simp] theorem State.bumpSat_gt (f : Fld) (i : Nat) : (s.bumpSat f i).gt = s.gt := rfl
@[simp] theorem State.bumpSat_ring (f : Fld) (i : Nat) : (s.bumpSat f i).ring_ = s.ring_ := rfl
@[simp] theorem State.bumpSat_pair (f : Fld) (i : Nat) : (s.bumpSat f i).pair = s.pair := rfl
@[simp] theorem State.bumpSat_ic (f : Fld) (i : Nat) : (s.bumpSat f i).ic = s.ic := rfl
@[simp] theorem State.bumpSat_fc (f : Fld) (i : Nat) : (s.bumpSat f i).fc = s.fc := rfl
@[simp] theorem State.bumpSat_cu (f : Fld) (i : Nat) : (s.bumpSat f i).cu = s.cu := rfl
@[simp] theorem State.bumpSat_sys (f : Fld) (i : Nat) : (s.bumpSat f i).sys = s.sys := rfl
@[simp] theorem State.bumpSat_tap (f : Fld) (i : Nat) : (s.bumpSat f i).tap = s.tap := rfl

/-! ### drop1 -/

@[simp] theorem State.drop1_pending (f : Fld) (i : Nat) : (s.drop1 f i).pending = s.pending := rfl
@[simp] theorem State.drop1_now (f : Fld) (i : Nat) : (s.drop1 f i).now = s.now := rfl
@[simp] theorem State.drop1_fresh (f : Fld) (i : Nat) : (s.drop1 f i).fresh = s.fresh := rfl
@[simp] theorem State.drop1_out (f : Fld) (i : Nat) : (s.drop1 f i).out = s.out := rfl
@[simp] theorem State.drop1_staged (f : Fld) (i : Nat) : (s.drop1 f i).staged = s.staged := rfl
@[simp] theorem State.drop1_noMaj (f : Fld) (i : Nat) : (s.drop1 f i).noMaj = s.noMaj := rfl
@[simp] theorem State.drop1_noMajStaged (f : Fld) (i : Nat) : (s.drop1 f i).noMajStaged = s.noMajStaged := rfl
@[simp] theorem State.drop1_copies (f : Fld) (i : Nat) : (s.drop1 f i).copies = s.copies := rfl
@[simp] theorem State.drop1_copiesStaged (f : Fld) (i : Nat) : (s.drop1 f i).copiesStaged = s.copiesStaged := rfl
@[simp] theorem State.drop1_inst (f : Fld) (i : Nat) : (s.drop1 f i).inst_ = s.inst_ := rfl
@[simp] theorem State.drop1_time (f : Fld) (i : Nat) : (s.drop1 f i).time = s.time := rfl
@[simp] theorem State.drop1_host (f : Fld) (i : Nat) : (s.drop1 f i).host = s.host := rfl
@[simp] theorem State.drop1_img (f : Fld) (i : Nat) : (s.drop1 f i).img = s.img := rfl
@[simp] theorem State.drop1_leaseRt (f : Fld) (i : Nat) : (s.drop1 f i).leaseRt = s.leaseRt := rfl
@[simp] theorem State.drop1_fb (f : Fld) (i : Nat) : (s.drop1 f i).fb = s.fb := rfl
@[simp] theorem State.drop1_tt (f : Fld) (i : Nat) : (s.drop1 f i).tt = s.tt := rfl
@[simp] theorem State.drop1_anise (f : Fld) (i : Nat) : (s.drop1 f i).anise = s.anise := rfl
@[simp] theorem State.drop1_pm (f : Fld) (i : Nat) : (s.drop1 f i).pm = s.pm := rfl
@[simp] theorem State.drop1_pq (f : Fld) (i : Nat) : (s.drop1 f i).pq = s.pq := rfl
@[simp] theorem State.drop1_rx (f : Fld) (i : Nat) : (s.drop1 f i).rx = s.rx := rfl
@[simp] theorem State.drop1_ru (f : Fld) (i : Nat) : (s.drop1 f i).ru = s.ru := rfl
@[simp] theorem State.drop1_sp (f : Fld) (i : Nat) : (s.drop1 f i).sp = s.sp := rfl
@[simp] theorem State.drop1_stage (f : Fld) (i : Nat) : (s.drop1 f i).stage_ = s.stage_ := rfl
@[simp] theorem State.drop1_db (f : Fld) (i : Nat) : (s.drop1 f i).db = s.db := rfl
@[simp] theorem State.drop1_gt (f : Fld) (i : Nat) : (s.drop1 f i).gt = s.gt := rfl
@[simp] theorem State.drop1_ring (f : Fld) (i : Nat) : (s.drop1 f i).ring_ = s.ring_ := rfl
@[simp] theorem State.drop1_pair (f : Fld) (i : Nat) : (s.drop1 f i).pair = s.pair := rfl
@[simp] theorem State.drop1_ic (f : Fld) (i : Nat) : (s.drop1 f i).ic = s.ic := rfl
@[simp] theorem State.drop1_fc (f : Fld) (i : Nat) : (s.drop1 f i).fc = s.fc := rfl
@[simp] theorem State.drop1_cu (f : Fld) (i : Nat) : (s.drop1 f i).cu = s.cu := rfl
@[simp] theorem State.drop1_sys (f : Fld) (i : Nat) : (s.drop1 f i).sys = s.sys := rfl
@[simp] theorem State.drop1_tap (f : Fld) (i : Nat) : (s.drop1 f i).tap = s.tap := rfl

/-! ### evt -/

@[simp] theorem State.evt_pending (f : Fld) (i n : Nat) : (s.evt f i n).pending = s.pending := rfl
@[simp] theorem State.evt_now (f : Fld) (i n : Nat) : (s.evt f i n).now = s.now := rfl
@[simp] theorem State.evt_fresh (f : Fld) (i n : Nat) : (s.evt f i n).fresh = s.fresh := rfl
@[simp] theorem State.evt_out (f : Fld) (i n : Nat) : (s.evt f i n).out = s.out := rfl
@[simp] theorem State.evt_staged (f : Fld) (i n : Nat) : (s.evt f i n).staged = s.staged := rfl
@[simp] theorem State.evt_noMaj (f : Fld) (i n : Nat) : (s.evt f i n).noMaj = s.noMaj := rfl
@[simp] theorem State.evt_noMajStaged (f : Fld) (i n : Nat) : (s.evt f i n).noMajStaged = s.noMajStaged := rfl
@[simp] theorem State.evt_copies (f : Fld) (i n : Nat) : (s.evt f i n).copies = s.copies := rfl
@[simp] theorem State.evt_copiesStaged (f : Fld) (i n : Nat) : (s.evt f i n).copiesStaged = s.copiesStaged := rfl
@[simp] theorem State.evt_time (f : Fld) (i n : Nat) : (s.evt f i n).time = s.time := rfl
@[simp] theorem State.evt_host (f : Fld) (i n : Nat) : (s.evt f i n).host = s.host := rfl
@[simp] theorem State.evt_img (f : Fld) (i n : Nat) : (s.evt f i n).img = s.img := rfl
@[simp] theorem State.evt_leaseRt (f : Fld) (i n : Nat) : (s.evt f i n).leaseRt = s.leaseRt := rfl
@[simp] theorem State.evt_fb (f : Fld) (i n : Nat) : (s.evt f i n).fb = s.fb := rfl
@[simp] theorem State.evt_tt (f : Fld) (i n : Nat) : (s.evt f i n).tt = s.tt := rfl
@[simp] theorem State.evt_anise (f : Fld) (i n : Nat) : (s.evt f i n).anise = s.anise := rfl
@[simp] theorem State.evt_pm (f : Fld) (i n : Nat) : (s.evt f i n).pm = s.pm := rfl
@[simp] theorem State.evt_pq (f : Fld) (i n : Nat) : (s.evt f i n).pq = s.pq := rfl
@[simp] theorem State.evt_rx (f : Fld) (i n : Nat) : (s.evt f i n).rx = s.rx := rfl
@[simp] theorem State.evt_ru (f : Fld) (i n : Nat) : (s.evt f i n).ru = s.ru := rfl
@[simp] theorem State.evt_sp (f : Fld) (i n : Nat) : (s.evt f i n).sp = s.sp := rfl
@[simp] theorem State.evt_stage (f : Fld) (i n : Nat) : (s.evt f i n).stage_ = s.stage_ := rfl
@[simp] theorem State.evt_db (f : Fld) (i n : Nat) : (s.evt f i n).db = s.db := rfl
@[simp] theorem State.evt_gt (f : Fld) (i n : Nat) : (s.evt f i n).gt = s.gt := rfl
@[simp] theorem State.evt_ring (f : Fld) (i n : Nat) : (s.evt f i n).ring_ = s.ring_ := rfl
@[simp] theorem State.evt_pair (f : Fld) (i n : Nat) : (s.evt f i n).pair = s.pair := rfl
@[simp] theorem State.evt_ic (f : Fld) (i n : Nat) : (s.evt f i n).ic = s.ic := rfl
@[simp] theorem State.evt_fc (f : Fld) (i n : Nat) : (s.evt f i n).fc = s.fc := rfl
@[simp] theorem State.evt_cu (f : Fld) (i n : Nat) : (s.evt f i n).cu = s.cu := rfl
@[simp] theorem State.evt_sys (f : Fld) (i n : Nat) : (s.evt f i n).sys = s.sys := rfl
@[simp] theorem State.evt_tap (f : Fld) (i n : Nat) : (s.evt f i n).tap = s.tap := rfl

/-! ### evtA -/

@[simp] theorem State.evtA_pending (f : Fld) (i j n : Nat) : (s.evtA f i j n).pending = s.pending := rfl
@[simp] theorem State.evtA_now (f : Fld) (i j n : Nat) : (s.evtA f i j n).now = s.now := rfl
@[simp] theorem State.evtA_fresh (f : Fld) (i j n : Nat) : (s.evtA f i j n).fresh = s.fresh := rfl
@[simp] theorem State.evtA_out (f : Fld) (i j n : Nat) : (s.evtA f i j n).out = s.out := rfl
@[simp] theorem State.evtA_staged (f : Fld) (i j n : Nat) : (s.evtA f i j n).staged = s.staged := rfl
@[simp] theorem State.evtA_noMaj (f : Fld) (i j n : Nat) : (s.evtA f i j n).noMaj = s.noMaj := rfl
@[simp] theorem State.evtA_noMajStaged (f : Fld) (i j n : Nat) : (s.evtA f i j n).noMajStaged = s.noMajStaged := rfl
@[simp] theorem State.evtA_copies (f : Fld) (i j n : Nat) : (s.evtA f i j n).copies = s.copies := rfl
@[simp] theorem State.evtA_copiesStaged (f : Fld) (i j n : Nat) : (s.evtA f i j n).copiesStaged = s.copiesStaged := rfl
@[simp] theorem State.evtA_time (f : Fld) (i j n : Nat) : (s.evtA f i j n).time = s.time := rfl
@[simp] theorem State.evtA_host (f : Fld) (i j n : Nat) : (s.evtA f i j n).host = s.host := rfl
@[simp] theorem State.evtA_img (f : Fld) (i j n : Nat) : (s.evtA f i j n).img = s.img := rfl
@[simp] theorem State.evtA_leaseRt (f : Fld) (i j n : Nat) : (s.evtA f i j n).leaseRt = s.leaseRt := rfl
@[simp] theorem State.evtA_fb (f : Fld) (i j n : Nat) : (s.evtA f i j n).fb = s.fb := rfl
@[simp] theorem State.evtA_tt (f : Fld) (i j n : Nat) : (s.evtA f i j n).tt = s.tt := rfl
@[simp] theorem State.evtA_anise (f : Fld) (i j n : Nat) : (s.evtA f i j n).anise = s.anise := rfl
@[simp] theorem State.evtA_pm (f : Fld) (i j n : Nat) : (s.evtA f i j n).pm = s.pm := rfl
@[simp] theorem State.evtA_pq (f : Fld) (i j n : Nat) : (s.evtA f i j n).pq = s.pq := rfl
@[simp] theorem State.evtA_rx (f : Fld) (i j n : Nat) : (s.evtA f i j n).rx = s.rx := rfl
@[simp] theorem State.evtA_ru (f : Fld) (i j n : Nat) : (s.evtA f i j n).ru = s.ru := rfl
@[simp] theorem State.evtA_sp (f : Fld) (i j n : Nat) : (s.evtA f i j n).sp = s.sp := rfl
@[simp] theorem State.evtA_stage (f : Fld) (i j n : Nat) : (s.evtA f i j n).stage_ = s.stage_ := rfl
@[simp] theorem State.evtA_db (f : Fld) (i j n : Nat) : (s.evtA f i j n).db = s.db := rfl
@[simp] theorem State.evtA_gt (f : Fld) (i j n : Nat) : (s.evtA f i j n).gt = s.gt := rfl
@[simp] theorem State.evtA_ring (f : Fld) (i j n : Nat) : (s.evtA f i j n).ring_ = s.ring_ := rfl
@[simp] theorem State.evtA_pair (f : Fld) (i j n : Nat) : (s.evtA f i j n).pair = s.pair := rfl
@[simp] theorem State.evtA_ic (f : Fld) (i j n : Nat) : (s.evtA f i j n).ic = s.ic := rfl
@[simp] theorem State.evtA_fc (f : Fld) (i j n : Nat) : (s.evtA f i j n).fc = s.fc := rfl
@[simp] theorem State.evtA_cu (f : Fld) (i j n : Nat) : (s.evtA f i j n).cu = s.cu := rfl
@[simp] theorem State.evtA_sys (f : Fld) (i j n : Nat) : (s.evtA f i j n).sys = s.sys := rfl
@[simp] theorem State.evtA_tap (f : Fld) (i j n : Nat) : (s.evtA f i j n).tap = s.tap := rfl

/-! ### note -/

@[simp] theorem State.note_pending (k : Nat) (u : UpdKind) (n : Nat) : (s.note k u n).pending = s.pending := rfl
@[simp] theorem State.note_now (k : Nat) (u : UpdKind) (n : Nat) : (s.note k u n).now = s.now := rfl
@[simp] theorem State.note_fresh (k : Nat) (u : UpdKind) (n : Nat) : (s.note k u n).fresh = s.fresh := rfl
@[simp] theorem State.note_out (k : Nat) (u : UpdKind) (n : Nat) : (s.note k u n).out = s.out := rfl
@[simp] theorem State.note_regs (k : Nat) (u : UpdKind) (n : Nat) : (s.note k u n).regs = s.regs := rfl
@[simp] theorem State.note_staged (k : Nat) (u : UpdKind) (n : Nat) : (s.note k u n).staged = s.staged := rfl
@[simp] theorem State.note_noMaj (k : Nat) (u : UpdKind) (n : Nat) : (s.note k u n).noMaj = s.noMaj := rfl
@[simp] theorem State.note_noMajStaged (k : Nat) (u : UpdKind) (n : Nat) : (s.note k u n).noMajStaged = s.noMajStaged := rfl
@[simp] theorem State.note_copies (k : Nat) (u : UpdKind) (n : Nat) : (s.note k u n).copies = s.copies := rfl
@[simp] theorem State.note_copiesStaged (k : Nat) (u : UpdKind) (n : Nat) : (s.note k u n).copiesStaged = s.copiesStaged := rfl
@[simp] theorem State.note_time (k : Nat) (u : UpdKind) (n : Nat) : (s.note k u n).time = s.time := rfl
@[simp] theorem State.note_host (k : Nat) (u : UpdKind) (n : Nat) : (s.note k u n).host = s.host := rfl
@[simp] theorem State.note_img (k : Nat) (u : UpdKind) (n : Nat) : (s.note k u n).img = s.img := rfl
@[simp] theorem State.note_leaseRt (k : Nat) (u : UpdKind) (n : Nat) : (s.note k u n).leaseRt = s.leaseRt := rfl
@[simp] theorem State.note_fb (k : Nat) (u : UpdKind) (n : Nat) : (s.note k u n).fb = s.fb := rfl
@[simp] theorem State.note_tt (k : Nat) (u : UpdKind) (n : Nat) : (s.note k u n).tt = s.tt := rfl
@[simp] theorem State.note_anise (k : Nat) (u : UpdKind) (n : Nat) : (s.note k u n).anise = s.anise := rfl
@[simp] theorem State.note_pm (k : Nat) (u : UpdKind) (n : Nat) : (s.note k u n).pm = s.pm := rfl
@[simp] theorem State.note_pq (k : Nat) (u : UpdKind) (n : Nat) : (s.note k u n).pq = s.pq := rfl
@[simp] theorem State.note_rx (k : Nat) (u : UpdKind) (n : Nat) : (s.note k u n).rx = s.rx := rfl
@[simp] theorem State.note_ru (k : Nat) (u : UpdKind) (n : Nat) : (s.note k u n).ru = s.ru := rfl
@[simp] theorem State.note_sp (k : Nat) (u : UpdKind) (n : Nat) : (s.note k u n).sp = s.sp := rfl
@[simp] theorem State.note_stage (k : Nat) (u : UpdKind) (n : Nat) : (s.note k u n).stage_ = s.stage_ := rfl
@[simp] theorem State.note_db (k : Nat) (u : UpdKind) (n : Nat) : (s.note k u n).db = s.db := rfl
@[simp] theorem State.note_gt (k : Nat) (u : UpdKind) (n : Nat) : (s.note k u n).gt = s.gt := rfl
@[simp] theorem State.note_ring (k : Nat) (u : UpdKind) (n : Nat) : (s.note k u n).ring_ = s.ring_ := rfl
@[simp] theorem State.note_pair (k : Nat) (u : UpdKind) (n : Nat) : (s.note k u n).pair = s.pair := rfl
@[simp] theorem State.note_ic (k : Nat) (u : UpdKind) (n : Nat) : (s.note k u n).ic = s.ic := rfl
@[simp] theorem State.note_fc (k : Nat) (u : UpdKind) (n : Nat) : (s.note k u n).fc = s.fc := rfl
@[simp] theorem State.note_cu (k : Nat) (u : UpdKind) (n : Nat) : (s.note k u n).cu = s.cu := rfl
@[simp] theorem State.note_sys (k : Nat) (u : UpdKind) (n : Nat) : (s.note k u n).sys = s.sys := rfl
@[simp] theorem State.note_tap (k : Nat) (u : UpdKind) (n : Nat) : (s.note k u n).tap = s.tap := rfl

/-! ### draw -/

@[simp] theorem State.draw_pending : (s.draw).pending = s.pending := rfl
@[simp] theorem State.draw_now : (s.draw).now = s.now := rfl
@[simp] theorem State.draw_out : (s.draw).out = s.out := rfl
@[simp] theorem State.draw_regs : (s.draw).regs = s.regs := rfl
@[simp] theorem State.draw_staged : (s.draw).staged = s.staged := rfl
@[simp] theorem State.draw_noMaj : (s.draw).noMaj = s.noMaj := rfl
@[simp] theorem State.draw_noMajStaged : (s.draw).noMajStaged = s.noMajStaged := rfl
@[simp] theorem State.draw_copies : (s.draw).copies = s.copies := rfl
@[simp] theorem State.draw_copiesStaged : (s.draw).copiesStaged = s.copiesStaged := rfl
@[simp] theorem State.draw_inst : (s.draw).inst_ = s.inst_ := rfl
@[simp] theorem State.draw_time : (s.draw).time = s.time := rfl
@[simp] theorem State.draw_host : (s.draw).host = s.host := rfl
@[simp] theorem State.draw_img : (s.draw).img = s.img := rfl
@[simp] theorem State.draw_leaseRt : (s.draw).leaseRt = s.leaseRt := rfl
@[simp] theorem State.draw_fb : (s.draw).fb = s.fb := rfl
@[simp] theorem State.draw_tt : (s.draw).tt = s.tt := rfl
@[simp] theorem State.draw_anise : (s.draw).anise = s.anise := rfl
@[simp] theorem State.draw_pm : (s.draw).pm = s.pm := rfl
@[simp] theorem State.draw_pq : (s.draw).pq = s.pq := rfl
@[simp] theorem State.draw_rx : (s.draw).rx = s.rx := rfl
@[simp] theorem State.draw_ru : (s.draw).ru = s.ru := rfl
@[simp] theorem State.draw_sp : (s.draw).sp = s.sp := rfl
@[simp] theorem State.draw_stage : (s.draw).stage_ = s.stage_ := rfl
@[simp] theorem State.draw_db : (s.draw).db = s.db := rfl
@[simp] theorem State.draw_gt : (s.draw).gt = s.gt := rfl
@[simp] theorem State.draw_ring : (s.draw).ring_ = s.ring_ := rfl
@[simp] theorem State.draw_pair : (s.draw).pair = s.pair := rfl
@[simp] theorem State.draw_ic : (s.draw).ic = s.ic := rfl
@[simp] theorem State.draw_fc : (s.draw).fc = s.fc := rfl
@[simp] theorem State.draw_cu : (s.draw).cu = s.cu := rfl
@[simp] theorem State.draw_sys : (s.draw).sys = s.sys := rfl
@[simp] theorem State.draw_tap : (s.draw).tap = s.tap := rfl

/-! ### emit -/

@[simp] theorem State.emit_pending (e : Emission) : (s.emit e).pending = s.pending := rfl
@[simp] theorem State.emit_now (e : Emission) : (s.emit e).now = s.now := rfl
@[simp] theorem State.emit_fresh (e : Emission) : (s.emit e).fresh = s.fresh := rfl
@[simp] theorem State.emit_regs (e : Emission) : (s.emit e).regs = s.regs := rfl
@[simp] theorem State.emit_staged (e : Emission) : (s.emit e).staged = s.staged := rfl
@[simp] theorem State.emit_noMaj (e : Emission) : (s.emit e).noMaj = s.noMaj := rfl
@[simp] theorem State.emit_noMajStaged (e : Emission) : (s.emit e).noMajStaged = s.noMajStaged := rfl
@[simp] theorem State.emit_copies (e : Emission) : (s.emit e).copies = s.copies := rfl
@[simp] theorem State.emit_copiesStaged (e : Emission) : (s.emit e).copiesStaged = s.copiesStaged := rfl
@[simp] theorem State.emit_inst (e : Emission) : (s.emit e).inst_ = s.inst_ := rfl
@[simp] theorem State.emit_time (e : Emission) : (s.emit e).time = s.time := rfl
@[simp] theorem State.emit_host (e : Emission) : (s.emit e).host = s.host := rfl
@[simp] theorem State.emit_img (e : Emission) : (s.emit e).img = s.img := rfl
@[simp] theorem State.emit_leaseRt (e : Emission) : (s.emit e).leaseRt = s.leaseRt := rfl
@[simp] theorem State.emit_fb (e : Emission) : (s.emit e).fb = s.fb := rfl
@[simp] theorem State.emit_tt (e : Emission) : (s.emit e).tt = s.tt := rfl
@[simp] theorem State.emit_anise (e : Emission) : (s.emit e).anise = s.anise := rfl
@[simp] theorem State.emit_pm (e : Emission) : (s.emit e).pm = s.pm := rfl
@[simp] theorem State.emit_pq (e : Emission) : (s.emit e).pq = s.pq := rfl
@[simp] theorem State.emit_rx (e : Emission) : (s.emit e).rx = s.rx := rfl
@[simp] theorem State.emit_ru (e : Emission) : (s.emit e).ru = s.ru := rfl
@[simp] theorem State.emit_sp (e : Emission) : (s.emit e).sp = s.sp := rfl
@[simp] theorem State.emit_stage (e : Emission) : (s.emit e).stage_ = s.stage_ := rfl
@[simp] theorem State.emit_db (e : Emission) : (s.emit e).db = s.db := rfl
@[simp] theorem State.emit_gt (e : Emission) : (s.emit e).gt = s.gt := rfl
@[simp] theorem State.emit_ring (e : Emission) : (s.emit e).ring_ = s.ring_ := rfl
@[simp] theorem State.emit_pair (e : Emission) : (s.emit e).pair = s.pair := rfl
@[simp] theorem State.emit_ic (e : Emission) : (s.emit e).ic = s.ic := rfl
@[simp] theorem State.emit_fc (e : Emission) : (s.emit e).fc = s.fc := rfl
@[simp] theorem State.emit_cu (e : Emission) : (s.emit e).cu = s.cu := rfl
@[simp] theorem State.emit_sys (e : Emission) : (s.emit e).sys = s.sys := rfl
@[simp] theorem State.emit_tap (e : Emission) : (s.emit e).tap = s.tap := rfl

/-! ### setLink -/

@[simp] theorem State.setLink_pending (k : Nat) (g : LinkSt → LinkSt) : (s.setLink k g).pending = s.pending := rfl
@[simp] theorem State.setLink_now (k : Nat) (g : LinkSt → LinkSt) : (s.setLink k g).now = s.now := rfl
@[simp] theorem State.setLink_fresh (k : Nat) (g : LinkSt → LinkSt) : (s.setLink k g).fresh = s.fresh := rfl
@[simp] theorem State.setLink_out (k : Nat) (g : LinkSt → LinkSt) : (s.setLink k g).out = s.out := rfl
@[simp] theorem State.setLink_regs (k : Nat) (g : LinkSt → LinkSt) : (s.setLink k g).regs = s.regs := rfl
@[simp] theorem State.setLink_staged (k : Nat) (g : LinkSt → LinkSt) : (s.setLink k g).staged = s.staged := rfl
@[simp] theorem State.setLink_noMaj (k : Nat) (g : LinkSt → LinkSt) : (s.setLink k g).noMaj = s.noMaj := rfl
@[simp] theorem State.setLink_noMajStaged (k : Nat) (g : LinkSt → LinkSt) : (s.setLink k g).noMajStaged = s.noMajStaged := rfl
@[simp] theorem State.setLink_copies (k : Nat) (g : LinkSt → LinkSt) : (s.setLink k g).copies = s.copies := rfl
@[simp] theorem State.setLink_copiesStaged (k : Nat) (g : LinkSt → LinkSt) : (s.setLink k g).copiesStaged = s.copiesStaged := rfl
@[simp] theorem State.setLink_inst (k : Nat) (g : LinkSt → LinkSt) : (s.setLink k g).inst_ = s.inst_ := rfl
@[simp] theorem State.setLink_time (k : Nat) (g : LinkSt → LinkSt) : (s.setLink k g).time = s.time := rfl
@[simp] theorem State.setLink_img (k : Nat) (g : LinkSt → LinkSt) : (s.setLink k g).img = s.img := rfl
@[simp] theorem State.setLink_leaseRt (k : Nat) (g : LinkSt → LinkSt) : (s.setLink k g).leaseRt = s.leaseRt := rfl
@[simp] theorem State.setLink_fb (k : Nat) (g : LinkSt → LinkSt) : (s.setLink k g).fb = s.fb := rfl
@[simp] theorem State.setLink_tt (k : Nat) (g : LinkSt → LinkSt) : (s.setLink k g).tt = s.tt := rfl
@[simp] theorem State.setLink_anise (k : Nat) (g : LinkSt → LinkSt) : (s.setLink k g).anise = s.anise := rfl
@[simp] theorem State.setLink_pm (k : Nat) (g : LinkSt → LinkSt) : (s.setLink k g).pm = s.pm := rfl
@[simp] theorem State.setLink_pq (k : Nat) (g : LinkSt → LinkSt) : (s.setLink k g).pq = s.pq := rfl
@[simp] theorem State.setLink_rx (k : Nat) (g : LinkSt → LinkSt) : (s.setLink k g).rx = s.rx := rfl
@[simp] theorem State.setLink_ru (k : Nat) (g : LinkSt → LinkSt) : (s.setLink k g).ru = s.ru := rfl
@[simp] theorem State.setLink_sp (k : Nat) (g : LinkSt → LinkSt) : (s.setLink k g).sp = s.sp := rfl
@[simp] theorem State.setLink_stage (k : Nat) (g : LinkSt → LinkSt) : (s.setLink k g).stage_ = s.stage_ := rfl
@[simp] theorem State.setLink_db (k : Nat) (g : LinkSt → LinkSt) : (s.setLink k g).db = s.db := rfl
@[simp] theorem State.setLink_gt (k : Nat) (g : LinkSt → LinkSt) : (s.setLink k g).gt = s.gt := rfl
@[simp] theorem State.setLink_ring (k : Nat) (g : LinkSt → LinkSt) : (s.setLink k g).ring_ = s.ring_ := rfl
@[simp] theorem State.setLink_pair (k : Nat) (g : LinkSt → LinkSt) : (s.setLink k g).pair = s.pair := rfl
@[simp] theorem State.setLink_ic (k : Nat) (g : LinkSt → LinkSt) : (s.setLink k g).ic = s.ic := rfl
@[simp] theorem State.setLink_fc (k : Nat) (g : LinkSt → LinkSt) : (s.setLink k g).fc = s.fc := rfl
@[simp] theorem State.setLink_cu (k : Nat) (g : LinkSt → LinkSt) : (s.setLink k g).cu = s.cu := rfl
@[simp] theorem State.setLink_sys (k : Nat) (g : LinkSt → LinkSt) : (s.setLink k g).sys = s.sys := rfl
@[simp] theorem State.setLink_tap (k : Nat) (g : LinkSt → LinkSt) : (s.setLink k g).tap = s.tap := rfl

/-! ### setFunc -/

@[simp] theorem State.setFunc_pending (f : Func) (g : FnSt → FnSt) : (s.setFunc f g).pending = s.pending := rfl
@[simp] theorem State.setFunc_now (f : Func) (g : FnSt → FnSt) : (s.setFunc f g).now = s.now := rfl
@[simp] theorem State.setFunc_fresh (f : Func) (g : FnSt → FnSt) : (s.setFunc f g).fresh = s.fresh := rfl
@[simp] theorem State.setFunc_out (f : Func) (g : FnSt → FnSt) : (s.setFunc f g).out = s.out := rfl
@[simp] theorem State.setFunc_regs (f : Func) (g : FnSt → FnSt) : (s.setFunc f g).regs = s.regs := rfl
@[simp] theorem State.setFunc_staged (f : Func) (g : FnSt → FnSt) : (s.setFunc f g).staged = s.staged := rfl
@[simp] theorem State.setFunc_noMaj (f : Func) (g : FnSt → FnSt) : (s.setFunc f g).noMaj = s.noMaj := rfl
@[simp] theorem State.setFunc_noMajStaged (f : Func) (g : FnSt → FnSt) : (s.setFunc f g).noMajStaged = s.noMajStaged := rfl
@[simp] theorem State.setFunc_copies (f : Func) (g : FnSt → FnSt) : (s.setFunc f g).copies = s.copies := rfl
@[simp] theorem State.setFunc_copiesStaged (f : Func) (g : FnSt → FnSt) : (s.setFunc f g).copiesStaged = s.copiesStaged := rfl
@[simp] theorem State.setFunc_inst (f : Func) (g : FnSt → FnSt) : (s.setFunc f g).inst_ = s.inst_ := rfl
@[simp] theorem State.setFunc_time (f : Func) (g : FnSt → FnSt) : (s.setFunc f g).time = s.time := rfl
@[simp] theorem State.setFunc_img (f : Func) (g : FnSt → FnSt) : (s.setFunc f g).img = s.img := rfl
@[simp] theorem State.setFunc_leaseRt (f : Func) (g : FnSt → FnSt) : (s.setFunc f g).leaseRt = s.leaseRt := rfl
@[simp] theorem State.setFunc_fb (f : Func) (g : FnSt → FnSt) : (s.setFunc f g).fb = s.fb := rfl
@[simp] theorem State.setFunc_tt (f : Func) (g : FnSt → FnSt) : (s.setFunc f g).tt = s.tt := rfl
@[simp] theorem State.setFunc_anise (f : Func) (g : FnSt → FnSt) : (s.setFunc f g).anise = s.anise := rfl
@[simp] theorem State.setFunc_pm (f : Func) (g : FnSt → FnSt) : (s.setFunc f g).pm = s.pm := rfl
@[simp] theorem State.setFunc_pq (f : Func) (g : FnSt → FnSt) : (s.setFunc f g).pq = s.pq := rfl
@[simp] theorem State.setFunc_rx (f : Func) (g : FnSt → FnSt) : (s.setFunc f g).rx = s.rx := rfl
@[simp] theorem State.setFunc_ru (f : Func) (g : FnSt → FnSt) : (s.setFunc f g).ru = s.ru := rfl
@[simp] theorem State.setFunc_sp (f : Func) (g : FnSt → FnSt) : (s.setFunc f g).sp = s.sp := rfl
@[simp] theorem State.setFunc_stage (f : Func) (g : FnSt → FnSt) : (s.setFunc f g).stage_ = s.stage_ := rfl
@[simp] theorem State.setFunc_db (f : Func) (g : FnSt → FnSt) : (s.setFunc f g).db = s.db := rfl
@[simp] theorem State.setFunc_gt (f : Func) (g : FnSt → FnSt) : (s.setFunc f g).gt = s.gt := rfl
@[simp] theorem State.setFunc_ring (f : Func) (g : FnSt → FnSt) : (s.setFunc f g).ring_ = s.ring_ := rfl
@[simp] theorem State.setFunc_pair (f : Func) (g : FnSt → FnSt) : (s.setFunc f g).pair = s.pair := rfl
@[simp] theorem State.setFunc_ic (f : Func) (g : FnSt → FnSt) : (s.setFunc f g).ic = s.ic := rfl
@[simp] theorem State.setFunc_fc (f : Func) (g : FnSt → FnSt) : (s.setFunc f g).fc = s.fc := rfl
@[simp] theorem State.setFunc_cu (f : Func) (g : FnSt → FnSt) : (s.setFunc f g).cu = s.cu := rfl
@[simp] theorem State.setFunc_sys (f : Func) (g : FnSt → FnSt) : (s.setFunc f g).sys = s.sys := rfl
@[simp] theorem State.setFunc_tap (f : Func) (g : FnSt → FnSt) : (s.setFunc f g).tap = s.tap := rfl

/-! ### setRing -/

@[simp] theorem State.setRing_pending (r : Nat) (g : Ring → Ring) : (s.setRing r g).pending = s.pending := rfl
@[simp] theorem State.setRing_now (r : Nat) (g : Ring → Ring) : (s.setRing r g).now = s.now := rfl
@[simp] theorem State.setRing_fresh (r : Nat) (g : Ring → Ring) : (s.setRing r g).fresh = s.fresh := rfl
@[simp] theorem State.setRing_out (r : Nat) (g : Ring → Ring) : (s.setRing r g).out = s.out := rfl
@[simp] theorem State.setRing_regs (r : Nat) (g : Ring → Ring) : (s.setRing r g).regs = s.regs := rfl
@[simp] theorem State.setRing_staged (r : Nat) (g : Ring → Ring) : (s.setRing r g).staged = s.staged := rfl
@[simp] theorem State.setRing_noMaj (r : Nat) (g : Ring → Ring) : (s.setRing r g).noMaj = s.noMaj := rfl
@[simp] theorem State.setRing_noMajStaged (r : Nat) (g : Ring → Ring) : (s.setRing r g).noMajStaged = s.noMajStaged := rfl
@[simp] theorem State.setRing_copies (r : Nat) (g : Ring → Ring) : (s.setRing r g).copies = s.copies := rfl
@[simp] theorem State.setRing_copiesStaged (r : Nat) (g : Ring → Ring) : (s.setRing r g).copiesStaged = s.copiesStaged := rfl
@[simp] theorem State.setRing_inst (r : Nat) (g : Ring → Ring) : (s.setRing r g).inst_ = s.inst_ := rfl
@[simp] theorem State.setRing_time (r : Nat) (g : Ring → Ring) : (s.setRing r g).time = s.time := rfl
@[simp] theorem State.setRing_img (r : Nat) (g : Ring → Ring) : (s.setRing r g).img = s.img := rfl
@[simp] theorem State.setRing_leaseRt (r : Nat) (g : Ring → Ring) : (s.setRing r g).leaseRt = s.leaseRt := rfl
@[simp] theorem State.setRing_fb (r : Nat) (g : Ring → Ring) : (s.setRing r g).fb = s.fb := rfl
@[simp] theorem State.setRing_tt (r : Nat) (g : Ring → Ring) : (s.setRing r g).tt = s.tt := rfl
@[simp] theorem State.setRing_anise (r : Nat) (g : Ring → Ring) : (s.setRing r g).anise = s.anise := rfl
@[simp] theorem State.setRing_pm (r : Nat) (g : Ring → Ring) : (s.setRing r g).pm = s.pm := rfl
@[simp] theorem State.setRing_pq (r : Nat) (g : Ring → Ring) : (s.setRing r g).pq = s.pq := rfl
@[simp] theorem State.setRing_rx (r : Nat) (g : Ring → Ring) : (s.setRing r g).rx = s.rx := rfl
@[simp] theorem State.setRing_ru (r : Nat) (g : Ring → Ring) : (s.setRing r g).ru = s.ru := rfl
@[simp] theorem State.setRing_sp (r : Nat) (g : Ring → Ring) : (s.setRing r g).sp = s.sp := rfl
@[simp] theorem State.setRing_stage (r : Nat) (g : Ring → Ring) : (s.setRing r g).stage_ = s.stage_ := rfl
@[simp] theorem State.setRing_db (r : Nat) (g : Ring → Ring) : (s.setRing r g).db = s.db := rfl
@[simp] theorem State.setRing_gt (r : Nat) (g : Ring → Ring) : (s.setRing r g).gt = s.gt := rfl
@[simp] theorem State.setRing_ring (r : Nat) (g : Ring → Ring) : (s.setRing r g).ring_ = s.ring_ := rfl
@[simp] theorem State.setRing_pair (r : Nat) (g : Ring → Ring) : (s.setRing r g).pair = s.pair := rfl
@[simp] theorem State.setRing_ic (r : Nat) (g : Ring → Ring) : (s.setRing r g).ic = s.ic := rfl
@[simp] theorem State.setRing_fc (r : Nat) (g : Ring → Ring) : (s.setRing r g).fc = s.fc := rfl
@[simp] theorem State.setRing_cu (r : Nat) (g : Ring → Ring) : (s.setRing r g).cu = s.cu := rfl
@[simp] theorem State.setRing_sys (r : Nat) (g : Ring → Ring) : (s.setRing r g).sys = s.sys := rfl
@[simp] theorem State.setRing_tap (r : Nat) (g : Ring → Ring) : (s.setRing r g).tap = s.tap := rfl

/-! ### setPort -/

@[simp] theorem State.setPort_pending (p : Nat) (g : FbSt → FbSt) : (s.setPort p g).pending = s.pending := rfl
@[simp] theorem State.setPort_now (p : Nat) (g : FbSt → FbSt) : (s.setPort p g).now = s.now := rfl
@[simp] theorem State.setPort_fresh (p : Nat) (g : FbSt → FbSt) : (s.setPort p g).fresh = s.fresh := rfl
@[simp] theorem State.setPort_out (p : Nat) (g : FbSt → FbSt) : (s.setPort p g).out = s.out := rfl
@[simp] theorem State.setPort_regs (p : Nat) (g : FbSt → FbSt) : (s.setPort p g).regs = s.regs := rfl
@[simp] theorem State.setPort_staged (p : Nat) (g : FbSt → FbSt) : (s.setPort p g).staged = s.staged := rfl
@[simp] theorem State.setPort_noMaj (p : Nat) (g : FbSt → FbSt) : (s.setPort p g).noMaj = s.noMaj := rfl
@[simp] theorem State.setPort_noMajStaged (p : Nat) (g : FbSt → FbSt) : (s.setPort p g).noMajStaged = s.noMajStaged := rfl
@[simp] theorem State.setPort_copies (p : Nat) (g : FbSt → FbSt) : (s.setPort p g).copies = s.copies := rfl
@[simp] theorem State.setPort_copiesStaged (p : Nat) (g : FbSt → FbSt) : (s.setPort p g).copiesStaged = s.copiesStaged := rfl
@[simp] theorem State.setPort_inst (p : Nat) (g : FbSt → FbSt) : (s.setPort p g).inst_ = s.inst_ := rfl
@[simp] theorem State.setPort_time (p : Nat) (g : FbSt → FbSt) : (s.setPort p g).time = s.time := rfl
@[simp] theorem State.setPort_host (p : Nat) (g : FbSt → FbSt) : (s.setPort p g).host = s.host := rfl
@[simp] theorem State.setPort_img (p : Nat) (g : FbSt → FbSt) : (s.setPort p g).img = s.img := rfl
@[simp] theorem State.setPort_leaseRt (p : Nat) (g : FbSt → FbSt) : (s.setPort p g).leaseRt = s.leaseRt := rfl
@[simp] theorem State.setPort_tt (p : Nat) (g : FbSt → FbSt) : (s.setPort p g).tt = s.tt := rfl
@[simp] theorem State.setPort_anise (p : Nat) (g : FbSt → FbSt) : (s.setPort p g).anise = s.anise := rfl
@[simp] theorem State.setPort_pm (p : Nat) (g : FbSt → FbSt) : (s.setPort p g).pm = s.pm := rfl
@[simp] theorem State.setPort_pq (p : Nat) (g : FbSt → FbSt) : (s.setPort p g).pq = s.pq := rfl
@[simp] theorem State.setPort_rx (p : Nat) (g : FbSt → FbSt) : (s.setPort p g).rx = s.rx := rfl
@[simp] theorem State.setPort_ru (p : Nat) (g : FbSt → FbSt) : (s.setPort p g).ru = s.ru := rfl
@[simp] theorem State.setPort_sp (p : Nat) (g : FbSt → FbSt) : (s.setPort p g).sp = s.sp := rfl
@[simp] theorem State.setPort_stage (p : Nat) (g : FbSt → FbSt) : (s.setPort p g).stage_ = s.stage_ := rfl
@[simp] theorem State.setPort_db (p : Nat) (g : FbSt → FbSt) : (s.setPort p g).db = s.db := rfl
@[simp] theorem State.setPort_gt (p : Nat) (g : FbSt → FbSt) : (s.setPort p g).gt = s.gt := rfl
@[simp] theorem State.setPort_ring (p : Nat) (g : FbSt → FbSt) : (s.setPort p g).ring_ = s.ring_ := rfl
@[simp] theorem State.setPort_pair (p : Nat) (g : FbSt → FbSt) : (s.setPort p g).pair = s.pair := rfl
@[simp] theorem State.setPort_ic (p : Nat) (g : FbSt → FbSt) : (s.setPort p g).ic = s.ic := rfl
@[simp] theorem State.setPort_fc (p : Nat) (g : FbSt → FbSt) : (s.setPort p g).fc = s.fc := rfl
@[simp] theorem State.setPort_cu (p : Nat) (g : FbSt → FbSt) : (s.setPort p g).cu = s.cu := rfl
@[simp] theorem State.setPort_sys (p : Nat) (g : FbSt → FbSt) : (s.setPort p g).sys = s.sys := rfl
@[simp] theorem State.setPort_tap (p : Nat) (g : FbSt → FbSt) : (s.setPort p g).tap = s.tap := rfl

/-! ### setQueue -/

@[simp] theorem State.setQueue_pending (p : Nat) (g : PqSt → PqSt) : (s.setQueue p g).pending = s.pending := rfl
@[simp] theorem State.setQueue_now (p : Nat) (g : PqSt → PqSt) : (s.setQueue p g).now = s.now := rfl
@[simp] theorem State.setQueue_fresh (p : Nat) (g : PqSt → PqSt) : (s.setQueue p g).fresh = s.fresh := rfl
@[simp] theorem State.setQueue_out (p : Nat) (g : PqSt → PqSt) : (s.setQueue p g).out = s.out := rfl
@[simp] theorem State.setQueue_regs (p : Nat) (g : PqSt → PqSt) : (s.setQueue p g).regs = s.regs := rfl
@[simp] theorem State.setQueue_staged (p : Nat) (g : PqSt → PqSt) : (s.setQueue p g).staged = s.staged := rfl
@[simp] theorem State.setQueue_noMaj (p : Nat) (g : PqSt → PqSt) : (s.setQueue p g).noMaj = s.noMaj := rfl
@[simp] theorem State.setQueue_noMajStaged (p : Nat) (g : PqSt → PqSt) : (s.setQueue p g).noMajStaged = s.noMajStaged := rfl
@[simp] theorem State.setQueue_copies (p : Nat) (g : PqSt → PqSt) : (s.setQueue p g).copies = s.copies := rfl
@[simp] theorem State.setQueue_copiesStaged (p : Nat) (g : PqSt → PqSt) : (s.setQueue p g).copiesStaged = s.copiesStaged := rfl
@[simp] theorem State.setQueue_inst (p : Nat) (g : PqSt → PqSt) : (s.setQueue p g).inst_ = s.inst_ := rfl
@[simp] theorem State.setQueue_time (p : Nat) (g : PqSt → PqSt) : (s.setQueue p g).time = s.time := rfl
@[simp] theorem State.setQueue_host (p : Nat) (g : PqSt → PqSt) : (s.setQueue p g).host = s.host := rfl
@[simp] theorem State.setQueue_img (p : Nat) (g : PqSt → PqSt) : (s.setQueue p g).img = s.img := rfl
@[simp] theorem State.setQueue_leaseRt (p : Nat) (g : PqSt → PqSt) : (s.setQueue p g).leaseRt = s.leaseRt := rfl
@[simp] theorem State.setQueue_fb (p : Nat) (g : PqSt → PqSt) : (s.setQueue p g).fb = s.fb := rfl
@[simp] theorem State.setQueue_tt (p : Nat) (g : PqSt → PqSt) : (s.setQueue p g).tt = s.tt := rfl
@[simp] theorem State.setQueue_anise (p : Nat) (g : PqSt → PqSt) : (s.setQueue p g).anise = s.anise := rfl
@[simp] theorem State.setQueue_pm (p : Nat) (g : PqSt → PqSt) : (s.setQueue p g).pm = s.pm := rfl
@[simp] theorem State.setQueue_rx (p : Nat) (g : PqSt → PqSt) : (s.setQueue p g).rx = s.rx := rfl
@[simp] theorem State.setQueue_ru (p : Nat) (g : PqSt → PqSt) : (s.setQueue p g).ru = s.ru := rfl
@[simp] theorem State.setQueue_sp (p : Nat) (g : PqSt → PqSt) : (s.setQueue p g).sp = s.sp := rfl
@[simp] theorem State.setQueue_stage (p : Nat) (g : PqSt → PqSt) : (s.setQueue p g).stage_ = s.stage_ := rfl
@[simp] theorem State.setQueue_db (p : Nat) (g : PqSt → PqSt) : (s.setQueue p g).db = s.db := rfl
@[simp] theorem State.setQueue_gt (p : Nat) (g : PqSt → PqSt) : (s.setQueue p g).gt = s.gt := rfl
@[simp] theorem State.setQueue_ring (p : Nat) (g : PqSt → PqSt) : (s.setQueue p g).ring_ = s.ring_ := rfl
@[simp] theorem State.setQueue_pair (p : Nat) (g : PqSt → PqSt) : (s.setQueue p g).pair = s.pair := rfl
@[simp] theorem State.setQueue_ic (p : Nat) (g : PqSt → PqSt) : (s.setQueue p g).ic = s.ic := rfl
@[simp] theorem State.setQueue_fc (p : Nat) (g : PqSt → PqSt) : (s.setQueue p g).fc = s.fc := rfl
@[simp] theorem State.setQueue_cu (p : Nat) (g : PqSt → PqSt) : (s.setQueue p g).cu = s.cu := rfl
@[simp] theorem State.setQueue_sys (p : Nat) (g : PqSt → PqSt) : (s.setQueue p g).sys = s.sys := rfl
@[simp] theorem State.setQueue_tap (p : Nat) (g : PqSt → PqSt) : (s.setQueue p g).tap = s.tap := rfl

/-! ### setMbox -/

@[simp] theorem State.setMbox_pending (m : Nat) (g : Mailbox → Mailbox) : (s.setMbox m g).pending = s.pending := rfl
@[simp] theorem State.setMbox_now (m : Nat) (g : Mailbox → Mailbox) : (s.setMbox m g).now = s.now := rfl
@[simp] theorem State.setMbox_fresh (m : Nat) (g : Mailbox → Mailbox) : (s.setMbox m g).fresh = s.fresh := rfl
@[simp] theorem State.setMbox_out (m : Nat) (g : Mailbox → Mailbox) : (s.setMbox m g).out = s.out := rfl
@[simp] theorem State.setMbox_regs (m : Nat) (g : Mailbox → Mailbox) : (s.setMbox m g).regs = s.regs := rfl
@[simp] theorem State.setMbox_staged (m : Nat) (g : Mailbox → Mailbox) : (s.setMbox m g).staged = s.staged := rfl
@[simp] theorem State.setMbox_noMaj (m : Nat) (g : Mailbox → Mailbox) : (s.setMbox m g).noMaj = s.noMaj := rfl
@[simp] theorem State.setMbox_noMajStaged (m : Nat) (g : Mailbox → Mailbox) : (s.setMbox m g).noMajStaged = s.noMajStaged := rfl
@[simp] theorem State.setMbox_copies (m : Nat) (g : Mailbox → Mailbox) : (s.setMbox m g).copies = s.copies := rfl
@[simp] theorem State.setMbox_copiesStaged (m : Nat) (g : Mailbox → Mailbox) : (s.setMbox m g).copiesStaged = s.copiesStaged := rfl
@[simp] theorem State.setMbox_inst (m : Nat) (g : Mailbox → Mailbox) : (s.setMbox m g).inst_ = s.inst_ := rfl
@[simp] theorem State.setMbox_time (m : Nat) (g : Mailbox → Mailbox) : (s.setMbox m g).time = s.time := rfl
@[simp] theorem State.setMbox_host (m : Nat) (g : Mailbox → Mailbox) : (s.setMbox m g).host = s.host := rfl
@[simp] theorem State.setMbox_img (m : Nat) (g : Mailbox → Mailbox) : (s.setMbox m g).img = s.img := rfl
@[simp] theorem State.setMbox_leaseRt (m : Nat) (g : Mailbox → Mailbox) : (s.setMbox m g).leaseRt = s.leaseRt := rfl
@[simp] theorem State.setMbox_fb (m : Nat) (g : Mailbox → Mailbox) : (s.setMbox m g).fb = s.fb := rfl
@[simp] theorem State.setMbox_tt (m : Nat) (g : Mailbox → Mailbox) : (s.setMbox m g).tt = s.tt := rfl
@[simp] theorem State.setMbox_anise (m : Nat) (g : Mailbox → Mailbox) : (s.setMbox m g).anise = s.anise := rfl
@[simp] theorem State.setMbox_pm (m : Nat) (g : Mailbox → Mailbox) : (s.setMbox m g).pm = s.pm := rfl
@[simp] theorem State.setMbox_pq (m : Nat) (g : Mailbox → Mailbox) : (s.setMbox m g).pq = s.pq := rfl
@[simp] theorem State.setMbox_ru (m : Nat) (g : Mailbox → Mailbox) : (s.setMbox m g).ru = s.ru := rfl
@[simp] theorem State.setMbox_sp (m : Nat) (g : Mailbox → Mailbox) : (s.setMbox m g).sp = s.sp := rfl
@[simp] theorem State.setMbox_stage (m : Nat) (g : Mailbox → Mailbox) : (s.setMbox m g).stage_ = s.stage_ := rfl
@[simp] theorem State.setMbox_db (m : Nat) (g : Mailbox → Mailbox) : (s.setMbox m g).db = s.db := rfl
@[simp] theorem State.setMbox_gt (m : Nat) (g : Mailbox → Mailbox) : (s.setMbox m g).gt = s.gt := rfl
@[simp] theorem State.setMbox_ring (m : Nat) (g : Mailbox → Mailbox) : (s.setMbox m g).ring_ = s.ring_ := rfl
@[simp] theorem State.setMbox_pair (m : Nat) (g : Mailbox → Mailbox) : (s.setMbox m g).pair = s.pair := rfl
@[simp] theorem State.setMbox_ic (m : Nat) (g : Mailbox → Mailbox) : (s.setMbox m g).ic = s.ic := rfl
@[simp] theorem State.setMbox_fc (m : Nat) (g : Mailbox → Mailbox) : (s.setMbox m g).fc = s.fc := rfl
@[simp] theorem State.setMbox_cu (m : Nat) (g : Mailbox → Mailbox) : (s.setMbox m g).cu = s.cu := rfl
@[simp] theorem State.setMbox_sys (m : Nat) (g : Mailbox → Mailbox) : (s.setMbox m g).sys = s.sys := rfl
@[simp] theorem State.setMbox_tap (m : Nat) (g : Mailbox → Mailbox) : (s.setMbox m g).tap = s.tap := rfl

/-! ### setSlot -/

@[simp] theorem State.setSlot_pending (k : Nat) (g : StoredFrame → StoredFrame) : (s.setSlot k g).pending = s.pending := rfl
@[simp] theorem State.setSlot_now (k : Nat) (g : StoredFrame → StoredFrame) : (s.setSlot k g).now = s.now := rfl
@[simp] theorem State.setSlot_fresh (k : Nat) (g : StoredFrame → StoredFrame) : (s.setSlot k g).fresh = s.fresh := rfl
@[simp] theorem State.setSlot_out (k : Nat) (g : StoredFrame → StoredFrame) : (s.setSlot k g).out = s.out := rfl
@[simp] theorem State.setSlot_regs (k : Nat) (g : StoredFrame → StoredFrame) : (s.setSlot k g).regs = s.regs := rfl
@[simp] theorem State.setSlot_staged (k : Nat) (g : StoredFrame → StoredFrame) : (s.setSlot k g).staged = s.staged := rfl
@[simp] theorem State.setSlot_noMaj (k : Nat) (g : StoredFrame → StoredFrame) : (s.setSlot k g).noMaj = s.noMaj := rfl
@[simp] theorem State.setSlot_noMajStaged (k : Nat) (g : StoredFrame → StoredFrame) : (s.setSlot k g).noMajStaged = s.noMajStaged := rfl
@[simp] theorem State.setSlot_copies (k : Nat) (g : StoredFrame → StoredFrame) : (s.setSlot k g).copies = s.copies := rfl
@[simp] theorem State.setSlot_copiesStaged (k : Nat) (g : StoredFrame → StoredFrame) : (s.setSlot k g).copiesStaged = s.copiesStaged := rfl
@[simp] theorem State.setSlot_inst (k : Nat) (g : StoredFrame → StoredFrame) : (s.setSlot k g).inst_ = s.inst_ := rfl
@[simp] theorem State.setSlot_time (k : Nat) (g : StoredFrame → StoredFrame) : (s.setSlot k g).time = s.time := rfl
@[simp] theorem State.setSlot_host (k : Nat) (g : StoredFrame → StoredFrame) : (s.setSlot k g).host = s.host := rfl
@[simp] theorem State.setSlot_img (k : Nat) (g : StoredFrame → StoredFrame) : (s.setSlot k g).img = s.img := rfl
@[simp] theorem State.setSlot_leaseRt (k : Nat) (g : StoredFrame → StoredFrame) : (s.setSlot k g).leaseRt = s.leaseRt := rfl
@[simp] theorem State.setSlot_fb (k : Nat) (g : StoredFrame → StoredFrame) : (s.setSlot k g).fb = s.fb := rfl
@[simp] theorem State.setSlot_tt (k : Nat) (g : StoredFrame → StoredFrame) : (s.setSlot k g).tt = s.tt := rfl
@[simp] theorem State.setSlot_anise (k : Nat) (g : StoredFrame → StoredFrame) : (s.setSlot k g).anise = s.anise := rfl
@[simp] theorem State.setSlot_pm (k : Nat) (g : StoredFrame → StoredFrame) : (s.setSlot k g).pm = s.pm := rfl
@[simp] theorem State.setSlot_pq (k : Nat) (g : StoredFrame → StoredFrame) : (s.setSlot k g).pq = s.pq := rfl
@[simp] theorem State.setSlot_ru (k : Nat) (g : StoredFrame → StoredFrame) : (s.setSlot k g).ru = s.ru := rfl
@[simp] theorem State.setSlot_sp (k : Nat) (g : StoredFrame → StoredFrame) : (s.setSlot k g).sp = s.sp := rfl
@[simp] theorem State.setSlot_stage (k : Nat) (g : StoredFrame → StoredFrame) : (s.setSlot k g).stage_ = s.stage_ := rfl
@[simp] theorem State.setSlot_db (k : Nat) (g : StoredFrame → StoredFrame) : (s.setSlot k g).db = s.db := rfl
@[simp] theorem State.setSlot_gt (k : Nat) (g : StoredFrame → StoredFrame) : (s.setSlot k g).gt = s.gt := rfl
@[simp] theorem State.setSlot_ring (k : Nat) (g : StoredFrame → StoredFrame) : (s.setSlot k g).ring_ = s.ring_ := rfl
@[simp] theorem State.setSlot_pair (k : Nat) (g : StoredFrame → StoredFrame) : (s.setSlot k g).pair = s.pair := rfl
@[simp] theorem State.setSlot_ic (k : Nat) (g : StoredFrame → StoredFrame) : (s.setSlot k g).ic = s.ic := rfl
@[simp] theorem State.setSlot_fc (k : Nat) (g : StoredFrame → StoredFrame) : (s.setSlot k g).fc = s.fc := rfl
@[simp] theorem State.setSlot_cu (k : Nat) (g : StoredFrame → StoredFrame) : (s.setSlot k g).cu = s.cu := rfl
@[simp] theorem State.setSlot_sys (k : Nat) (g : StoredFrame → StoredFrame) : (s.setSlot k g).sys = s.sys := rfl
@[simp] theorem State.setSlot_tap (k : Nat) (g : StoredFrame → StoredFrame) : (s.setSlot k g).tap = s.tap := rfl

/-! ### setGrp -/

@[simp] theorem State.setGrp_pending (k : Nat) (g : GroupSt → GroupSt) : (s.setGrp k g).pending = s.pending := rfl
@[simp] theorem State.setGrp_now (k : Nat) (g : GroupSt → GroupSt) : (s.setGrp k g).now = s.now := rfl
@[simp] theorem State.setGrp_fresh (k : Nat) (g : GroupSt → GroupSt) : (s.setGrp k g).fresh = s.fresh := rfl
@[simp] theorem State.setGrp_out (k : Nat) (g : GroupSt → GroupSt) : (s.setGrp k g).out = s.out := rfl
@[simp] theorem State.setGrp_regs (k : Nat) (g : GroupSt → GroupSt) : (s.setGrp k g).regs = s.regs := rfl
@[simp] theorem State.setGrp_staged (k : Nat) (g : GroupSt → GroupSt) : (s.setGrp k g).staged = s.staged := rfl
@[simp] theorem State.setGrp_noMaj (k : Nat) (g : GroupSt → GroupSt) : (s.setGrp k g).noMaj = s.noMaj := rfl
@[simp] theorem State.setGrp_noMajStaged (k : Nat) (g : GroupSt → GroupSt) : (s.setGrp k g).noMajStaged = s.noMajStaged := rfl
@[simp] theorem State.setGrp_copies (k : Nat) (g : GroupSt → GroupSt) : (s.setGrp k g).copies = s.copies := rfl
@[simp] theorem State.setGrp_copiesStaged (k : Nat) (g : GroupSt → GroupSt) : (s.setGrp k g).copiesStaged = s.copiesStaged := rfl
@[simp] theorem State.setGrp_inst (k : Nat) (g : GroupSt → GroupSt) : (s.setGrp k g).inst_ = s.inst_ := rfl
@[simp] theorem State.setGrp_time (k : Nat) (g : GroupSt → GroupSt) : (s.setGrp k g).time = s.time := rfl
@[simp] theorem State.setGrp_host (k : Nat) (g : GroupSt → GroupSt) : (s.setGrp k g).host = s.host := rfl
@[simp] theorem State.setGrp_img (k : Nat) (g : GroupSt → GroupSt) : (s.setGrp k g).img = s.img := rfl
@[simp] theorem State.setGrp_leaseRt (k : Nat) (g : GroupSt → GroupSt) : (s.setGrp k g).leaseRt = s.leaseRt := rfl
@[simp] theorem State.setGrp_fb (k : Nat) (g : GroupSt → GroupSt) : (s.setGrp k g).fb = s.fb := rfl
@[simp] theorem State.setGrp_tt (k : Nat) (g : GroupSt → GroupSt) : (s.setGrp k g).tt = s.tt := rfl
@[simp] theorem State.setGrp_anise (k : Nat) (g : GroupSt → GroupSt) : (s.setGrp k g).anise = s.anise := rfl
@[simp] theorem State.setGrp_pm (k : Nat) (g : GroupSt → GroupSt) : (s.setGrp k g).pm = s.pm := rfl
@[simp] theorem State.setGrp_pq (k : Nat) (g : GroupSt → GroupSt) : (s.setGrp k g).pq = s.pq := rfl
@[simp] theorem State.setGrp_rx (k : Nat) (g : GroupSt → GroupSt) : (s.setGrp k g).rx = s.rx := rfl
@[simp] theorem State.setGrp_ru (k : Nat) (g : GroupSt → GroupSt) : (s.setGrp k g).ru = s.ru := rfl
@[simp] theorem State.setGrp_sp (k : Nat) (g : GroupSt → GroupSt) : (s.setGrp k g).sp = s.sp := rfl
@[simp] theorem State.setGrp_stage (k : Nat) (g : GroupSt → GroupSt) : (s.setGrp k g).stage_ = s.stage_ := rfl
@[simp] theorem State.setGrp_db (k : Nat) (g : GroupSt → GroupSt) : (s.setGrp k g).db = s.db := rfl
@[simp] theorem State.setGrp_ring (k : Nat) (g : GroupSt → GroupSt) : (s.setGrp k g).ring_ = s.ring_ := rfl
@[simp] theorem State.setGrp_pair (k : Nat) (g : GroupSt → GroupSt) : (s.setGrp k g).pair = s.pair := rfl
@[simp] theorem State.setGrp_ic (k : Nat) (g : GroupSt → GroupSt) : (s.setGrp k g).ic = s.ic := rfl
@[simp] theorem State.setGrp_fc (k : Nat) (g : GroupSt → GroupSt) : (s.setGrp k g).fc = s.fc := rfl
@[simp] theorem State.setGrp_cu (k : Nat) (g : GroupSt → GroupSt) : (s.setGrp k g).cu = s.cu := rfl
@[simp] theorem State.setGrp_sys (k : Nat) (g : GroupSt → GroupSt) : (s.setGrp k g).sys = s.sys := rfl
@[simp] theorem State.setGrp_tap (k : Nat) (g : GroupSt → GroupSt) : (s.setGrp k g).tap = s.tap := rfl

/-! ### setLp -/

@[simp] theorem State.setLp_pending (n : Nat) (g : LinkPort → LinkPort) : (s.setLp n g).pending = s.pending := rfl
@[simp] theorem State.setLp_now (n : Nat) (g : LinkPort → LinkPort) : (s.setLp n g).now = s.now := rfl
@[simp] theorem State.setLp_fresh (n : Nat) (g : LinkPort → LinkPort) : (s.setLp n g).fresh = s.fresh := rfl
@[simp] theorem State.setLp_out (n : Nat) (g : LinkPort → LinkPort) : (s.setLp n g).out = s.out := rfl
@[simp] theorem State.setLp_regs (n : Nat) (g : LinkPort → LinkPort) : (s.setLp n g).regs = s.regs := rfl
@[simp] theorem State.setLp_staged (n : Nat) (g : LinkPort → LinkPort) : (s.setLp n g).staged = s.staged := rfl
@[simp] theorem State.setLp_noMaj (n : Nat) (g : LinkPort → LinkPort) : (s.setLp n g).noMaj = s.noMaj := rfl
@[simp] theorem State.setLp_noMajStaged (n : Nat) (g : LinkPort → LinkPort) : (s.setLp n g).noMajStaged = s.noMajStaged := rfl
@[simp] theorem State.setLp_copies (n : Nat) (g : LinkPort → LinkPort) : (s.setLp n g).copies = s.copies := rfl
@[simp] theorem State.setLp_copiesStaged (n : Nat) (g : LinkPort → LinkPort) : (s.setLp n g).copiesStaged = s.copiesStaged := rfl
@[simp] theorem State.setLp_inst (n : Nat) (g : LinkPort → LinkPort) : (s.setLp n g).inst_ = s.inst_ := rfl
@[simp] theorem State.setLp_time (n : Nat) (g : LinkPort → LinkPort) : (s.setLp n g).time = s.time := rfl
@[simp] theorem State.setLp_host (n : Nat) (g : LinkPort → LinkPort) : (s.setLp n g).host = s.host := rfl
@[simp] theorem State.setLp_img (n : Nat) (g : LinkPort → LinkPort) : (s.setLp n g).img = s.img := rfl
@[simp] theorem State.setLp_leaseRt (n : Nat) (g : LinkPort → LinkPort) : (s.setLp n g).leaseRt = s.leaseRt := rfl
@[simp] theorem State.setLp_fb (n : Nat) (g : LinkPort → LinkPort) : (s.setLp n g).fb = s.fb := rfl
@[simp] theorem State.setLp_tt (n : Nat) (g : LinkPort → LinkPort) : (s.setLp n g).tt = s.tt := rfl
@[simp] theorem State.setLp_anise (n : Nat) (g : LinkPort → LinkPort) : (s.setLp n g).anise = s.anise := rfl
@[simp] theorem State.setLp_pm (n : Nat) (g : LinkPort → LinkPort) : (s.setLp n g).pm = s.pm := rfl
@[simp] theorem State.setLp_pq (n : Nat) (g : LinkPort → LinkPort) : (s.setLp n g).pq = s.pq := rfl
@[simp] theorem State.setLp_rx (n : Nat) (g : LinkPort → LinkPort) : (s.setLp n g).rx = s.rx := rfl
@[simp] theorem State.setLp_ru (n : Nat) (g : LinkPort → LinkPort) : (s.setLp n g).ru = s.ru := rfl
@[simp] theorem State.setLp_sp (n : Nat) (g : LinkPort → LinkPort) : (s.setLp n g).sp = s.sp := rfl
@[simp] theorem State.setLp_stage (n : Nat) (g : LinkPort → LinkPort) : (s.setLp n g).stage_ = s.stage_ := rfl
@[simp] theorem State.setLp_db (n : Nat) (g : LinkPort → LinkPort) : (s.setLp n g).db = s.db := rfl
@[simp] theorem State.setLp_gt (n : Nat) (g : LinkPort → LinkPort) : (s.setLp n g).gt = s.gt := rfl
@[simp] theorem State.setLp_pair (n : Nat) (g : LinkPort → LinkPort) : (s.setLp n g).pair = s.pair := rfl
@[simp] theorem State.setLp_ic (n : Nat) (g : LinkPort → LinkPort) : (s.setLp n g).ic = s.ic := rfl
@[simp] theorem State.setLp_fc (n : Nat) (g : LinkPort → LinkPort) : (s.setLp n g).fc = s.fc := rfl
@[simp] theorem State.setLp_cu (n : Nat) (g : LinkPort → LinkPort) : (s.setLp n g).cu = s.cu := rfl
@[simp] theorem State.setLp_sys (n : Nat) (g : LinkPort → LinkPort) : (s.setLp n g).sys = s.sys := rfl
@[simp] theorem State.setLp_tap (n : Nat) (g : LinkPort → LinkPort) : (s.setLp n g).tap = s.tap := rfl

/-! ### setTt -/

@[simp] theorem State.setTt_pending (p : Nat) (g : TtSt → TtSt) : (s.setTt p g).pending = s.pending := rfl
@[simp] theorem State.setTt_now (p : Nat) (g : TtSt → TtSt) : (s.setTt p g).now = s.now := rfl
@[simp] theorem State.setTt_fresh (p : Nat) (g : TtSt → TtSt) : (s.setTt p g).fresh = s.fresh := rfl
@[simp] theorem State.setTt_out (p : Nat) (g : TtSt → TtSt) : (s.setTt p g).out = s.out := rfl
@[simp] theorem State.setTt_regs (p : Nat) (g : TtSt → TtSt) : (s.setTt p g).regs = s.regs := rfl
@[simp] theorem State.setTt_staged (p : Nat) (g : TtSt → TtSt) : (s.setTt p g).staged = s.staged := rfl
@[simp] theorem State.setTt_noMaj (p : Nat) (g : TtSt → TtSt) : (s.setTt p g).noMaj = s.noMaj := rfl
@[simp] theorem State.setTt_noMajStaged (p : Nat) (g : TtSt → TtSt) : (s.setTt p g).noMajStaged = s.noMajStaged := rfl
@[simp] theorem State.setTt_copies (p : Nat) (g : TtSt → TtSt) : (s.setTt p g).copies = s.copies := rfl
@[simp] theorem State.setTt_copiesStaged (p : Nat) (g : TtSt → TtSt) : (s.setTt p g).copiesStaged = s.copiesStaged := rfl
@[simp] theorem State.setTt_inst (p : Nat) (g : TtSt → TtSt) : (s.setTt p g).inst_ = s.inst_ := rfl
@[simp] theorem State.setTt_time (p : Nat) (g : TtSt → TtSt) : (s.setTt p g).time = s.time := rfl
@[simp] theorem State.setTt_host (p : Nat) (g : TtSt → TtSt) : (s.setTt p g).host = s.host := rfl
@[simp] theorem State.setTt_img (p : Nat) (g : TtSt → TtSt) : (s.setTt p g).img = s.img := rfl
@[simp] theorem State.setTt_leaseRt (p : Nat) (g : TtSt → TtSt) : (s.setTt p g).leaseRt = s.leaseRt := rfl
@[simp] theorem State.setTt_fb (p : Nat) (g : TtSt → TtSt) : (s.setTt p g).fb = s.fb := rfl
@[simp] theorem State.setTt_anise (p : Nat) (g : TtSt → TtSt) : (s.setTt p g).anise = s.anise := rfl
@[simp] theorem State.setTt_pm (p : Nat) (g : TtSt → TtSt) : (s.setTt p g).pm = s.pm := rfl
@[simp] theorem State.setTt_pq (p : Nat) (g : TtSt → TtSt) : (s.setTt p g).pq = s.pq := rfl
@[simp] theorem State.setTt_rx (p : Nat) (g : TtSt → TtSt) : (s.setTt p g).rx = s.rx := rfl
@[simp] theorem State.setTt_ru (p : Nat) (g : TtSt → TtSt) : (s.setTt p g).ru = s.ru := rfl
@[simp] theorem State.setTt_sp (p : Nat) (g : TtSt → TtSt) : (s.setTt p g).sp = s.sp := rfl
@[simp] theorem State.setTt_stage (p : Nat) (g : TtSt → TtSt) : (s.setTt p g).stage_ = s.stage_ := rfl
@[simp] theorem State.setTt_db (p : Nat) (g : TtSt → TtSt) : (s.setTt p g).db = s.db := rfl
@[simp] theorem State.setTt_gt (p : Nat) (g : TtSt → TtSt) : (s.setTt p g).gt = s.gt := rfl
@[simp] theorem State.setTt_ring (p : Nat) (g : TtSt → TtSt) : (s.setTt p g).ring_ = s.ring_ := rfl
@[simp] theorem State.setTt_pair (p : Nat) (g : TtSt → TtSt) : (s.setTt p g).pair = s.pair := rfl
@[simp] theorem State.setTt_ic (p : Nat) (g : TtSt → TtSt) : (s.setTt p g).ic = s.ic := rfl
@[simp] theorem State.setTt_fc (p : Nat) (g : TtSt → TtSt) : (s.setTt p g).fc = s.fc := rfl
@[simp] theorem State.setTt_cu (p : Nat) (g : TtSt → TtSt) : (s.setTt p g).cu = s.cu := rfl
@[simp] theorem State.setTt_sys (p : Nat) (g : TtSt → TtSt) : (s.setTt p g).sys = s.sys := rfl
@[simp] theorem State.setTt_tap (p : Nat) (g : TtSt → TtSt) : (s.setTt p g).tap = s.tap := rfl

/-! ### setAn -/

@[simp] theorem State.setAn_pending (p : Nat) (g : AniseSt → AniseSt) : (s.setAn p g).pending = s.pending := rfl
@[simp] theorem State.setAn_now (p : Nat) (g : AniseSt → AniseSt) : (s.setAn p g).now = s.now := rfl
@[simp] theorem State.setAn_fresh (p : Nat) (g : AniseSt → AniseSt) : (s.setAn p g).fresh = s.fresh := rfl
@[simp] theorem State.setAn_out (p : Nat) (g : AniseSt → AniseSt) : (s.setAn p g).out = s.out := rfl
@[simp] theorem State.setAn_regs (p : Nat) (g : AniseSt → AniseSt) : (s.setAn p g).regs = s.regs := rfl
@[simp] theorem State.setAn_staged (p : Nat) (g : AniseSt → AniseSt) : (s.setAn p g).staged = s.staged := rfl
@[simp] theorem State.setAn_noMaj (p : Nat) (g : AniseSt → AniseSt) : (s.setAn p g).noMaj = s.noMaj := rfl
@[simp] theorem State.setAn_noMajStaged (p : Nat) (g : AniseSt → AniseSt) : (s.setAn p g).noMajStaged = s.noMajStaged := rfl
@[simp] theorem State.setAn_copies (p : Nat) (g : AniseSt → AniseSt) : (s.setAn p g).copies = s.copies := rfl
@[simp] theorem State.setAn_copiesStaged (p : Nat) (g : AniseSt → AniseSt) : (s.setAn p g).copiesStaged = s.copiesStaged := rfl
@[simp] theorem State.setAn_inst (p : Nat) (g : AniseSt → AniseSt) : (s.setAn p g).inst_ = s.inst_ := rfl
@[simp] theorem State.setAn_time (p : Nat) (g : AniseSt → AniseSt) : (s.setAn p g).time = s.time := rfl
@[simp] theorem State.setAn_host (p : Nat) (g : AniseSt → AniseSt) : (s.setAn p g).host = s.host := rfl
@[simp] theorem State.setAn_img (p : Nat) (g : AniseSt → AniseSt) : (s.setAn p g).img = s.img := rfl
@[simp] theorem State.setAn_leaseRt (p : Nat) (g : AniseSt → AniseSt) : (s.setAn p g).leaseRt = s.leaseRt := rfl
@[simp] theorem State.setAn_fb (p : Nat) (g : AniseSt → AniseSt) : (s.setAn p g).fb = s.fb := rfl
@[simp] theorem State.setAn_tt (p : Nat) (g : AniseSt → AniseSt) : (s.setAn p g).tt = s.tt := rfl
@[simp] theorem State.setAn_pm (p : Nat) (g : AniseSt → AniseSt) : (s.setAn p g).pm = s.pm := rfl
@[simp] theorem State.setAn_pq (p : Nat) (g : AniseSt → AniseSt) : (s.setAn p g).pq = s.pq := rfl
@[simp] theorem State.setAn_rx (p : Nat) (g : AniseSt → AniseSt) : (s.setAn p g).rx = s.rx := rfl
@[simp] theorem State.setAn_ru (p : Nat) (g : AniseSt → AniseSt) : (s.setAn p g).ru = s.ru := rfl
@[simp] theorem State.setAn_sp (p : Nat) (g : AniseSt → AniseSt) : (s.setAn p g).sp = s.sp := rfl
@[simp] theorem State.setAn_stage (p : Nat) (g : AniseSt → AniseSt) : (s.setAn p g).stage_ = s.stage_ := rfl
@[simp] theorem State.setAn_db (p : Nat) (g : AniseSt → AniseSt) : (s.setAn p g).db = s.db := rfl
@[simp] theorem State.setAn_gt (p : Nat) (g : AniseSt → AniseSt) : (s.setAn p g).gt = s.gt := rfl
@[simp] theorem State.setAn_ring (p : Nat) (g : AniseSt → AniseSt) : (s.setAn p g).ring_ = s.ring_ := rfl
@[simp] theorem State.setAn_pair (p : Nat) (g : AniseSt → AniseSt) : (s.setAn p g).pair = s.pair := rfl
@[simp] theorem State.setAn_ic (p : Nat) (g : AniseSt → AniseSt) : (s.setAn p g).ic = s.ic := rfl
@[simp] theorem State.setAn_fc (p : Nat) (g : AniseSt → AniseSt) : (s.setAn p g).fc = s.fc := rfl
@[simp] theorem State.setAn_cu (p : Nat) (g : AniseSt → AniseSt) : (s.setAn p g).cu = s.cu := rfl
@[simp] theorem State.setAn_sys (p : Nat) (g : AniseSt → AniseSt) : (s.setAn p g).sys = s.sys := rfl
@[simp] theorem State.setAn_tap (p : Nat) (g : AniseSt → AniseSt) : (s.setAn p g).tap = s.tap := rfl

/-! ### setBank -/

@[simp] theorem State.setBank_pending (b : Nat) (g : DbSt → DbSt) : (s.setBank b g).pending = s.pending := rfl
@[simp] theorem State.setBank_now (b : Nat) (g : DbSt → DbSt) : (s.setBank b g).now = s.now := rfl
@[simp] theorem State.setBank_fresh (b : Nat) (g : DbSt → DbSt) : (s.setBank b g).fresh = s.fresh := rfl
@[simp] theorem State.setBank_out (b : Nat) (g : DbSt → DbSt) : (s.setBank b g).out = s.out := rfl
@[simp] theorem State.setBank_regs (b : Nat) (g : DbSt → DbSt) : (s.setBank b g).regs = s.regs := rfl
@[simp] theorem State.setBank_staged (b : Nat) (g : DbSt → DbSt) : (s.setBank b g).staged = s.staged := rfl
@[simp] theorem State.setBank_noMaj (b : Nat) (g : DbSt → DbSt) : (s.setBank b g).noMaj = s.noMaj := rfl
@[simp] theorem State.setBank_noMajStaged (b : Nat) (g : DbSt → DbSt) : (s.setBank b g).noMajStaged = s.noMajStaged := rfl
@[simp] theorem State.setBank_copies (b : Nat) (g : DbSt → DbSt) : (s.setBank b g).copies = s.copies := rfl
@[simp] theorem State.setBank_copiesStaged (b : Nat) (g : DbSt → DbSt) : (s.setBank b g).copiesStaged = s.copiesStaged := rfl
@[simp] theorem State.setBank_inst (b : Nat) (g : DbSt → DbSt) : (s.setBank b g).inst_ = s.inst_ := rfl
@[simp] theorem State.setBank_time (b : Nat) (g : DbSt → DbSt) : (s.setBank b g).time = s.time := rfl
@[simp] theorem State.setBank_host (b : Nat) (g : DbSt → DbSt) : (s.setBank b g).host = s.host := rfl
@[simp] theorem State.setBank_img (b : Nat) (g : DbSt → DbSt) : (s.setBank b g).img = s.img := rfl
@[simp] theorem State.setBank_leaseRt (b : Nat) (g : DbSt → DbSt) : (s.setBank b g).leaseRt = s.leaseRt := rfl
@[simp] theorem State.setBank_fb (b : Nat) (g : DbSt → DbSt) : (s.setBank b g).fb = s.fb := rfl
@[simp] theorem State.setBank_tt (b : Nat) (g : DbSt → DbSt) : (s.setBank b g).tt = s.tt := rfl
@[simp] theorem State.setBank_anise (b : Nat) (g : DbSt → DbSt) : (s.setBank b g).anise = s.anise := rfl
@[simp] theorem State.setBank_pm (b : Nat) (g : DbSt → DbSt) : (s.setBank b g).pm = s.pm := rfl
@[simp] theorem State.setBank_pq (b : Nat) (g : DbSt → DbSt) : (s.setBank b g).pq = s.pq := rfl
@[simp] theorem State.setBank_rx (b : Nat) (g : DbSt → DbSt) : (s.setBank b g).rx = s.rx := rfl
@[simp] theorem State.setBank_ru (b : Nat) (g : DbSt → DbSt) : (s.setBank b g).ru = s.ru := rfl
@[simp] theorem State.setBank_sp (b : Nat) (g : DbSt → DbSt) : (s.setBank b g).sp = s.sp := rfl
@[simp] theorem State.setBank_stage (b : Nat) (g : DbSt → DbSt) : (s.setBank b g).stage_ = s.stage_ := rfl
@[simp] theorem State.setBank_gt (b : Nat) (g : DbSt → DbSt) : (s.setBank b g).gt = s.gt := rfl
@[simp] theorem State.setBank_ring (b : Nat) (g : DbSt → DbSt) : (s.setBank b g).ring_ = s.ring_ := rfl
@[simp] theorem State.setBank_pair (b : Nat) (g : DbSt → DbSt) : (s.setBank b g).pair = s.pair := rfl
@[simp] theorem State.setBank_ic (b : Nat) (g : DbSt → DbSt) : (s.setBank b g).ic = s.ic := rfl
@[simp] theorem State.setBank_fc (b : Nat) (g : DbSt → DbSt) : (s.setBank b g).fc = s.fc := rfl
@[simp] theorem State.setBank_cu (b : Nat) (g : DbSt → DbSt) : (s.setBank b g).cu = s.cu := rfl
@[simp] theorem State.setBank_sys (b : Nat) (g : DbSt → DbSt) : (s.setBank b g).sys = s.sys := rfl
@[simp] theorem State.setBank_tap (b : Nat) (g : DbSt → DbSt) : (s.setBank b g).tap = s.tap := rfl

/-! ### setSpt -/

@[simp] theorem State.setSpt_pending (n : Nat) (g : SpSt → SpSt) : (s.setSpt n g).pending = s.pending := rfl
@[simp] theorem State.setSpt_now (n : Nat) (g : SpSt → SpSt) : (s.setSpt n g).now = s.now := rfl
@[simp] theorem State.setSpt_fresh (n : Nat) (g : SpSt → SpSt) : (s.setSpt n g).fresh = s.fresh := rfl
@[simp] theorem State.setSpt_out (n : Nat) (g : SpSt → SpSt) : (s.setSpt n g).out = s.out := rfl
@[simp] theorem State.setSpt_regs (n : Nat) (g : SpSt → SpSt) : (s.setSpt n g).regs = s.regs := rfl
@[simp] theorem State.setSpt_staged (n : Nat) (g : SpSt → SpSt) : (s.setSpt n g).staged = s.staged := rfl
@[simp] theorem State.setSpt_noMaj (n : Nat) (g : SpSt → SpSt) : (s.setSpt n g).noMaj = s.noMaj := rfl
@[simp] theorem State.setSpt_noMajStaged (n : Nat) (g : SpSt → SpSt) : (s.setSpt n g).noMajStaged = s.noMajStaged := rfl
@[simp] theorem State.setSpt_copies (n : Nat) (g : SpSt → SpSt) : (s.setSpt n g).copies = s.copies := rfl
@[simp] theorem State.setSpt_copiesStaged (n : Nat) (g : SpSt → SpSt) : (s.setSpt n g).copiesStaged = s.copiesStaged := rfl
@[simp] theorem State.setSpt_inst (n : Nat) (g : SpSt → SpSt) : (s.setSpt n g).inst_ = s.inst_ := rfl
@[simp] theorem State.setSpt_time (n : Nat) (g : SpSt → SpSt) : (s.setSpt n g).time = s.time := rfl
@[simp] theorem State.setSpt_host (n : Nat) (g : SpSt → SpSt) : (s.setSpt n g).host = s.host := rfl
@[simp] theorem State.setSpt_img (n : Nat) (g : SpSt → SpSt) : (s.setSpt n g).img = s.img := rfl
@[simp] theorem State.setSpt_leaseRt (n : Nat) (g : SpSt → SpSt) : (s.setSpt n g).leaseRt = s.leaseRt := rfl
@[simp] theorem State.setSpt_fb (n : Nat) (g : SpSt → SpSt) : (s.setSpt n g).fb = s.fb := rfl
@[simp] theorem State.setSpt_tt (n : Nat) (g : SpSt → SpSt) : (s.setSpt n g).tt = s.tt := rfl
@[simp] theorem State.setSpt_anise (n : Nat) (g : SpSt → SpSt) : (s.setSpt n g).anise = s.anise := rfl
@[simp] theorem State.setSpt_pm (n : Nat) (g : SpSt → SpSt) : (s.setSpt n g).pm = s.pm := rfl
@[simp] theorem State.setSpt_pq (n : Nat) (g : SpSt → SpSt) : (s.setSpt n g).pq = s.pq := rfl
@[simp] theorem State.setSpt_rx (n : Nat) (g : SpSt → SpSt) : (s.setSpt n g).rx = s.rx := rfl
@[simp] theorem State.setSpt_ru (n : Nat) (g : SpSt → SpSt) : (s.setSpt n g).ru = s.ru := rfl
@[simp] theorem State.setSpt_stage (n : Nat) (g : SpSt → SpSt) : (s.setSpt n g).stage_ = s.stage_ := rfl
@[simp] theorem State.setSpt_db (n : Nat) (g : SpSt → SpSt) : (s.setSpt n g).db = s.db := rfl
@[simp] theorem State.setSpt_gt (n : Nat) (g : SpSt → SpSt) : (s.setSpt n g).gt = s.gt := rfl
@[simp] theorem State.setSpt_ring (n : Nat) (g : SpSt → SpSt) : (s.setSpt n g).ring_ = s.ring_ := rfl
@[simp] theorem State.setSpt_pair (n : Nat) (g : SpSt → SpSt) : (s.setSpt n g).pair = s.pair := rfl
@[simp] theorem State.setSpt_ic (n : Nat) (g : SpSt → SpSt) : (s.setSpt n g).ic = s.ic := rfl
@[simp] theorem State.setSpt_fc (n : Nat) (g : SpSt → SpSt) : (s.setSpt n g).fc = s.fc := rfl
@[simp] theorem State.setSpt_cu (n : Nat) (g : SpSt → SpSt) : (s.setSpt n g).cu = s.cu := rfl
@[simp] theorem State.setSpt_sys (n : Nat) (g : SpSt → SpSt) : (s.setSpt n g).sys = s.sys := rfl
@[simp] theorem State.setSpt_tap (n : Nat) (g : SpSt → SpSt) : (s.setSpt n g).tap = s.tap := rfl

/-! ### setPair -/

@[simp] theorem State.setPair_pending (g : PairSt → PairSt) : (s.setPair g).pending = s.pending := rfl
@[simp] theorem State.setPair_now (g : PairSt → PairSt) : (s.setPair g).now = s.now := rfl
@[simp] theorem State.setPair_fresh (g : PairSt → PairSt) : (s.setPair g).fresh = s.fresh := rfl
@[simp] theorem State.setPair_out (g : PairSt → PairSt) : (s.setPair g).out = s.out := rfl
@[simp] theorem State.setPair_regs (g : PairSt → PairSt) : (s.setPair g).regs = s.regs := rfl
@[simp] theorem State.setPair_staged (g : PairSt → PairSt) : (s.setPair g).staged = s.staged := rfl
@[simp] theorem State.setPair_noMaj (g : PairSt → PairSt) : (s.setPair g).noMaj = s.noMaj := rfl
@[simp] theorem State.setPair_noMajStaged (g : PairSt → PairSt) : (s.setPair g).noMajStaged = s.noMajStaged := rfl
@[simp] theorem State.setPair_copies (g : PairSt → PairSt) : (s.setPair g).copies = s.copies := rfl
@[simp] theorem State.setPair_copiesStaged (g : PairSt → PairSt) : (s.setPair g).copiesStaged = s.copiesStaged := rfl
@[simp] theorem State.setPair_inst (g : PairSt → PairSt) : (s.setPair g).inst_ = s.inst_ := rfl
@[simp] theorem State.setPair_time (g : PairSt → PairSt) : (s.setPair g).time = s.time := rfl
@[simp] theorem State.setPair_host (g : PairSt → PairSt) : (s.setPair g).host = s.host := rfl
@[simp] theorem State.setPair_img (g : PairSt → PairSt) : (s.setPair g).img = s.img := rfl
@[simp] theorem State.setPair_leaseRt (g : PairSt → PairSt) : (s.setPair g).leaseRt = s.leaseRt := rfl
@[simp] theorem State.setPair_fb (g : PairSt → PairSt) : (s.setPair g).fb = s.fb := rfl
@[simp] theorem State.setPair_tt (g : PairSt → PairSt) : (s.setPair g).tt = s.tt := rfl
@[simp] theorem State.setPair_anise (g : PairSt → PairSt) : (s.setPair g).anise = s.anise := rfl
@[simp] theorem State.setPair_pm (g : PairSt → PairSt) : (s.setPair g).pm = s.pm := rfl
@[simp] theorem State.setPair_pq (g : PairSt → PairSt) : (s.setPair g).pq = s.pq := rfl
@[simp] theorem State.setPair_rx (g : PairSt → PairSt) : (s.setPair g).rx = s.rx := rfl
@[simp] theorem State.setPair_ru (g : PairSt → PairSt) : (s.setPair g).ru = s.ru := rfl
@[simp] theorem State.setPair_sp (g : PairSt → PairSt) : (s.setPair g).sp = s.sp := rfl
@[simp] theorem State.setPair_stage (g : PairSt → PairSt) : (s.setPair g).stage_ = s.stage_ := rfl
@[simp] theorem State.setPair_db (g : PairSt → PairSt) : (s.setPair g).db = s.db := rfl
@[simp] theorem State.setPair_gt (g : PairSt → PairSt) : (s.setPair g).gt = s.gt := rfl
@[simp] theorem State.setPair_ring (g : PairSt → PairSt) : (s.setPair g).ring_ = s.ring_ := rfl
@[simp] theorem State.setPair_ic (g : PairSt → PairSt) : (s.setPair g).ic = s.ic := rfl
@[simp] theorem State.setPair_fc (g : PairSt → PairSt) : (s.setPair g).fc = s.fc := rfl
@[simp] theorem State.setPair_cu (g : PairSt → PairSt) : (s.setPair g).cu = s.cu := rfl
@[simp] theorem State.setPair_sys (g : PairSt → PairSt) : (s.setPair g).sys = s.sys := rfl
@[simp] theorem State.setPair_tap (g : PairSt → PairSt) : (s.setPair g).tap = s.tap := rfl

/-! ### setTime -/

@[simp] theorem State.setTime_pending (g : TimeSt → TimeSt) : (s.setTime g).pending = s.pending := rfl
@[simp] theorem State.setTime_now (g : TimeSt → TimeSt) : (s.setTime g).now = s.now := rfl
@[simp] theorem State.setTime_fresh (g : TimeSt → TimeSt) : (s.setTime g).fresh = s.fresh := rfl
@[simp] theorem State.setTime_out (g : TimeSt → TimeSt) : (s.setTime g).out = s.out := rfl
@[simp] theorem State.setTime_regs (g : TimeSt → TimeSt) : (s.setTime g).regs = s.regs := rfl
@[simp] theorem State.setTime_staged (g : TimeSt → TimeSt) : (s.setTime g).staged = s.staged := rfl
@[simp] theorem State.setTime_noMaj (g : TimeSt → TimeSt) : (s.setTime g).noMaj = s.noMaj := rfl
@[simp] theorem State.setTime_noMajStaged (g : TimeSt → TimeSt) : (s.setTime g).noMajStaged = s.noMajStaged := rfl
@[simp] theorem State.setTime_copies (g : TimeSt → TimeSt) : (s.setTime g).copies = s.copies := rfl
@[simp] theorem State.setTime_copiesStaged (g : TimeSt → TimeSt) : (s.setTime g).copiesStaged = s.copiesStaged := rfl
@[simp] theorem State.setTime_inst (g : TimeSt → TimeSt) : (s.setTime g).inst_ = s.inst_ := rfl
@[simp] theorem State.setTime_host (g : TimeSt → TimeSt) : (s.setTime g).host = s.host := rfl
@[simp] theorem State.setTime_img (g : TimeSt → TimeSt) : (s.setTime g).img = s.img := rfl
@[simp] theorem State.setTime_leaseRt (g : TimeSt → TimeSt) : (s.setTime g).leaseRt = s.leaseRt := rfl
@[simp] theorem State.setTime_fb (g : TimeSt → TimeSt) : (s.setTime g).fb = s.fb := rfl
@[simp] theorem State.setTime_tt (g : TimeSt → TimeSt) : (s.setTime g).tt = s.tt := rfl
@[simp] theorem State.setTime_anise (g : TimeSt → TimeSt) : (s.setTime g).anise = s.anise := rfl
@[simp] theorem State.setTime_pm (g : TimeSt → TimeSt) : (s.setTime g).pm = s.pm := rfl
@[simp] theorem State.setTime_pq (g : TimeSt → TimeSt) : (s.setTime g).pq = s.pq := rfl
@[simp] theorem State.setTime_rx (g : TimeSt → TimeSt) : (s.setTime g).rx = s.rx := rfl
@[simp] theorem State.setTime_ru (g : TimeSt → TimeSt) : (s.setTime g).ru = s.ru := rfl
@[simp] theorem State.setTime_sp (g : TimeSt → TimeSt) : (s.setTime g).sp = s.sp := rfl
@[simp] theorem State.setTime_stage (g : TimeSt → TimeSt) : (s.setTime g).stage_ = s.stage_ := rfl
@[simp] theorem State.setTime_db (g : TimeSt → TimeSt) : (s.setTime g).db = s.db := rfl
@[simp] theorem State.setTime_gt (g : TimeSt → TimeSt) : (s.setTime g).gt = s.gt := rfl
@[simp] theorem State.setTime_ring (g : TimeSt → TimeSt) : (s.setTime g).ring_ = s.ring_ := rfl
@[simp] theorem State.setTime_pair (g : TimeSt → TimeSt) : (s.setTime g).pair = s.pair := rfl
@[simp] theorem State.setTime_ic (g : TimeSt → TimeSt) : (s.setTime g).ic = s.ic := rfl
@[simp] theorem State.setTime_fc (g : TimeSt → TimeSt) : (s.setTime g).fc = s.fc := rfl
@[simp] theorem State.setTime_cu (g : TimeSt → TimeSt) : (s.setTime g).cu = s.cu := rfl
@[simp] theorem State.setTime_sys (g : TimeSt → TimeSt) : (s.setTime g).sys = s.sys := rfl
@[simp] theorem State.setTime_tap (g : TimeSt → TimeSt) : (s.setTime g).tap = s.tap := rfl

/-! ### setCu -/

@[simp] theorem State.setCu_pending (g : CuSt → CuSt) : (s.setCu g).pending = s.pending := rfl
@[simp] theorem State.setCu_now (g : CuSt → CuSt) : (s.setCu g).now = s.now := rfl
@[simp] theorem State.setCu_fresh (g : CuSt → CuSt) : (s.setCu g).fresh = s.fresh := rfl
@[simp] theorem State.setCu_out (g : CuSt → CuSt) : (s.setCu g).out = s.out := rfl
@[simp] theorem State.setCu_regs (g : CuSt → CuSt) : (s.setCu g).regs = s.regs := rfl
@[simp] theorem State.setCu_staged (g : CuSt → CuSt) : (s.setCu g).staged = s.staged := rfl
@[simp] theorem State.setCu_noMaj (g : CuSt → CuSt) : (s.setCu g).noMaj = s.noMaj := rfl
@[simp] theorem State.setCu_noMajStaged (g : CuSt → CuSt) : (s.setCu g).noMajStaged = s.noMajStaged := rfl
@[simp] theorem State.setCu_copies (g : CuSt → CuSt) : (s.setCu g).copies = s.copies := rfl
@[simp] theorem State.setCu_copiesStaged (g : CuSt → CuSt) : (s.setCu g).copiesStaged = s.copiesStaged := rfl
@[simp] theorem State.setCu_inst (g : CuSt → CuSt) : (s.setCu g).inst_ = s.inst_ := rfl
@[simp] theorem State.setCu_time (g : CuSt → CuSt) : (s.setCu g).time = s.time := rfl
@[simp] theorem State.setCu_host (g : CuSt → CuSt) : (s.setCu g).host = s.host := rfl
@[simp] theorem State.setCu_img (g : CuSt → CuSt) : (s.setCu g).img = s.img := rfl
@[simp] theorem State.setCu_leaseRt (g : CuSt → CuSt) : (s.setCu g).leaseRt = s.leaseRt := rfl
@[simp] theorem State.setCu_fb (g : CuSt → CuSt) : (s.setCu g).fb = s.fb := rfl
@[simp] theorem State.setCu_tt (g : CuSt → CuSt) : (s.setCu g).tt = s.tt := rfl
@[simp] theorem State.setCu_anise (g : CuSt → CuSt) : (s.setCu g).anise = s.anise := rfl
@[simp] theorem State.setCu_pm (g : CuSt → CuSt) : (s.setCu g).pm = s.pm := rfl
@[simp] theorem State.setCu_pq (g : CuSt → CuSt) : (s.setCu g).pq = s.pq := rfl
@[simp] theorem State.setCu_rx (g : CuSt → CuSt) : (s.setCu g).rx = s.rx := rfl
@[simp] theorem State.setCu_ru (g : CuSt → CuSt) : (s.setCu g).ru = s.ru := rfl
@[simp] theorem State.setCu_sp (g : CuSt → CuSt) : (s.setCu g).sp = s.sp := rfl
@[simp] theorem State.setCu_stage (g : CuSt → CuSt) : (s.setCu g).stage_ = s.stage_ := rfl
@[simp] theorem State.setCu_db (g : CuSt → CuSt) : (s.setCu g).db = s.db := rfl
@[simp] theorem State.setCu_gt (g : CuSt → CuSt) : (s.setCu g).gt = s.gt := rfl
@[simp] theorem State.setCu_ring (g : CuSt → CuSt) : (s.setCu g).ring_ = s.ring_ := rfl
@[simp] theorem State.setCu_pair (g : CuSt → CuSt) : (s.setCu g).pair = s.pair := rfl
@[simp] theorem State.setCu_ic (g : CuSt → CuSt) : (s.setCu g).ic = s.ic := rfl
@[simp] theorem State.setCu_fc (g : CuSt → CuSt) : (s.setCu g).fc = s.fc := rfl
@[simp] theorem State.setCu_sys (g : CuSt → CuSt) : (s.setCu g).sys = s.sys := rfl
@[simp] theorem State.setCu_tap (g : CuSt → CuSt) : (s.setCu g).tap = s.tap := rfl

/-! ### tick -/

@[simp] theorem State.tick_pending (t : Nat) : (s.tick t).pending = s.pending := rfl
@[simp] theorem State.tick_fresh (t : Nat) : (s.tick t).fresh = s.fresh := rfl
@[simp] theorem State.tick_out (t : Nat) : (s.tick t).out = s.out := rfl
@[simp] theorem State.tick_regs (t : Nat) : (s.tick t).regs = s.regs := rfl
@[simp] theorem State.tick_staged (t : Nat) : (s.tick t).staged = s.staged := rfl
@[simp] theorem State.tick_noMaj (t : Nat) : (s.tick t).noMaj = s.noMaj := rfl
@[simp] theorem State.tick_noMajStaged (t : Nat) : (s.tick t).noMajStaged = s.noMajStaged := rfl
@[simp] theorem State.tick_copies (t : Nat) : (s.tick t).copies = s.copies := rfl
@[simp] theorem State.tick_copiesStaged (t : Nat) : (s.tick t).copiesStaged = s.copiesStaged := rfl
@[simp] theorem State.tick_inst (t : Nat) : (s.tick t).inst_ = s.inst_ := rfl
@[simp] theorem State.tick_host (t : Nat) : (s.tick t).host = s.host := rfl
@[simp] theorem State.tick_img (t : Nat) : (s.tick t).img = s.img := rfl
@[simp] theorem State.tick_leaseRt (t : Nat) : (s.tick t).leaseRt = s.leaseRt := rfl
@[simp] theorem State.tick_fb (t : Nat) : (s.tick t).fb = s.fb := rfl
@[simp] theorem State.tick_tt (t : Nat) : (s.tick t).tt = s.tt := rfl
@[simp] theorem State.tick_anise (t : Nat) : (s.tick t).anise = s.anise := rfl
@[simp] theorem State.tick_pm (t : Nat) : (s.tick t).pm = s.pm := rfl
@[simp] theorem State.tick_pq (t : Nat) : (s.tick t).pq = s.pq := rfl
@[simp] theorem State.tick_rx (t : Nat) : (s.tick t).rx = s.rx := rfl
@[simp] theorem State.tick_ru (t : Nat) : (s.tick t).ru = s.ru := rfl
@[simp] theorem State.tick_sp (t : Nat) : (s.tick t).sp = s.sp := rfl
@[simp] theorem State.tick_stage (t : Nat) : (s.tick t).stage_ = s.stage_ := rfl
@[simp] theorem State.tick_db (t : Nat) : (s.tick t).db = s.db := rfl
@[simp] theorem State.tick_gt (t : Nat) : (s.tick t).gt = s.gt := rfl
@[simp] theorem State.tick_ring (t : Nat) : (s.tick t).ring_ = s.ring_ := rfl
@[simp] theorem State.tick_pair (t : Nat) : (s.tick t).pair = s.pair := rfl
@[simp] theorem State.tick_ic (t : Nat) : (s.tick t).ic = s.ic := rfl
@[simp] theorem State.tick_fc (t : Nat) : (s.tick t).fc = s.fc := rfl
@[simp] theorem State.tick_cu (t : Nat) : (s.tick t).cu = s.cu := rfl
@[simp] theorem State.tick_sys (t : Nat) : (s.tick t).sys = s.sys := rfl
@[simp] theorem State.tick_tap (t : Nat) : (s.tick t).tap = s.tap := rfl
@[simp] theorem State.tick_now (t : Nat) : (s.tick t).now = max s.now t := rfl
@[simp] theorem State.tick_rdA (t : Nat) (f : Fld) (i j : Nat) : (s.tick t).rdA f i j = s.rdA f i j := rfl
@[simp] theorem State.tick_rd (t : Nat) (f : Fld) (i : Nat) : (s.tick t).rd f i = s.rd f i := rfl

/-! ### Register reads are not disturbed by updates of anything else -/

@[simp] theorem State.note_rdA (k : Nat) (u : UpdKind) (n : Nat) (f : Fld) (i j : Nat) : (s.note k u n).rdA f i j = s.rdA f i j := rfl
@[simp] theorem State.note_rd (k : Nat) (u : UpdKind) (n : Nat) (f : Fld) (i : Nat) : (s.note k u n).rd f i = s.rd f i := rfl
@[simp] theorem State.note_flag (k : Nat) (u : UpdKind) (n : Nat) (f : Fld) (i : Nat) : (s.note k u n).flag f i = s.flag f i := rfl
@[simp] theorem State.draw_rdA (f : Fld) (i j : Nat) : (s.draw).rdA f i j = s.rdA f i j := rfl
@[simp] theorem State.draw_rd (f : Fld) (i : Nat) : (s.draw).rd f i = s.rd f i := rfl
@[simp] theorem State.draw_flag (f : Fld) (i : Nat) : (s.draw).flag f i = s.flag f i := rfl
@[simp] theorem State.emit_rdA (e : Emission) (f : Fld) (i j : Nat) : (s.emit e).rdA f i j = s.rdA f i j := rfl
@[simp] theorem State.emit_rd (e : Emission) (f : Fld) (i : Nat) : (s.emit e).rd f i = s.rd f i := rfl
@[simp] theorem State.emit_flag (e : Emission) (f : Fld) (i : Nat) : (s.emit e).flag f i = s.flag f i := rfl
@[simp] theorem State.setLink_rdA (k : Nat) (g : LinkSt → LinkSt) (f : Fld) (i j : Nat) : (s.setLink k g).rdA f i j = s.rdA f i j := rfl
@[simp] theorem State.setLink_rd (k : Nat) (g : LinkSt → LinkSt) (f : Fld) (i : Nat) : (s.setLink k g).rd f i = s.rd f i := rfl
@[simp] theorem State.setLink_flag (k : Nat) (g : LinkSt → LinkSt) (f : Fld) (i : Nat) : (s.setLink k g).flag f i = s.flag f i := rfl
@[simp] theorem State.setFunc_rdA (fn : Func) (g : FnSt → FnSt) (f : Fld) (i j : Nat) : (s.setFunc fn g).rdA f i j = s.rdA f i j := rfl
@[simp] theorem State.setFunc_rd (fn : Func) (g : FnSt → FnSt) (f : Fld) (i : Nat) : (s.setFunc fn g).rd f i = s.rd f i := rfl
@[simp] theorem State.setFunc_flag (fn : Func) (g : FnSt → FnSt) (f : Fld) (i : Nat) : (s.setFunc fn g).flag f i = s.flag f i := rfl
@[simp] theorem State.setRing_rdA (r : Nat) (g : Ring → Ring) (f : Fld) (i j : Nat) : (s.setRing r g).rdA f i j = s.rdA f i j := rfl
@[simp] theorem State.setRing_rd (r : Nat) (g : Ring → Ring) (f : Fld) (i : Nat) : (s.setRing r g).rd f i = s.rd f i := rfl
@[simp] theorem State.setRing_flag (r : Nat) (g : Ring → Ring) (f : Fld) (i : Nat) : (s.setRing r g).flag f i = s.flag f i := rfl
@[simp] theorem State.setPort_rdA (p : Nat) (g : FbSt → FbSt) (f : Fld) (i j : Nat) : (s.setPort p g).rdA f i j = s.rdA f i j := rfl
@[simp] theorem State.setPort_rd (p : Nat) (g : FbSt → FbSt) (f : Fld) (i : Nat) : (s.setPort p g).rd f i = s.rd f i := rfl
@[simp] theorem State.setPort_flag (p : Nat) (g : FbSt → FbSt) (f : Fld) (i : Nat) : (s.setPort p g).flag f i = s.flag f i := rfl
@[simp] theorem State.setQueue_rdA (p : Nat) (g : PqSt → PqSt) (f : Fld) (i j : Nat) : (s.setQueue p g).rdA f i j = s.rdA f i j := rfl
@[simp] theorem State.setQueue_rd (p : Nat) (g : PqSt → PqSt) (f : Fld) (i : Nat) : (s.setQueue p g).rd f i = s.rd f i := rfl
@[simp] theorem State.setQueue_flag (p : Nat) (g : PqSt → PqSt) (f : Fld) (i : Nat) : (s.setQueue p g).flag f i = s.flag f i := rfl
@[simp] theorem State.setMbox_rdA (m : Nat) (g : Mailbox → Mailbox) (f : Fld) (i j : Nat) : (s.setMbox m g).rdA f i j = s.rdA f i j := rfl
@[simp] theorem State.setMbox_rd (m : Nat) (g : Mailbox → Mailbox) (f : Fld) (i : Nat) : (s.setMbox m g).rd f i = s.rd f i := rfl
@[simp] theorem State.setMbox_flag (m : Nat) (g : Mailbox → Mailbox) (f : Fld) (i : Nat) : (s.setMbox m g).flag f i = s.flag f i := rfl
@[simp] theorem State.setSlot_rdA (k : Nat) (g : StoredFrame → StoredFrame) (f : Fld) (i j : Nat) : (s.setSlot k g).rdA f i j = s.rdA f i j := rfl
@[simp] theorem State.setSlot_rd (k : Nat) (g : StoredFrame → StoredFrame) (f : Fld) (i : Nat) : (s.setSlot k g).rd f i = s.rd f i := rfl
@[simp] theorem State.setSlot_flag (k : Nat) (g : StoredFrame → StoredFrame) (f : Fld) (i : Nat) : (s.setSlot k g).flag f i = s.flag f i := rfl
@[simp] theorem State.setGrp_rdA (k : Nat) (g : GroupSt → GroupSt) (f : Fld) (i j : Nat) : (s.setGrp k g).rdA f i j = s.rdA f i j := rfl
@[simp] theorem State.setGrp_rd (k : Nat) (g : GroupSt → GroupSt) (f : Fld) (i : Nat) : (s.setGrp k g).rd f i = s.rd f i := rfl
@[simp] theorem State.setGrp_flag (k : Nat) (g : GroupSt → GroupSt) (f : Fld) (i : Nat) : (s.setGrp k g).flag f i = s.flag f i := rfl
@[simp] theorem State.setLp_rdA (n : Nat) (g : LinkPort → LinkPort) (f : Fld) (i j : Nat) : (s.setLp n g).rdA f i j = s.rdA f i j := rfl
@[simp] theorem State.setLp_rd (n : Nat) (g : LinkPort → LinkPort) (f : Fld) (i : Nat) : (s.setLp n g).rd f i = s.rd f i := rfl
@[simp] theorem State.setLp_flag (n : Nat) (g : LinkPort → LinkPort) (f : Fld) (i : Nat) : (s.setLp n g).flag f i = s.flag f i := rfl
@[simp] theorem State.setTt_rdA (p : Nat) (g : TtSt → TtSt) (f : Fld) (i j : Nat) : (s.setTt p g).rdA f i j = s.rdA f i j := rfl
@[simp] theorem State.setTt_rd (p : Nat) (g : TtSt → TtSt) (f : Fld) (i : Nat) : (s.setTt p g).rd f i = s.rd f i := rfl
@[simp] theorem State.setTt_flag (p : Nat) (g : TtSt → TtSt) (f : Fld) (i : Nat) : (s.setTt p g).flag f i = s.flag f i := rfl
@[simp] theorem State.setAn_rdA (p : Nat) (g : AniseSt → AniseSt) (f : Fld) (i j : Nat) : (s.setAn p g).rdA f i j = s.rdA f i j := rfl
@[simp] theorem State.setAn_rd (p : Nat) (g : AniseSt → AniseSt) (f : Fld) (i : Nat) : (s.setAn p g).rd f i = s.rd f i := rfl
@[simp] theorem State.setAn_flag (p : Nat) (g : AniseSt → AniseSt) (f : Fld) (i : Nat) : (s.setAn p g).flag f i = s.flag f i := rfl
@[simp] theorem State.setBank_rdA (b : Nat) (g : DbSt → DbSt) (f : Fld) (i j : Nat) : (s.setBank b g).rdA f i j = s.rdA f i j := rfl
@[simp] theorem State.setBank_rd (b : Nat) (g : DbSt → DbSt) (f : Fld) (i : Nat) : (s.setBank b g).rd f i = s.rd f i := rfl
@[simp] theorem State.setBank_flag (b : Nat) (g : DbSt → DbSt) (f : Fld) (i : Nat) : (s.setBank b g).flag f i = s.flag f i := rfl
@[simp] theorem State.setSpt_rdA (n : Nat) (g : SpSt → SpSt) (f : Fld) (i j : Nat) : (s.setSpt n g).rdA f i j = s.rdA f i j := rfl
@[simp] theorem State.setSpt_rd (n : Nat) (g : SpSt → SpSt) (f : Fld) (i : Nat) : (s.setSpt n g).rd f i = s.rd f i := rfl
@[simp] theorem State.setSpt_flag (n : Nat) (g : SpSt → SpSt) (f : Fld) (i : Nat) : (s.setSpt n g).flag f i = s.flag f i := rfl
@[simp] theorem State.setPair_rdA (g : PairSt → PairSt) (f : Fld) (i j : Nat) : (s.setPair g).rdA f i j = s.rdA f i j := rfl
@[simp] theorem State.setPair_rd (g : PairSt → PairSt) (f : Fld) (i : Nat) : (s.setPair g).rd f i = s.rd f i := rfl
@[simp] theorem State.setPair_flag (g : PairSt → PairSt) (f : Fld) (i : Nat) : (s.setPair g).flag f i = s.flag f i := rfl
@[simp] theorem State.setTime_rdA (g : TimeSt → TimeSt) (f : Fld) (i j : Nat) : (s.setTime g).rdA f i j = s.rdA f i j := rfl
@[simp] theorem State.setTime_rd (g : TimeSt → TimeSt) (f : Fld) (i : Nat) : (s.setTime g).rd f i = s.rd f i := rfl
@[simp] theorem State.setTime_flag (g : TimeSt → TimeSt) (f : Fld) (i : Nat) : (s.setTime g).flag f i = s.flag f i := rfl
@[simp] theorem State.setCu_rdA (g : CuSt → CuSt) (f : Fld) (i j : Nat) : (s.setCu g).rdA f i j = s.rdA f i j := rfl
@[simp] theorem State.setCu_rd (g : CuSt → CuSt) (f : Fld) (i : Nat) : (s.setCu g).rd f i = s.rd f i := rfl
@[simp] theorem State.setCu_flag (g : CuSt → CuSt) (f : Fld) (i : Nat) : (s.setCu g).flag f i = s.flag f i := rfl

end Sys2Proof.Machine
end

