-- ==== Sys2Proof/Laws/KeepsReset.lean ====
section
/-! SUPPORT. What a device reset, a boot and the end of an OTP write do to the queue, the clock, the interval count, the OTP and the order of
the register store. -/

namespace Sys2Proof.Machine

/-! ### The stable predicates -/

theorem stable_queueClock (c : List Instr) (n : Nat) : Stable fun s => s.pending = c ∧ s.now = n :=
  ⟨fun _ _ _ _ _ h => h, fun _ _ _ h => h, fun _ _ h1 h2 _ _ _ h => ⟨h1.trans h.1, h2.trans h.2⟩⟩

theorem stable_otp (o : Otp) : Stable fun s => s.cu.otp = o :=
  ⟨fun _ _ _ _ _ h => h, fun _ _ _ h => h, fun _ _ _ _ _ _ h5 h => h5.trans h⟩

theorem stable_ivl (n : Nat) : Stable fun s => s.time.ivl = n :=
  ⟨fun _ _ _ _ _ h => h, fun _ _ _ h => h, fun _ _ _ _ _ h4 _ h => h4.trans h⟩

theorem stable_regsCanonical : Stable State.regsCanonical :=
  ⟨fun s f i j v h => by
      unfold State.wrA tset State.regsCanonical
      split
      · exact pairwise_tdel _ _ h
      · exact pairwise_tput _ _ _ h,
   fun _ _ hr h => List.Pairwise.sublist hr h,
   fun _ _ _ _ h3 _ _ h => by unfold State.regsCanonical at *; rw [h3]; exact h⟩

variable {P : State → Prop}

/-! ### A device reset -/

theorem State.faultLanes_only (s : State) : s.faultLanes.pending = s.pending ∧ s.faultLanes.now = s.now ∧ s.faultLanes.regs = s.regs ∧
    s.faultLanes.cu = s.cu ∧ s.faultLanes.fresh = s.fresh := by
  unfold State.faultLanes
  refine List.foldlRecOn (motive := fun (u : State) => u.pending = s.pending ∧ u.now = s.now ∧ u.regs = s.regs ∧ u.cu = s.cu ∧ u.fresh = s.fresh)
    _ _ ⟨rfl, rfl, rfl, rfl, rfl⟩ ?_
  intro u hu n _; exact hu

theorem State.quietPins_only (s : State) : s.quietPins.cu = s.cu ∧ s.quietPins.fresh = s.fresh := by
  unfold State.quietPins
  refine List.foldlRecOn (motive := fun (u : State) => u.cu = s.cu ∧ u.fresh = s.fresh) _ _ ?_ ?_
  · refine List.foldlRecOn (motive := fun (u : State) => u.cu = s.cu ∧ u.fresh = s.fresh) _ _ ⟨rfl, rfl⟩ ?_
    intro u hu p _; split <;> exact hu
  · intro u hu p _; split <;> exact hu

theorem State.pinsAtReset_only (s : State) (cause : Nat) : (s.pinsAtReset cause).cu = s.cu ∧ (s.pinsAtReset cause).fresh = s.fresh := by
  unfold State.pinsAtReset
  split
  · exact ⟨rfl, rfl⟩
  · have h := s.quietPins.faultLanes_only
    exact ⟨h.2.2.2.1.trans s.quietPins_only.1, h.2.2.2.2.trans s.quietPins_only.2⟩

/-- The state that a device reset makes before the Fault domain is kept. -/
theorem State.resetDevice_keeps (hP : Stable P) (s : State) (cause resets : Nat) (keep pin : Bool)
    (h : ∀ v : State, v.pending = s.pending → v.now = s.now → v.regs = [] → v.time.ivl = 0 → v.cu.otp = s.otpAtReset → P v) :
    P (s.resetDevice cause resets keep pin) := by
  have hq : (fun u : State => u.pending = s.pending ∧ u.now = s.now) (s.pinsAtReset cause) :=
    State.pinsAtReset_keeps (stable_queueClock s.pending s.now) s cause ⟨rfl, rfl⟩
  have ho : (s.pinsAtReset cause).otpAtReset = s.otpAtReset := by
    unfold State.otpAtReset; rw [(s.pinsAtReset_only cause).1, (s.pinsAtReset_only cause).2]
  unfold State.resetDevice
  simp only []
  have hbase : ∀ v : State, v.pending = (s.pinsAtReset cause).pending → v.now = (s.pinsAtReset cause).now → v.regs = [] → v.time.ivl = 0 →
      v.cu.otp = (s.pinsAtReset cause).otpAtReset → P v := fun v h1 h2 h3 h4 h5 => h v (h1.trans hq.1) (h2.trans hq.2) h3 h4 (h5.trans ho)
  repeat' first
    | with_reducible apply ite_keeps
    | with_reducible apply State.emit_keeps hP
    | with_reducible apply State.keepSwitches_keeps hP
    | with_reducible apply State.keepFaults_keeps hP
    | with_reducible apply State.wr_keeps hP
  all_goals
    refine hbase _ ?_ ?_ ?_ ?_ ?_
    all_goals first | with_reducible rfl | rfl

/-! ### A boot -/

theorem State.bootEnd_keeps (hP : Stable P) (s : State) (start count : Nat)
    (h : ∀ v : State, v.pending = s.pending → v.now = s.now → v.regs = s.regs → v.time.ivl = count * nominalInc → v.cu.otp = s.cu.otp → P v) :
    P (s.bootEnd start count) := by
  unfold State.bootEnd
  have ht : s.tapEnd.pending = s.pending ∧ s.tapEnd.now = s.now ∧ s.tapEnd.regs = s.regs ∧ s.tapEnd.cu = s.cu := by
    unfold State.tapEnd; split <;> exact ⟨rfl, rfl, rfl, rfl⟩
  have hl := s.tapEnd.faultLanes_only
  simp only []
  repeat' first
    | with_reducible apply State.wr_keeps hP
    | with_reducible apply State.put_keeps hP
    | with_reducible apply foldl_keeps
    | with_reducible assumption
    | with_reducible apply State.setLink_keeps hP
    | (intro _; intros)
  exact h _ (hl.1.trans ht.1) (hl.2.1.trans ht.2.1) (hl.2.2.1.trans ht.2.2.1) rfl (congrArg CuSt.otp (hl.2.2.2.1.trans ht.2.2.2))

theorem State.bootImage_keeps (hP : Stable P) (s : State) (l : Loaded) (k start count : Nat)
    (h : ∀ v : State, v.pending = s.pending → v.now = s.now → v.regs = s.regs → v.time.ivl = count * nominalInc → v.cu.otp = s.cu.otp → P v) :
    P (s.bootImage l k start count) := by
  unfold State.bootImage
  with_reducible
    refine State.activate_keeps hP _ _ _ _ _ (State.wr_keeps hP _ _ _ _ (State.wr_keeps hP _ _ _ _ (State.powerUp_keeps hP _ _ ?_)))
  exact s.bootEnd_keeps hP _ _ h

theorem State.bootBare_keeps (hP : Stable P) (s : State) (start count : Nat)
    (h : ∀ v : State, v.pending = s.pending → v.now = s.now → v.regs = s.regs → v.time.ivl = count * nominalInc → v.cu.otp = s.cu.otp → P v) :
    P (s.bootBare start count) :=
  State.wr_keeps hP _ _ _ _ (hP.img _ _ (State.powerUp_keeps hP _ _ (s.bootEnd_keeps hP _ _ h)))

/-- A boot that acts: a predicate that every state with the booting state's queue, clock and OTP has, whatever its interval count, holds after. -/
theorem execBoot_keeps (hP : Stable P) (t start count : Nat) (nvm1 nvm2 : Bool) (s : State) (hs : P (s.tick t))
    (hi : ∀ v : State, P v → ∀ n, P { v with time := { v.time with ivl := n } }) : NextKeeps P (execBoot t start count nvm1 nvm2 s) := by
  have key : ∀ u : State, P u → ∀ v : State, v.pending = u.pending → v.now = u.now → v.regs = u.regs → v.time.ivl = count * nominalInc →
      v.cu.otp = u.cu.otp → P v := fun u hu v h1 h2 h3 h4 h5 =>
    hP.frame { u with time := { u.time with ivl := count * nominalInc } } v h1 h2 h3 h4 h5 (hi u hu _)
  unfold execBoot
  refine ite_next_keeps (next_keeps hs) ?_
  have hb : ∀ (u : State) (k : Nat) (nvm : Bool), P u → P (u.bootCheck k nvm).1 := fun u k nvm hu => State.bootCheck_keeps hP u k nvm hu
  simp only []
  split
  · rename_i u l he
    have hu : P u := of_fst he (hb _ _ _ hs)
    exact next_keeps (State.bootImage_keeps hP _ _ _ _ _ (key u hu))
  · rename_i u c sec entry he
    have hu : P u := of_fst he (hb _ _ _ hs)
    split
    · rename_i w l hw
      have hw' : P w := of_fst hw (hb _ _ _ hu)
      refine next_keeps (State.tellFallback_keeps hP _ (State.checkEvent_keeps hP _ _ _ _ _ _ (State.bootImage_keeps hP _ _ _ _ _ (key _ ?_))))
      exact State.setCu_keeps hP _ _ (State.put_keeps hP _ _ _ _ (State.wr_keeps hP _ _ _ _ hw')) (fun _ => rfl)
    · rename_i w e hw
      have hw' : P w := of_fst hw (hb _ _ _ hu)
      exact next_keeps (State.bootBare_keeps hP _ _ _ (key _ hw'))

/-! ### The end of an OTP write -/

/-- The end of an OTP write: what is stable, and holds of every state whose OTP has taken the write, holds after. -/
theorem execOtpWriteDone_keeps (hP : Stable P) (t : Nat) (s : State) (hs : P (s.tick t))
    (hw : ∀ v : State, P v → ∀ w, P { v with cu := { v.cu with otp := v.cu.otp.write w } }) : NextKeeps P (execOtpWriteDone t s) := by
  unfold execOtpWriteDone
  simp only []
  split
  · exact next_keeps hs
  · rename_i w rest he
    have h1 : P ((s.tick t).setCu fun c => { c with otp := c.otp.write w, otpWrites := rest }) :=
      hP.frame { s.tick t with cu := { (s.tick t).cu with otp := (s.tick t).cu.otp.write w } } _ rfl rfl rfl rfl rfl (hw (s.tick t) hs w)
    split
    · exact next_keeps (ite_keeps (State.cuDone_keeps hP _ _ _ h1) h1)
    · exact next_keeps h1

end Sys2Proof.Machine
end

