-- ==== Sys2Proof/Laws/Registers.lean ====
section
/-! SUPPORT. What a register write reads back as, what it leaves alone, and when a host access is its effect. -/

namespace Sys2Proof.Machine

/-! ### Keys -/

theorem Fld.key_eq (f : Fld) (i j : Nat) : f.key i j = f.key 0 0 + i * 4096 + j := by
  simp only [Fld.key]; ring

/-- Two fields whose first keys differ have different keys at every instance and index that they share. -/
theorem Fld.key_ne (f g : Fld) (i j : Nat) (h : f.key 0 0 ≠ g.key 0 0) : f.key i j ≠ g.key i j := by
  rw [f.key_eq i j, g.key_eq i j]; omega

/-- Within the room that a key gives instance and index, keys are equal only where all parts are. -/
theorem Fld.key_inj (f g : Fld) (i j a b : Nat) (hi : i < 2 ^ 20) (hj : j < 4096) (ha : a < 2 ^ 20) (hb : b < 4096)
    (h : f.key i j = g.key a b) : f.key 0 0 = g.key 0 0 ∧ i = a ∧ j = b := by
  simp only [Fld.key] at h ⊢
  norm_num at hi ha
  omega

/-! ### Reading back -/

variable (s : State)

@[simp] theorem State.rdA_wrA_same (f : Fld) (i j v : Nat) : (s.wrA f i j v).rdA f i j = v % 2 ^ f.w := by
  simp [State.rdA, State.wrA]

theorem State.rdA_wrA_key (f g : Fld) (i j a b v : Nat) (h : g.key a b ≠ f.key i j) : (s.wrA f i j v).rdA g a b = s.rdA g a b := by
  simp only [State.rdA, State.wrA]; exact tget_tset_other _ _ _ _ _ _ h

theorem State.rdA_wrA_other (f g : Fld) (i j v : Nat) (h : g.key 0 0 ≠ f.key 0 0) : (s.wrA f i j v).rdA g i j = s.rdA g i j :=
  s.rdA_wrA_key f g i j i j v (Fld.key_ne g f i j h)

@[simp] theorem State.rd_wr_same (f : Fld) (i v : Nat) : (s.wr f i v).rd f i = v % 2 ^ f.w := s.rdA_wrA_same f i 0 v

theorem State.rd_wr_other (f g : Fld) (i v : Nat) (h : g.key 0 0 ≠ f.key 0 0) : (s.wr f i v).rd g i = s.rd g i :=
  s.rdA_wrA_other f g i 0 v h

theorem State.cleared_wrA_other (f g : Fld) (i j v m : Nat) (h : g.key 0 0 ≠ f.key 0 0) : (s.wrA f i j v).cleared g i j m = s.cleared g i j m := by
  simp only [State.cleared, State.rdA_wrA_other _ _ _ _ _ _ h]
  rfl

/-! ### Frames over the register store -/

theorem State.regsBut_refl (ks : List Nat) : s.regsBut s ks := fun _ _ _ => rfl

theorem State.regsBut_wrA (u v : State) (ks : List Nat) (f : Fld) (i j x : Nat) (h : u.regsBut v ks) (hk : f.key i j ∈ ks) :
    u.regsBut (v.wrA f i j x) ks := fun k hk' d =>
  (tget_tset_other _ _ _ _ _ _ (by rintro rfl; exact hk' hk)).trans (h k hk' d)

theorem State.regsBut_wr (u v : State) (ks : List Nat) (f : Fld) (i x : Nat) (h : u.regsBut v ks) (hk : f.key i 0 ∈ ks) :
    u.regsBut (v.wr f i x) ks := u.regsBut_wrA v ks f i 0 x h hk

/-! ### An empty queue -/

theorem State.idle_eq : s.idle = { s with host := { s.host with links := s.idle.host.links } } := rfl

/-! ### Host accesses -/

theorem State.serves_iff (a : Access) : s.serves a = true ↔ s.answers a.f = true ∧ s.quiet a.f = false ∧ s.refusal a = none ∧
    (s.inGap = true → a.write = false ∧ gapReads (s.place a.f a.off) = true) := by
  simp only [State.serves, Bool.and_eq_true, Bool.not_eq_true', Option.isNone_iff_eq_none, and_assoc]
  cases s.inGap <;> simp

theorem State.hostReads_serves (a : Access) (k : State → State × List Nat) (h : s.serves a = true) :
    s.hostReads a k = (k s).1.emit (.readDone a.f a.off (k s).2) := by
  obtain ⟨h1, h2, h3, h4⟩ := (s.serves_iff a).1 h
  cases hg : s.inGap with
  | false => simp [State.hostReads, h1, h2, h3, hg]
  | true => simp [State.hostReads, h1, h2, h3, hg, (h4 hg).2]

theorem State.hostWriteOr_takes (f : Func) (off : Nat) (g k : State → State) (h : s.takesWrite f off = true) : s.hostWriteOr f off g k = k s := by
  obtain ⟨h1, h2, h3, h4⟩ := (s.serves_iff _).1 h
  have hg : s.inGap = false := by simpa using h4
  simp at h1 h2
  simp [State.hostWriteOr, h1, h2, h3, hg]

theorem State.hostWrite_takes (f : Func) (off : Nat) (k : State → State) (h : s.takesWrite f off = true) : s.hostWrite f off k = k s :=
  s.hostWriteOr_takes f off _ k h

theorem State.hostRead_takes (f : Func) (off : Nat) (k : State → State × Nat) (h : s.takesRead f off = true) :
    s.hostRead f off k = (k s).1.emit (.readDone f off [(k s).2]) := s.hostReads_serves _ _ h

/-! ### The SQ pipeline -/

theorem State.firstDesc_iff (r op : Nat) (w : Work) (b : List Byte) : s.firstDesc r op w b = true ↔ s.inGap = false ∧
    (s.ring r).work.head? = some w ∧ descStatus w.raw = none ∧ w.payload = .ready b ∧ descOp w.raw = op := by
  simp [State.firstDesc, and_assoc]

theorem State.runDesc_first (r op : Nat) (w : Work) (b : List Byte) (k : State → Work → List Byte → State)
    (h : s.firstDesc r op w b = true) : s.runDesc r (· == op) k = (k (s.popWork r) w b).pushPayload r := by
  obtain ⟨h1, h2, h3, h4, rfl⟩ := (s.firstDesc_iff r op w b).1 h
  cases hw : (s.ring r).work with
  | nil => simp [hw] at h2
  | cons x rest =>
    rw [hw, List.head?_cons, Option.some.injEq] at h2
    subst h2
    simp [State.runDesc, h1, hw, h3, h4]

end Sys2Proof.Machine
end

