-- ==== Sys2Proof/WellFormed.lean ====
section
/-! DEFINITION. Which commands name something that the device has: the operands lie in the ranges that the spec gives them. A command that is
not well-formed stands for nothing; the meanings are total all the same. -/

namespace Sys2Proof

/-- FB ports 0-63, SP ports 0-23, discrete banks 0-11 with lines 0-15 (R1, R136). -/
def okFb (p : Nat) : Bool := decide (p < 64)
def okSp (n : Nat) : Bool := decide (n < 24)
def okBank (b : Nat) : Bool := decide (b < 12)
def okLine (j : Nat) : Bool := decide (j < 16)

/-- Host links 0 and 1, link ports 0-3 of the ring and 4, 5 of the pair links (R61, R513, R602). -/
def okLink (k : Nat) : Bool := decide (k < 2)
def okPort (n : Nat) : Bool := decide (n < 6)

/-- A function: a PF, or one of at most 255 VFs (R65). -/
def okFunc (f : Func) : Bool := okLink f.link && decide (f.fn < 256)

/-- Descriptor rings of a tenant 0-255, and of the device as tenant x 256 + ring; mailboxes 0-8,191; gather groups 0-1,023 (R153, R137, R573). -/
def okRing (k : Nat) : Bool := decide (k < 256)
def okRingNo (r : Nat) : Bool := decide (r < 65536)
def okMailbox (m : Nat) : Bool := decide (m < 8192)
def okGather (g : Nat) : Bool := decide (g < 1024)

/-- Safe-state groups 0-15, fault sources 0-255, interrupt sources 0-1,023, targets 0-511, vectors 0-63 (R634, R635, R668, R676). -/
def okGroup (g : Nat) : Bool := decide (g < 16)
def okFault (k : Nat) : Bool := decide (k < 256)
def okIrq (k : Nat) : Bool := decide (k < 1024)
def okTarget (g : Nat) : Bool := decide (g < 512)
def okVector (v : Nat) : Bool := decide (v < 64)

/-- Power domains 0-139, heartbeat paths PL0, PL1 and the ring, termination arms 0 and 1, node numbers 1-250 (R263, R523, R605, R703). -/
def okDomain (d : Nat) : Bool := decide (d < 140)
def okPath (p : Nat) : Bool := decide (p < 3)
def okArm (a : Nat) : Bool := decide (a < 2)
def okNode (n : Nat) : Bool := decide (1 ≤ n ∧ n ≤ 250)

/-- Discrete lines D0-D191, words 0-42 of a bitmap of sources, 1 to 3 characters of TEN_SPTX_D (R488, R641, R807). -/
def okOutput (j : Nat) : Bool := decide (j < 192)
def okWord (i : Nat) : Bool := decide (i < 43)
def okChars (n : Nat) : Bool := decide (1 ≤ n ∧ n ≤ 3)

/-- A request: BAR 0, 2 or 4, or configuration space as number 7 (log entry 94), at least one DWORD, 32 bits of data (R71, R100). -/
def okAccess (a : Access) : Bool :=
  okFunc a.f && (a.bar == 0 || a.bar == 2 || a.bar == 4 || a.bar == 7) && decide (1 ≤ a.dwords ∧ a.val < 2 ^ 32)

/-- A block instance that has RWB fields (R121). -/
def okInst : Inst → Bool
  | .fb p => okFb p
  | .sp n => okSp n
  | .rl n => decide (n < 4)
  | .pl n => decide (n < 2)
  | .db b => okBank b

/-- A frame header: 11-bit or 29-bit identifier, 4-bit DLC; an FD frame is no remote frame, and BRS belongs to FD frames (R231, R345). -/
def okHeader (h : Header) : Bool :=
  decide (h.id < (if h.ide then 2 ^ 29 else 2 ^ 11) ∧ h.dlc < 16) && !(h.fdf && h.rtr) && (h.fdf || !h.brs)

/-- A detected error with what was received before it: at most 64 data bytes. -/
def okError (e : BusError) : Bool := okHeader e.partial_ && decide (e.data.length ≤ 64)

/-- A cell on a lane: its header fields fit, its body is bytes 16 to 95 (R518), and it carries nothing that only this node knows. -/
def okCell (c : Cell) : Bool :=
  decide (c.typ < 16 ∧ c.vc < 2 ∧ c.dst < 256 ∧ c.src < 256 ∧ c.tenant < 256 ∧ c.lseq < 4096 ∧ c.tag < 65536 ∧ c.op < 16)
    && decide (c.body.length ≤ 80) && c.inAt.isNone && c.from_.isNone

/-- A cell's LSEQ has 12 bits (R518). -/
def okLane (x : LaneCell) : Bool := decide (x.lseq < 4096)

/-- A serial character: a start bit, 7 or 8 data bits, an address bit or parity, and one stop bit (R473). -/
def okChar (c : SerialChar) : Bool := decide (9 ≤ c.samples.length ∧ c.samples.length ≤ 12)

/-- A heartbeat: unit state and time state in range (R605, R606). -/
def okBeat (h : Heartbeat) : Bool := decide (h.state < 8 ∧ h.timeState < 4)

/-- The command names what the device has. -/
def Instr.wf : Instr → Bool
  | .registerWrite _ a => okAccess a
  | .refusedAccess _ a => okAccess a
  | .wideGroupRead _ a _ => okAccess a
  | .scrubVisit _ _ _ _ _ _ _ => true
  | .rwiRestore _ _ _ _ _ => true
  | .boundary _ i => okInst i
  | .discard _ f i => okFunc f && okInst i
  | .flr _ f => okFunc f
  | .vfEnableCleared _ link _ => okLink link
  | .busMasterEnableCleared _ f => okFunc f
  | .d3hotEntered _ link => okLink link
  | .hotReset _ link => okLink link
  | .functionResetComplete _ f => okFunc f
  | .completionsResume _ f => okFunc f
  | .arm _ f k _ => okFunc f && okRing k
  | .disarm _ f k _ => okFunc f && okRing k
  | .ringDrainEnd _ ring => okRingNo ring
  | .doorbell _ f k _ => okFunc f && okRing k
  | .fetchRequest _ link => okLink link
  | .fetchCompletion _ link _ _ => okLink link
  | .completionTimeout _ link _ => okLink link
  | .payloadReadDone _ link _ _ => okLink link
  | .descOpcode _ ring => okRingNo ring
  | .txFrame _ ring => okRingNo ring
  | .cancel _ ring => okRingNo ring
  | .alloc _ ring => okRingNo ring
  | .freeSlot _ ring => okRingNo ring
  | .writeSlot _ ring => okRingNo ring
  | .fence _ ring => okRingNo ring
  | .nop _ ring => okRingNo ring
  | .headerEvent _ p h => okFb p && okHeader h
  | .eofEvent _ p _ => okFb p
  | .recordWrite _ link => okLink link
  | .frameTake _ p => okFb p
  | .arbitrationLost _ p => okFb p
  | .frameError _ p e => okFb p && okError e
  | .overloadFrame _ p _ => okFb p
  | .protocolException _ p => okFb p
  | .tdcSat _ p => okFb p
  | .integrationComplete _ p => okFb p
  | .occurrence _ p => okFb p
  | .autoClear _ p => okFb p
  | .recovered _ p => okFb p
  | .txdom _ p => okFb p
  | .busdom _ p _ => okFb p
  | .wakeSignal _ p => okFb p
  | .transceiverModeDone _ p => okFb p
  | .enable _ f p _ => okFunc f && okFb p
  | .disable _ f p _ => okFunc f && okFb p
  | .clrBo _ f p _ => okFunc f && okFb p
  | .drainEnd _ p => okFb p
  | .drainLimit _ p => okFb p
  | .tokens _ _ => true
  | .replyExpiry _ p _ => okFb p
  | .queueRebuildDone _ p => okFb p
  | .pqHead0 _ f p => okFunc f && okFb p
  | .mbOpen _ f m => okFunc f && okMailbox m
  | .mbClose _ f m => okFunc f && okMailbox m
  | .mailboxAutoClose _ m => okMailbox m
  | .lowclr _ f => okFunc f
  | .syncCell _ port c => okPort port && okCell c.cell
  | .syncSend _ => true
  | .masterTimeout _ => true
  | .referenceLoss _ => true
  | .holdoverTimeout _ => true
  | .slewEnd _ => true
  | .delayMeasure _ port => okPort port
  | .ppsInputLoss _ => true
  | .tuSet _ f _ => okFunc f
  | .tuAlarm _ f _ => okFunc f
  | .alarmDisarm _ f => okFunc f
  | .alarmFire _ => true
  | .ppsOn _ line => okOutput line
  | .ppsOff _ line => okOutput line
  | .ttCycleStart _ p => okFb p
  | .ttTimeout _ p => okFb p
  | .ttClr _ f => okFunc f
  | .character _ n c => okSp n && okChar c
  | .idleClose _ n => okSp n
  | .lineBreak _ n _ => okSp n
  | .tenSptxSel _ f _ => okFunc f
  | .tenSptxD _ f n _ => okFunc f && okChars n
  | .tenSptxGo _ f => okFunc f
  | .spMessageStart _ m => okSp m.n
  | .spMessageEnd _ n => okSp n
  | .spEnable _ f n _ => okFunc f && okSp n
  | .spDisable _ f n _ => okFunc f && okSp n
  | .spDrainEnd _ n => okSp n
  | .spReceiverReady _ n => okSp n
  | .bankSampleTick _ b _ => okBank b
  | .functionSwitchStart _ b line => okBank b && okLine line
  | .pulseEnd _ b line => okBank b && okLine line
  | .fastEdge _ b line _ => okBank b && okLine line
  | .dbOset _ f b _ => okFunc f && okBank b
  | .dbOclr _ f b _ => okFunc f && okBank b
  | .dbOpulse _ f b _ => okFunc f && okBank b
  | .dbCntclr _ f b _ => okFunc f && okBank b
  | .dbTsf0 _ f b => okFunc f && okBank b
  | .dbOc _ f b _ => okFunc f && okBank b
  | .overcurrent _ b line => okBank b && okLine line
  | .vfLost _ b => okBank b
  | .vfRet _ b => okBank b
  | .cellReceive _ port c => okPort port && okCell c
  | .cellRead _ port c => okPort port && okCell c
  | .mboxWrite _ port c => okPort port && okCell c
  | .dcmd _ port c => okPort port && okCell c
  | .rsp _ port c => okPort port && okCell c
  | .member _ port c => okPort port && okCell c
  | .memberSend _ => true
  | .memberTimeout _ node => okNode node
  | .consent _ port c => okPort port && okCell c
  | .commit _ port c => okPort port && okCell c
  | .delayCell _ port c => okPort port && okCell c
  | .ack _ port _ => okPort port
  | .nak _ port _ => okPort port
  | .credit _ port _ _ => okPort port
  | .ident _ port _ _ => okPort port
  | .keep _ port => okPort port
  | .wrapnote _ port _ => okPort port
  | .ackTimeout _ port => okPort port
  | .linkLoss _ port _ => okPort port
  | .blockLockHeld _ port => okPort port
  | .retryTimerExpiry _ port => okPort port
  | .forget _ f port => okFunc f && okPort port
  | .retrain _ f port => okFunc f && okPort port
  | .remoteGo _ f _ => okFunc f
  | .requestTimeout _ _ => true
  | .sleepStart _ f => okFunc f
  | .sleepRoundTimeout _ => true
  | .gtStart _ f g => okFunc f && okGather g
  | .gatherSchedule _ g => okGather g
  | .gatherElementReduce _ g => okGather g
  | .hbSend _ => true
  | .hb _ path c => okPath path && okLane c.lane && okBeat c.beat
  | .pathTimeout _ path => okPath path
  | .joinTimeout _ => true
  | .contestClose _ => true
  | .isolationTimeout _ => true
  | .clovePeriodic _ => true
  | .mirrorRecs _ c => okPort c.port && okLane c.lane
  | .snapRecs _ c _ => okPort c.port && okLane c.lane
  | .swap _ f => okFunc f
  | .swapPortsStopped _ => true
  | .swapCell _ _ c => okPort c.port && okLane c.lane
  | .sourceInputChange _ src => okIrq src
  | .icSetb _ f i _ => okFunc f && okWord i
  | .icClrb _ f i _ => okFunc f && okWord i
  | .icSetn _ f _ => okFunc f
  | .icClrn _ f _ => okFunc f
  | .icClaim _ f vec => okFunc f && okVector vec
  | .icComplete _ f vec _ => okFunc f && okVector vec
  | .icSrc _ f src _ => okFunc f && okIrq src
  | .icTcfg _ f vec _ => okFunc f && okVector vec
  | .coalesceTimeout _ tgt => okTarget tgt
  | .holdEnd _ tgt _ => okTarget tgt
  | .faultEvent _ src _ => okFault src
  | .railFault _ src => okFault src
  | .causeExpiry _ src => okFault src
  | .fcRec0 _ f => okFunc f
  | .fcGclr _ f g _ => okFunc f && okGroup g
  | .faultTest _ f g _ => okFunc f && okGroup g
  | .domainOff _ f d => okFunc f && okDomain d
  | .domainOn _ f d => okFunc f && okDomain d
  | .domainOffDone _ d => okDomain d
  | .domainOnDone _ d _ => okDomain d
  | .setOp _ f _ => okFunc f
  | .slewSettled _ => true
  | .paceSample _ _ _ => true
  | .paceCal _ f => okFunc f
  | .paceCalDone _ _ => true
  | .sleep _ f p => okFunc f && okFb p
  | .wake _ f p => okFunc f && okFb p
  | .vetoSet _ f p => okFunc f && okFb p
  | .vetoClr _ f p => okFunc f && okFb p
  | .wakeAck _ f p => okFunc f && okFb p
  | .fabricWake _ f => okFunc f
  | .aniseWindowTimeout _ p => okFb p
  | .aniseSleepEntry _ p => okFb p
  | .wakeAnswerTimeout _ p => okFb p
  | .sessionOpen _ f _ => okFunc f
  | .eraseDone _ => true
  | .windowWrite _ f _ _ => okFunc f
  | .pullGo _ f => okFunc f
  | .pullDone _ link _ _ => okLink link
  | .sessionClose _ f => okFunc f
  | .sessionAbort _ f => okFunc f
  | .activate _ f => okFunc f
  | .activateCold _ f => okFunc f
  | .rollfwd _ f => okFunc f
  | .checkDone _ _ => true
  | .gapEnd _ => true
  | .powerOn _ => true
  | .brownOut _ _ => true
  | .resetN _ => true
  | .commandReset _ => true
  | .boot _ _ _ _ _ => true
  | .perst _ link _ => okLink link
  | .tapReset _ => true
  | .idcode _ => true
  | .samplePreload _ => true
  | .extest _ => true
  | .extestPulse _ => true
  | .extestTrain _ => true
  | .clampPins _ => true
  | .highz _ => true
  | .bypass _ => true
  | .termArmDisconnect _ p k => okFb p && okArm k
  | .termArmReconnect _ p k => okFb p && okArm k
  | .thermalShutdown _ p => okFb p
  | .nakRepeat _ port => okPort port
  | .levelCauseEnd _ src => okFault src
  | .maceNetRailEqual _ g _ => okGroup g
  | .thermalRecovery _ p => okFb p
  | .frameStoreScrub _ _ _ => true
  | .leaseRecordPeriodic _ => true
  | .postedCreditReturn _ link _ => okLink link
  | .otpWriteDone _ => true

end Sys2Proof
end

