-- ==== Sys2Proof/Tests/Slice0.lean ====
section
/-! SUPPORT. Tests: ill-formed commands that the checks refuse, worked examples of the spec, and for every statement of
Certificates/Slice0/Obligations.lean states and operands that meet its hypotheses together. -/

set_option maxRecDepth 20000
set_option Elab.async false
set_option linter.unusedVariables false

namespace Sys2Proof.Tests

open Sys2Proof Sys2Proof.Machine

/-! ### WellFormed: one ill-formed command for each check -/

theorem test_wf_access : (Instr.registerWrite 0 ⟨⟨0, 0⟩, 1, 0, true, 1, true, 0⟩).wf = false := by decide
theorem test_wf_inst : (Instr.boundary 0 (.db 12)).wf = false := by decide
theorem test_wf_func : (Instr.flr 0 ⟨0, 256⟩).wf = false := by decide
theorem test_wf_link : (Instr.fetchRequest 0 2).wf = false := by decide
theorem test_wf_ring : (Instr.arm 0 ⟨0, 0⟩ 256 0).wf = false := by decide
theorem test_wf_ringNo : (Instr.cancel 0 65536).wf = false := by decide
theorem test_wf_fb : (Instr.frameTake 0 64).wf = false := by decide
theorem test_wf_header : (Instr.headerEvent 0 1 ⟨0x800, false, false, false, false, false, 0, 0⟩).wf = false := by decide
theorem test_wf_error :
    (Instr.frameError 0 1 ⟨.crc, .receiver, false, 0, false, ⟨0x100, false, true, true, false, false, 0, 0⟩, []⟩).wf = false := by decide
theorem test_wf_mailbox : (Instr.mailboxAutoClose 0 8192).wf = false := by decide
theorem test_wf_cell :
    (Instr.rsp 0 0 { typ := 16, vc := 0, origin := 0, dst := 1, src := 2, tenant := 0, tag := 0, op := 0, gaddr := 0, body := [] }).wf = false := by decide
theorem test_wf_port : (Instr.keep 0 6).wf = false := by decide
theorem test_wf_output : (Instr.ppsOn 0 192).wf = false := by decide
theorem test_wf_sp : (Instr.idleClose 0 24).wf = false := by decide
theorem test_wf_char : (Instr.character 0 0 ⟨[]⟩).wf = false := by decide
theorem test_wf_chars : (Instr.tenSptxD 0 ⟨0, 0⟩ 4 0).wf = false := by decide
theorem test_wf_bank : (Instr.vfLost 0 12).wf = false := by decide
theorem test_wf_line : (Instr.pulseEnd 0 0 16).wf = false := by decide
theorem test_wf_node : (Instr.memberTimeout 0 251).wf = false := by decide
theorem test_wf_gather : (Instr.gatherSchedule 0 1024).wf = false := by decide
theorem test_wf_path : (Instr.pathTimeout 0 3).wf = false := by decide
theorem test_wf_lane : (Instr.mirrorRecs 0 ⟨4, ⟨4096, true, false⟩, []⟩).wf = false := by decide
theorem test_wf_beat : (Instr.hb 0 0 ⟨⟨0, true, false⟩, ⟨8, 0, 0, false, false, false, 0, 0, 0, 0, 0, 0, 0, false⟩⟩).wf = false := by decide
theorem test_wf_irq : (Instr.sourceInputChange 0 1024).wf = false := by decide
theorem test_wf_word : (Instr.icSetb 0 ⟨0, 0⟩ 43 0).wf = false := by decide
theorem test_wf_vector : (Instr.icClaim 0 ⟨0, 0⟩ 64).wf = false := by decide
theorem test_wf_target : (Instr.coalesceTimeout 0 512).wf = false := by decide
theorem test_wf_fault : (Instr.causeExpiry 0 256).wf = false := by decide
theorem test_wf_group : (Instr.maceNetRailEqual 0 16 true).wf = false := by decide
theorem test_wf_domain : (Instr.domainOffDone 0 140).wf = false := by decide
theorem test_wf_arm_ : (Instr.termArmReconnect 0 0 2).wf = false := by decide
theorem test_wf_good : (Instr.arm 0 ⟨1, 255⟩ 255 0).wf = true := by decide

/-! ### The demonstration states -/

def demoPages : List PageOpen := [0x12, 0x22, 0x3A, 0xC6, 0xC7, 0xB1, 
  0x108, 0x202, 0x201, 0x282, 0x288, 0x10, 0x11, 0x13, 0x20, 0x21, 0x30, 0x38, 0x39,
  0x3A, 0x80, 0x82, 0x91, 0xB0, 0xC0, 0xC3, 0xC4, 0xC5, 0x8, 0x9, 0x100, 0x200, 0x240, 0x280, 0x2C0, 0x400].map fun p => ⟨0, 0, p, true⟩
/-- A running device: image `img` with tenant 0 on the PF of H0 and every page open to it, the link up, the PF enabled, and register fields as
listed (field, instance, index, value). -/
def hostImg (m : Image) (regs : List (Fld × Nat × Nat × Nat)) : State :=
  regs.foldl (fun (s : State) x => s.wrA x.1 x.2.1 x.2.2.1 x.2.2.2) <|
  [0, 2].foldl (fun (s : State) p => s.put FB_OWNER_VALID p true) <| State.put (i := 1) (f := SP_OWNER_VALID) (b := true) <|
  (List.range 6).foldl (fun (s : State) j => s.wrA PM_DON_ON 0 j 0xFFFFFF) { State.reset with
    img := { m with bearing0 := true, pages := demoPages }
    sys := { down := false }
    host := { links := [(0, { up := true, perst := false, cfg := true })], fns := [(0, { enabled := true, busMaster := true })] } }
def host (regs : List (Fld × Nat × Nat × Nat)) : State := hostImg {} regs
def hdrDemo : Header := ⟨0x123, false, false, false, false, false, 1, 0⟩
def frameDemo : Frame := ⟨0x123, false, false, false, false, 1, [7]⟩
def errDemo (c : ErrCase) : BusError := ⟨.form, c, false, 9, false, hdrDemo, []⟩
def recDemo : RxRec := ⟨[], 2, false, false, 0, 0, 0, 0, [], []⟩
/-- A queued reply of reflex rule 0. -/
def replyDemo : QEntry := { key := 5, seq := 0, cost := 10, src := .reflex 0, frame := frameDemo }
/-- FB port `p` in state `st`, with further fields. -/
def fbHost (p st : Nat) (regs : List (Fld × Nat × Nat × Nat)) : State := host ((FB_STAT_STATE, p, 0, st) :: regs)
/-- An active port 2 that transmits a queued reply. -/
def sendingDemo (regs : List (Fld × Nat × Nat × Nat)) : State :=
  ((fbHost 2 fbActive regs).setEntries 2 [{ replyDemo with inflight := true }]).setPort 2 fun x =>
    { x with cur := some { own := some 0, hdr := some hdrDemo }, role := true }
/-- Power domain `d` on. -/
def domHost (d : Nat) : State := host [(PM_DON_ON, 0, d / 24, 2 ^ (d % 24))]
def cellDemo (typ : Nat) : Cell := { typ := typ, vc := 0, origin := 0, dst := 1, src := 2, tenant := 0, tag := 0, op := 0, gaddr := 0, body := [] }
/-- Ring link port 0 up. -/
def ringHost (regs : List (Fld × Nat × Nat × Nat)) : State := host ((RL_STAT_STATE, 0, 0, 4) :: regs)
/-- The state with its interval count at `n` seconds. -/
def later (s : State) (n : Nat) : State := { s with time := { s.time with ivl := n * 1000000000 * ivlNs, fab := n * 1000000000 * 2 ^ 32 } }
/-- Bank 0 with its field supply and its power domain. -/
def bankHost (regs : List (Fld × Nat × Nat × Nat)) : State := host ([(PM_DON_ON, 0, 3, 2 ^ 16), (DB_STAT_VF_OK, 0, 0, 1)] ++ regs)
/-- Serial port 1 in state `st`. -/
def spHost (st : Nat) (regs : List (Fld × Nat × Nat × Nat)) : State := host ((SP_STAT_STATE, 1, 0, st) :: regs)
def msgDemo : SpMsg := { tenant := 0, lease := 0, seq := 1, chars := [65], addr := none }
def hbDemo : Heartbeat := ⟨3, 0, 0, false, false, false, 0, 0, 0, 0, 0, 0, 0, false⟩
def groupDemo : GtDef := ⟨[2 ^ 7 + 63, 1 * 2 ^ 14, 100, 0, 0, 0]⟩
def ctxDemo : Ctx := ⟨9, .window 0, 3, 1, 0, some 0⟩
/-- A node numbered 1 whose ring port 1 is up; port 1 is ring A's forward input. -/
def nodeHost (regs : List (Fld × Nat × Nat × Nat)) : State := host ([(RG_CFG_NODE, 0, 0, 1), (RL_STAT_STATE, 1, 0, 4)] ++ regs)
/-- A paired unit in state `st`. -/
def pairHost (st : Nat) (regs : List (Fld × Nat × Nat × Nat)) : State := host ([(PR_CFG_PAIRED, 0, 0, 1), (PR_STAT_STATE, 0, 0, st)] ++ regs)
/-- A source of FB port 2 (16) targets target 3, which is vector 0 of the PF of H0. -/
def irqHost (regs : List (Fld × Nat × Nat × Nat)) : State :=
  hostImg { targets := [(3, ⟨0, 0⟩)] } ([(FB_OWNER_VALID, 2, 0, 1), (IC_SRC_PRI, 0, 16, 5), (IC_SRC_TARGET, 0, 16, 3)] ++ regs)
/-- FB port 2 with an owner and Anise. -/
def aniseHost (st : Nat) (regs : List (Fld × Nat × Nat × Nat)) : State :=
  host ([(FB_STAT_STATE, 2, 0, st), (FB_OWNER_VALID, 2, 0, 1), (PM_ARD1_ANISE_EN, 0, 2, 1)] ++ regs)
def recFault : FaultRec := ⟨0, false, false, false, 3, 2, 0, 0, 0, 0, 0, 9, 1, 2, false⟩
def rcDemo (st typ : Nat) : List (Fld × Nat × Nat × Nat) :=
  [(TEN_RINGS_COUNT, 0, 0, 16), (RC_STAT_STATE, 5, 0, st), (RC_CTL_TYPE, 5, 0, typ), (RC_CTL_LOG2N, 5, 0, 4)]
def sqDemo (typ : Nat) : State :=
  host [(TEN_RINGS_COUNT, 0, 0, 16), (RC_STAT_STATE, 5, 0, 1), (RC_CTL_TYPE, 5, 0, typ), (RC_CTL_LOG2N, 5, 0, 4), (RC_PROD_INDEX, 5, 0, 3),
    (RC_CTL_CQN, 5, 0, 6), (RC_STAT_STATE, 6, 0, 1), (RC_CTL_TYPE, 6, 0, 1), (RC_CTL_LOG2N, 6, 0, 4)]
def readDemo (what : ReadFor) (w : List Work) : State :=
  ((sqDemo 0).setLink 0 fun l => { l with reads := [⟨7, what, 1, false⟩] }).setRing 5 fun g => { g with work := w, reads := [⟨7, 0, 1, none⟩] }
/-- A descriptor: its first bytes, filled with zeros. -/
def descOf (l : List Byte) : List Byte := padTo 32 l
def workDemo (raw : List Byte) : Work := ⟨0, 0, raw, .ready []⟩
def descDemo (raw : List Byte) : State := (sqDemo 0).setRing 5 fun g => { g with work := [workDemo raw] }
def txDemo (quota : Nat) : State := { descDemo (descOf [1, 0, 2, 0, 0x23]) with
  img := { (host []).img with leases := [⟨0, 2, true, 0, 15, 0, 0x7FF, quota, 0, 0, 0⟩] }
  regs := (((sqDemo 0).wr FB_STAT_STATE 2 fbActive).regs) }
/-- A character of low and high levels, each read alike. -/
def charDemo : SerialChar := ⟨(List.range 12).map fun i => (i ≠ 0, i ≠ 0, i ≠ 0)⟩

/-! ### Worked examples of the spec -/

/-- FB20 of chapter 06's worked example: NBT 160, DBT 32. -/
def fb20 : State := host [(FB_NBTA_NSEG1, 20, 0, 127), (FB_NBTB_NSEG2, 20, 0, 32), (FB_DBT_DSEG1, 20, 0, 23), (FB_DBT_DSEG2, 20, 0, 8)]
/-- Entries A, C, D and R of that example. -/
def entryA : Frame := ⟨0x123, false, false, true, true, 9, List.replicate 12 0⟩
def entryC : Frame := ⟨0x190, false, false, false, false, 8, List.replicate 8 0⟩
def entryD : Frame := ⟨0x7E2, false, false, false, false, 2, [0, 0]⟩
def entryR : Frame := ⟨0x185, false, false, false, false, 4, [0, 0, 0, 0]⟩
theorem test_keys : [entryA, entryC, entryD, entryR].map frameKey = [0x24600000, 0x32000000, 0xFC400000, 0x30A00000] := by decide
theorem test_costs : [entryA, entryC, entryD].map (fb20.frameCost 20) = [10368, 21600, 12000] := by decide
/-- Chapter 02's worked example: S = 100. -/
theorem test_split :
    [(⟨0, 100⟩ : Func), ⟨0, 101⟩, ⟨1, 1⟩, ⟨1, 155⟩, ⟨1, 156⟩].map { (host []) with img := { (host []).img with split := 100 } }.tenantNo
    = [some 100, none, some 101, some 255, none] := by decide
/-- R181: FD data lengths; a classic DLC above 8 gives 8, a remote frame 0. -/
theorem test_dataLen :
    [dataLen true false 9, dataLen true false 13, dataLen true false 15, dataLen false false 12, dataLen false true 8] = [12, 32, 64, 8, 0] := by
  decide
/-- R106. -/
theorem test_saturate : ((host [(RG_LATE_RSP_COUNT, 0, 0, 0xFFFFFF)]).bump RG_LATE_RSP_COUNT 0).rd RG_LATE_RSP_COUNT 0 = 0xFFFFFF := by decide
/-- R111: two good copies outvote the third; one good copy alone does not. -/
theorem test_vote : [copiesMajority ⟨5, true, 9, true, 5, true⟩, copiesMajority ⟨5, true, 5, false, 9, true⟩] = [some 5, none] := by decide
/-- R764's CRC-32 on the nine characters 1 to 9: the published check value of that CRC. -/
theorem test_crc32 : crc32 ((List.range 9).map fun i => BitVec.ofNat 8 (0x31 + i)) = 0xCBF43926 := by decide +kernel

/-! ### What meets the hypotheses of each statement -/

theorem wit_FilterAndWindow_1 : ∃ (s u : State) (t : Nat) (a : Access) (l : Loc),
    u = s.tick t ∧ u.serves a = true ∧ a.write = true ∧ a.bar = 0 ∧ u.place a.f a.off = .reg l ∧ l.staged = false ∧ u.hidden (u.tn a.f) l = false ∧
    l.fields ≠ [] ∧ rowWrite t a.f l a.val s = none :=
  ⟨(host []), _, 5, ⟨⟨0, 0⟩, 0, 0x100004, true, 1, true, 7⟩, ⟨.fb, 0, 0, 4, false⟩, rfl, by decide +kernel⟩

theorem wit_FilterAndWindow_2 : ∃ (s u : State) (t : Nat) (a : Access) (l : Loc) (bit : Nat),
    u = s.tick t ∧ u.serves a = true ∧ a.write = true ∧ a.bar = 0 ∧ u.place a.f a.off = .alias_ l bit :=
  ⟨(host []), _, 5, ⟨⟨0, 0⟩, 0, 0x600060, true, 1, true, 1⟩, ⟨.fb, 0, 0, 4, false⟩, 0, rfl, by decide +kernel⟩

theorem wit_FilterAndWindow_3 : ∃ (s u : State) (t : Nat) (a : Access) (l : Loc),
    u = s.tick t ∧ u.answers a.f = true ∧ u.quiet a.f = false ∧ u.refusal a = none ∧ u.inGap = true ∧ a.write = true ∧ a.bar = 0 ∧
    u.place a.f a.off = .reg l ∧ rowWrite t a.f l a.val s = none :=
  ⟨(host [(CU_STAT_PHASE, 0, 0, 2)]), _, 5, ⟨⟨0, 0⟩, 0, 0x100004, true, 1, true, 7⟩, ⟨.fb, 0, 0, 4, false⟩, rfl, by decide +kernel⟩

theorem wit_FilterAndWindow_4 : ∃ (s u : State) (t : Nat) (a : Access) (l : Loc) (bit : Nat),
    u = s.tick t ∧ u.answers a.f = true ∧ u.quiet a.f = false ∧ u.refusal a = none ∧ u.inGap = true ∧ a.write = true ∧ a.bar = 0 ∧
    u.place a.f a.off = .alias_ l bit :=
  ⟨(host [(CU_STAT_PHASE, 0, 0, 2)]), _, 5, ⟨⟨0, 0⟩, 0, 0x600060, true, 1, true, 1⟩, ⟨.fb, 0, 0, 4, false⟩, 0, rfl, by decide +kernel⟩

theorem wit_FilterAndWindow_5 : ∃ (s u : State) (t : Nat) (a : Access),
    u = s.tick t ∧ u.answers a.f = true ∧ u.quiet a.f = false ∧ a.write = true ∧ a.bar = 4 :=
  ⟨(host []), _, 5, ⟨⟨0, 0⟩, 4, 0, true, 1, true, 7⟩, rfl, by decide +kernel⟩

theorem wit_FilterAndWindow_6 : ∃ (s u : State) (t : Nat) (a : Access),
    u = s.tick t ∧ a.write = true ∧ a.bar = cfgSpace :=
  ⟨(host []), _, 5, ⟨⟨0, 0⟩, cfgSpace, 0, true, 1, true, 7⟩, rfl, by decide +kernel⟩

theorem wit_FilterAndWindow_7 : ∃ (s u : State) (t : Nat) (a : Access) (k r : Nat),
    u = s.tick t ∧ u.answers a.f = true ∧ u.quiet a.f = false ∧ u.refusal a = some r ∧ u.tenantNo a.f = some k ∧ a.write = true :=
  ⟨(host []), _, 5, ⟨⟨0, 0⟩, 0, 0x1000, true, 1, true, 7⟩, 0, 1, rfl, by decide +kernel⟩

theorem wit_FilterAndWindow_8 : ∃ (s u : State) (t : Nat) (a : Access) (k r : Nat),
    u = s.tick t ∧ u.answers a.f = true ∧ u.quiet a.f = false ∧ u.refusal a = some r ∧ u.tenantNo a.f = some k ∧ a.write = false ∧ a.bar ≠ 2 :=
  ⟨(host []), _, 5, ⟨⟨0, 0⟩, 0, 0xA0000, false, 1, true, 0⟩, 0, 0, rfl, by decide +kernel⟩

theorem wit_FilterAndWindow_9 : ∃ (s u : State) (t : Nat) (a : Access),
    u = s.tick t ∧ u.answers a.f = true ∧ (u.quiet a.f = true ∨ a.bar = 2) ∧ a.write = false :=
  ⟨(host []), _, 5, ⟨⟨0, 0⟩, 2, 0x1000, false, 1, true, 0⟩, rfl, by decide +kernel⟩

theorem wit_FilterAndWindow_10 : ∃ (s u : State) (t : Nat) (a : Access),
    u = s.tick t ∧ u.answers a.f = true ∧ u.quiet a.f = true ∧ a.write = true :=
  ⟨((host []).setFunc ⟨0, 0⟩ fun g => { g with resetting := true }), _, 5, ⟨⟨0, 0⟩, 0, 0x1000, true, 1, true, 0⟩, rfl, by decide +kernel⟩

theorem wit_FilterAndWindow_11 : ∃ (s u : State) (t : Nat) (a : Access) (found : List Found),
    u = s.tick t ∧ u.serves a = true ∧ a.write = false ∧ a.bar = 0 :=
  ⟨(host []), _, 5, ⟨⟨0, 0⟩, 0, 0x80000, false, 1, true, 0⟩, [], rfl, by decide +kernel⟩

theorem wit_FilterAndWindow_12 : ∃ (s u : State) (t : Nat) (a : Access) (l : Loc) (n : Nat),
    u = s.tick t ∧ u.serves a = true ∧ a.write = false ∧ a.bar = 0 ∧ a.dwords = 1 ∧ u.place a.f a.off = .reg l ∧ l.staged = false ∧
    wideGroupOf l = some (l.off, n) ∧ l.blk ≠ .pq ∧ l.blk ≠ .fc ∧ l.blk ≠ .db :=
  ⟨(host []), _, 5, ⟨⟨0, 0⟩, 0, 0x80000, false, 1, true, 0⟩, ⟨.tu, 0, 0, 0, false⟩, 3, rfl, by decide +kernel⟩

theorem wit_FilterAndWindow_13 : ∃ (s u : State) (t : Nat) (a : Access) (found : List Found),
    u = s.tick t ∧ u.answers a.f = true ∧ u.quiet a.f = false ∧ u.refusal a = none ∧ u.inGap = true ∧ gapReads (u.place a.f a.off) = false ∧
    a.write = false ∧ a.bar = 0 :=
  ⟨(host [(CU_STAT_PHASE, 0, 0, 2)]), _, 5, ⟨⟨0, 0⟩, 0, 0x80000, false, 1, true, 0⟩, [], rfl, by decide +kernel⟩

theorem wit_FilterAndWindow_14 : ∃ (s u : State) (t : Nat) (a : Access) (found : List Found),
    u = s.tick t ∧ a.write = false ∧ a.bar = 4 ∧ u.answers a.f = true ∧ u.quiet a.f = false :=
  ⟨(host []), _, 5, ⟨⟨0, 0⟩, 4, 0, false, 1, true, 0⟩, [], rfl, by decide +kernel⟩

theorem wit_FilterAndWindow_15 : ∃ (s u : State) (t : Nat) (a : Access) (found : List Found),
    u = s.tick t ∧ a.write = false ∧ a.bar = cfgSpace ∧ u.configAnswers a.f = true :=
  ⟨(host []), _, 5, ⟨⟨0, 0⟩, cfgSpace, 0, false, 1, true, 0⟩, [], rfl, by decide +kernel⟩

theorem wit_VotesAndBoundaries_1 : ∃ (s u : State) (t : Nat) (blk inst off lo j v : Nat) (staged : Bool) (f : Fld) (x : Copies),
    u = s.tick t ∧ triplicated blk off lo = some (f, j) ∧ u.justWritten (f.key inst j) (staged && f.acc == .rwb) = false ∧
    copiesMajority x = some v ∧ copiesDamaged x = true :=
  ⟨(host []), _, 5, 4, 2, 0x1000, 2, 0, 3, false, FB_CFG_FDOE, ⟨3, true, 3, true, 9, true⟩, rfl, by decide +kernel⟩

theorem wit_VotesAndBoundaries_2 : ∃ (s u : State) (t : Nat) (blk inst off lo j v : Nat) (staged : Bool) (f : Fld) (x : Copies),
    u = s.tick t ∧ triplicated blk off lo = some (f, j) ∧ u.justWritten (f.key inst j) (staged && f.acc == .rwb) = false ∧
    copiesMajority x = some v ∧ copiesDamaged x = false :=
  ⟨(host []), _, 5, 4, 2, 0x1000, 2, 0, 3, true, FB_CFG_FDOE, ⟨3, true, 3, true, 3, true⟩, rfl, by decide +kernel⟩

theorem wit_VotesAndBoundaries_3 : ∃ (s u : State) (t : Nat) (blk inst off lo j k : Nat) (staged z : Bool) (f : Fld) (x : Copies) (w : State),
    u = s.tick t ∧ z = (staged && f.acc == .rwb) ∧ k = f.key inst j ∧ w = u.setTriple k z ⟨x, u.votedVal f inst j z⟩ ∧
    triplicated blk off lo = some (f, j) ∧ u.justWritten k z = false ∧ copiesMajority x = none ∧ u.isLost k z = false :=
  ⟨(host []), _, 5, 4, 2, 0x1000, 2, 0, _, false, _, FB_CFG_FDOE, ⟨3, true, 4, true, 9, true⟩, _, rfl, rfl, rfl, rfl, by decide +kernel⟩

theorem wit_VotesAndBoundaries_4 : ∃ (s u : State) (t : Nat) (blk inst off lo j : Nat) (staged z : Bool) (f : Fld) (x : Copies),
    u = s.tick t ∧ z = (staged && f.acc == .rwb) ∧ triplicated blk off lo = some (f, j) ∧ u.justWritten (f.key inst j) z = false ∧
    copiesMajority x = none ∧ u.isLost (f.key inst j) z = true :=
  ⟨({ host [] with noMaj := [FB_CFG_FDOE.key 2 0] }), _, 5, 4, 2, 0x1000, 2, 0, false, _, FB_CFG_FDOE, ⟨3, true, 4, true, 9, true⟩, rfl, rfl, by decide +kernel⟩

theorem wit_VotesAndBoundaries_5 : ∃ (s u : State) (t : Nat) (blk inst off lo j : Nat) (staged : Bool) (f : Fld) (x : Copies),
    u = s.tick t ∧ triplicated blk off lo = some (f, j) ∧ u.justWritten (f.key inst j) (staged && f.acc == .rwb) = true :=
  ⟨({ host [] with now := 5, inst_ := { at_ := 5, wrote := [2 * FB_CFG_FDOE.key 2 0] } }), _, 5, 4, 2, 0x1000, 2, 0, false, FB_CFG_FDOE, ⟨3, true, 4, true, 9, true⟩, rfl, by decide +kernel⟩

theorem wit_VotesAndBoundaries_6 : ∃ (s u : State) (t : Nat) (blk inst off lo j : Nat) (f : Fld),
    u = s.tick t ∧ triplicated blk off lo = some (f, j) ∧ f.acc = .rwi ∧ u.noMaj.contains (f.key inst j) = true :=
  ⟨({ State.reset with noMaj := [FB_CFG_FDOE.key 2 0] }), _, 5, 4, 2, 0x1000, 2, 0, FB_CFG_FDOE, rfl, by decide +kernel⟩

theorem wit_VotesAndBoundaries_7 : ∃ (s u : State) (t : Nat) (n : Nat) (w : State),
    u = s.tick t ∧ w = ((rwbFields .rl).foldl (fun (w : State) fj => w.applyField fj.1 n fj.2) u) ∧ n < 4 ∧
    u.flag PG_STAT_PEND (pgInst (.rl n)) = true :=
  ⟨(State.reset.put PG_STAT_PEND (pgInst (.rl 3)) true), _, 5, 3, _, rfl, rfl, by decide +kernel⟩

theorem wit_VotesAndBoundaries_8 : ∃ (s u : State) (t : Nat) (n : Nat) (w : State),
    u = s.tick t ∧ w = ((rwbFields .pl).foldl (fun (w : State) fj => w.applyField fj.1 n fj.2) u) ∧ n < 2 ∧
    u.flag PG_STAT_PEND (pgInst (.pl n)) = true :=
  ⟨(State.reset.put PG_STAT_PEND (pgInst (.pl 1)) true), _, 5, 1, _, rfl, rfl, by decide +kernel⟩

theorem wit_VotesAndBoundaries_9 : ∃ (s u : State) (t : Nat) (p : Nat),
    u = s.tick t ∧ p < 64 :=
  ⟨(host []), _, 5, 63, rfl, by decide +kernel⟩

theorem wit_VotesAndBoundaries_10 : ∃ (s u : State) (t : Nat) (n : Nat),
    u = s.tick t ∧ n < 24 :=
  ⟨(host []), _, 5, 23, rfl, by decide +kernel⟩

theorem wit_VotesAndBoundaries_11 : ∃ (s u : State) (t : Nat) (b : Nat),
    u = s.tick t ∧ b < 12 :=
  ⟨(host []), _, 5, 11, rfl, by decide +kernel⟩

theorem wit_VotesAndBoundaries_12 : ∃ (s u : State) (t : Nat) (f : Func) (i : Inst),
    u = s.tick t ∧ u.takesWrite f (pgCtlOff i) = true :=
  ⟨(host []), _, 5, ⟨0, 0⟩, .rl 1, rfl, by decide +kernel⟩

theorem wit_ResetsOfFunctions_1 : ∃ (s u : State) (t : Nat) (f : Func) (k : Nat) (w : State),
    u = s.tick t ∧ w = u.resetTenant f ∧ f.fn ≠ 0 ∧ u.tenantNo f = some k :=
  ⟨(hostImg { split := 3 } []), _, 5, ⟨0, 3⟩, 3, _, rfl, rfl, by decide +kernel⟩

theorem wit_ResetsOfFunctions_2 : ∃ (s u : State) (t : Nat) (f : Func),
    u = s.tick t ∧ f.fn ≠ 0 ∧ u.tenantNo f = none :=
  ⟨(host []), _, 5, ⟨0, 3⟩, rfl, by decide +kernel⟩

theorem wit_ResetsOfFunctions_3 : ∃ (s u : State) (t : Nat) (f : Func),
    u = s.tick t ∧ f.fn = 0 :=
  ⟨(host []), _, 5, ⟨0, 0⟩, rfl, by decide +kernel⟩

theorem wit_ResetsOfFunctions_7 : ∃ (s u : State) (t : Nat) (link : Nat),
    u = s.tick t ∧ link ≤ 1 :=
  ⟨(host []), _, 5, 1, rfl, by decide +kernel⟩

theorem wit_ResetsOfFunctions_9 : ∃ (s u : State) (t : Nat) (f : Func) (k : Nat) (w x : State),
    u = s.tick t ∧
    w = ((u.setFunc f (fun g => { g with enabled := true, busMaster := true, d3hot := false })).setLink f.link fun l => { l with numVfs := max l.numVfs f.fn }) ∧
    x = ({ w with host := { w.host with heldComps := w.host.heldComps.filter fun y => !w.partRing f y.cq } }) ∧ (u.link f.link).cfg = true ∧
    w.active (w.tn f) f.link = true ∧ w.tenantNo f = some k :=
  ⟨(host []), _, 5, ⟨0, 0⟩, 0, _, _, rfl, rfl, rfl, by decide +kernel⟩

theorem wit_RingCommands_1 : ∃ (s u : State) (t : Nat) (k r : Nat) (f : Func),
    u = s.tick t ∧ k < 256 ∧ u.takesWrite f (rcOff k 0x10) = true ∧ r = u.tn f * 256 + k ∧ u.rd RC_STAT_STATE r = rcIdle ∧ u.armCheck r = 0 :=
  ⟨(host (rcDemo 0 3)), _, 5, 5, 5, ⟨0, 0⟩, rfl, by decide +kernel⟩

theorem wit_RingCommands_2 : ∃ (s u : State) (t : Nat) (k r : Nat) (f : Func),
    u = s.tick t ∧ k < 256 ∧ u.takesWrite f (rcOff k 0x10) = true ∧ r = u.tn f * 256 + k ∧ u.rd RC_STAT_STATE r = rcIdle ∧ u.armCheck r ≠ 0 :=
  ⟨(host []), _, 5, 5, 5, ⟨0, 0⟩, rfl, by decide +kernel⟩

theorem wit_RingCommands_3 : ∃ (s u : State) (t : Nat) (k r : Nat) (f : Func) (both : Bool),
    u = s.tick t ∧ k < 256 ∧ u.takesWrite f (rcOff k 0x10) = true ∧ r = u.tn f * 256 + k ∧ u.rd RC_STAT_STATE r ≠ rcIdle :=
  ⟨(host (rcDemo 1 1)), _, 5, 5, 5, ⟨0, 0⟩, false, rfl, by decide +kernel⟩

theorem wit_RingCommands_4 : ∃ (s u : State) (t : Nat) (k r : Nat) (f : Func) (w : State),
    u = s.tick t ∧ w = ((u.wr RC_STAT_ERRCODE r 0).wr RC_STAT_STATE r rcDraining).disarmWork r ∧ k < 256 ∧ u.takesWrite f (rcOff k 0x10) = true ∧
    r = u.tn f * 256 + k ∧ (u.rd RC_STAT_STATE r = rcArmed ∨ u.rd RC_STAT_STATE r = rcError) ∧ u.rd RC_CTL_TYPE r = 0 :=
  ⟨(host (rcDemo 1 0)), _, 5, 5, 5, ⟨0, 0⟩, _, rfl, rfl, by decide +kernel⟩

theorem wit_RingCommands_5 : ∃ (s u : State) (t : Nat) (k r : Nat) (f : Func) (w : State),
    u = s.tick t ∧ w = (u.wr RC_STAT_ERRCODE r 0).idleRing r ∧ k < 256 ∧ u.takesWrite f (rcOff k 0x10) = true ∧ r = u.tn f * 256 + k ∧
    (u.rd RC_STAT_STATE r = rcArmed ∨ u.rd RC_STAT_STATE r = rcError) ∧
    (u.rd RC_CTL_TYPE r = 1 ∨ u.rd RC_CTL_TYPE r = 2 ∨ u.rd RC_CTL_TYPE r = 3) ∧
    (u.rd RC_CTL_TYPE r = 1 → u.rd RC_STAT_STATE r = rcArmed → u.cqBound r = false) :=
  ⟨(host (rcDemo 1 1)), _, 5, 5, 5, ⟨0, 0⟩, _, rfl, rfl, by decide +kernel⟩

theorem wit_RingCommands_6 : ∃ (s u : State) (t : Nat) (k r : Nat) (f : Func),
    u = s.tick t ∧ k < 256 ∧ u.takesWrite f (rcOff k 0x10) = true ∧ r = u.tn f * 256 + k ∧ u.rd RC_STAT_STATE r = rcArmed ∧
    u.rd RC_CTL_TYPE r = 1 ∧ u.cqBound r = true :=
  ⟨(host (rcDemo 1 1 ++ [(RC_STAT_STATE, 6, 0, 1), (RC_CTL_CQN, 6, 0, 5)])), _, 5, 5, 5, ⟨0, 0⟩, rfl, by decide +kernel⟩

theorem wit_RingCommands_7 : ∃ (s u : State) (t : Nat) (k r : Nat) (f : Func) (both : Bool),
    u = s.tick t ∧ k < 256 ∧ u.takesWrite f (rcOff k 0x10) = true ∧ r = u.tn f * 256 + k ∧
    (both = true ∨ u.rd RC_STAT_STATE r = rcIdle ∨ u.rd RC_STAT_STATE r = rcDraining) :=
  ⟨(host (rcDemo 2 0)), _, 5, 5, 5, ⟨0, 0⟩, false, rfl, by decide +kernel⟩

theorem wit_RingCommands_8 : ∃ (s u : State) (t : Nat) (r : Nat),
    u = s.tick t ∧ u.rd RC_STAT_STATE r = rcDraining ∧ u.rd RC_OUTST_COUNT r = 0 :=
  ⟨(host (rcDemo 2 0)), _, 5, 5, rfl, by decide +kernel⟩

theorem wit_RingCommands_9 : ∃ (s u : State) (t : Nat) (k r v : Nat) (f : Func),
    u = s.tick t ∧ k < 256 ∧ u.answers f = true ∧ u.quiet f = false ∧ u.domOn (134 + f.link) = true ∧ r = u.tn f * 256 + k ∧ u.homeOf r = f.link ∧
    u.rd RC_STAT_STATE r = rcArmed ∧ u.dbValid r v = true ∧ (u.bump HP_DB_CNT_COUNT f.link).inGap = false :=
  ⟨(host (rcDemo 1 0)), _, 5, 5, 5, 15, ⟨0, 0⟩, rfl, by decide +kernel⟩

theorem wit_RingCommands_10 : ∃ (s u : State) (t : Nat) (k r v : Nat) (f : Func),
    u = s.tick t ∧ k < 256 ∧ u.answers f = true ∧ u.quiet f = false ∧ u.domOn (134 + f.link) = true ∧ r = u.tn f * 256 + k ∧ u.homeOf r = f.link ∧
    u.rd RC_STAT_STATE r = rcArmed ∧ u.dbValid r v = true ∧ (u.bump HP_DB_CNT_COUNT f.link).inGap = true :=
  ⟨(host (rcDemo 1 0 ++ [(CU_STAT_PHASE, 0, 0, 2)])), _, 5, 5, 5, 15, ⟨0, 0⟩, rfl, by decide +kernel⟩

theorem wit_RingCommands_11 : ∃ (s u : State) (t : Nat) (k r v : Nat) (f : Func),
    u = s.tick t ∧ k < 256 ∧ u.answers f = true ∧ u.quiet f = false ∧ u.domOn (134 + f.link) = true ∧ r = u.tn f * 256 + k ∧ u.homeOf r = f.link ∧
    u.rd RC_STAT_STATE r = rcArmed ∧ u.dbValid r v = false :=
  ⟨(host (rcDemo 1 0)), _, 5, 5, 5, 16, ⟨0, 0⟩, rfl, by decide +kernel⟩

theorem wit_RingCommands_12 : ∃ (s u : State) (t : Nat) (k r v : Nat) (f : Func),
    u = s.tick t ∧ k < 256 ∧ u.answers f = true ∧ u.quiet f = false ∧ u.domOn (134 + f.link) = true ∧ r = u.tn f * 256 + k ∧ u.homeOf r = f.link ∧
    u.rd RC_STAT_STATE r ≠ rcArmed ∧ u.rd RC_STAT_STATE r ≠ rcIdle :=
  ⟨(host (rcDemo 2 0)), _, 5, 5, 5, 16, ⟨0, 0⟩, rfl, by decide +kernel⟩

theorem wit_RingCommands_13 : ∃ (s u : State) (t : Nat) (k r v : Nat) (f : Func),
    u = s.tick t ∧ k < 256 ∧ u.answers f = true ∧ u.quiet f = false ∧ u.domOn (134 + f.link) = true ∧ r = u.tn f * 256 + k ∧
    (u.homeOf r ≠ f.link ∨ u.rd RC_STAT_STATE r = rcIdle) :=
  ⟨(host []), _, 5, 5, 5, 16, ⟨0, 0⟩, rfl, by decide +kernel⟩

theorem wit_FetchAndReads_1 : ∃ (s u : State) (t : Nat) (link r tag p n q : Nat) (v w x : State),
    u = s.tick t ∧ v = (((u.sqs.filter fun r => u.homeOf r == link).foldl (fun (v : State) r => v.pushPayload r) u).pushPull) ∧
    n = v.fetchLen link r ∧ p = (v.ring r).fetchPos ∧ q = v.cqOf r ∧ w = v.wr RC_OUTST_COUNT q (v.rd RC_OUTST_COUNT q + n) ∧
    x = ((w.setRing r fun g => { g with fetchPos := (p + n) % (2 * w.ringN r), reads := g.reads ++ [{ tag := tag, start := p, n := n }] }).setLink link
      (fun l => { l with rot := r })) ∧ u.inGap = false ∧ u.domOn (134 + link) = true ∧ v.nextSq link = some r ∧ (v.link link).freeTag = some tag ∧
    n ≠ 0 :=
  ⟨(sqDemo 0), _, 5, 0, 5, 0, 0, _, 6, _, _, _, rfl, rfl, rfl, rfl, rfl, rfl, rfl, by decide +kernel⟩

theorem wit_FetchAndReads_2 : ∃ (s u : State) (t : Nat) (link : Nat) (v : State),
    u = s.tick t ∧ v = (((u.sqs.filter fun r => u.homeOf r == link).foldl (fun (v : State) r => v.pushPayload r) u).pushPull) ∧ u.inGap = false ∧
    u.domOn (134 + link) = true ∧ (v.nextSq link = none ∨ (v.link link).freeTag = none) :=
  ⟨(host []), _, 5, 0, _, rfl, rfl, by decide +kernel⟩

theorem wit_FetchAndReads_3 : ∃ (s u : State) (t : Nat) (link tag tg r start n at_ : Nat) (bytes : List Byte) (w : State),
    u = s.tick t ∧
    w = ((u.endRead link tag).setRing r (fun g => { g with reads := g.reads.map fun x =>
      if x.tag = tag ∧ x.start = start then { x with data := some (splitDescs n bytes) } else x })) ∧
    u.readOf link tag = some ⟨tg, .desc r start n, at_, false⟩ :=
  ⟨(readDemo (.desc 5 0 1) []), _, 5, 0, 7, 7, 5, 0, 1, 1, [], _, rfl, rfl, by decide +kernel⟩

theorem wit_FetchAndReads_4 : ∃ (s u : State) (t : Nat) (link tag tg r start n at_ cause : Nat) (w x : State),
    u = s.tick t ∧ w = ((u.endRead link tag).bump HP_RDERR_COUNT link).cutReads r start ∧
    x = (w.wr RC_STAT_STATE r rcError).wr RC_STAT_CAUSE r cause ∧ u.readOf link tag = some ⟨tg, .desc r start n, at_, false⟩ ∧
    w.rd RC_STAT_STATE r = rcArmed :=
  ⟨(readDemo (.desc 5 0 1) []), _, 5, 0, 7, 7, 5, 0, 1, 1, 2, _, _, rfl, rfl, rfl, by decide +kernel⟩

theorem wit_FetchAndReads_5 : ∃ (s u : State) (t : Nat) (link tag tg r start n at_ cause : Nat) (w : State),
    u = s.tick t ∧ w = ((u.endRead link tag).bump HP_RDERR_COUNT link).cutReads r start ∧
    u.readOf link tag = some ⟨tg, .desc r start n, at_, false⟩ ∧ w.rd RC_STAT_STATE r ≠ rcArmed :=
  ⟨((readDemo (.desc 5 0 1) []).wr RC_STAT_STATE 5 2), _, 5, 0, 7, 7, 5, 0, 1, 1, 2, _, rfl, rfl, by decide +kernel⟩

theorem wit_FetchAndReads_6 : ∃ (s u : State) (t : Nat) (link tag tg r start n at_ : Nat) (res : ReadResult),
    u = s.tick t ∧ u.readOf link tag = some ⟨tg, .desc r start n, at_, true⟩ :=
  ⟨((sqDemo 0).setLink 0 fun l => { l with reads := [⟨7, .desc 5 0 1, 1, true⟩] }), _, 5, 0, 7, 7, 5, 0, 1, 1, .err 2, rfl, by decide +kernel⟩

theorem wit_FetchAndReads_7 : ∃ (s u : State) (t : Nat) (link tag tg r q at_ : Nat) (bytes : List Byte) (w : Work),
    u = s.tick t ∧ u.readOf link tag = some ⟨tg, .payload r q, at_, false⟩ ∧
    (((u.endRead link tag).ring r).work.find? (fun x => x.seq == q) = some w) :=
  ⟨(readDemo (.payload 5 0) [⟨0, 0, [], .reading⟩]), _, 5, 0, 7, 7, 5, 0, 1, [], ⟨0, 0, [], .reading⟩, rfl, by decide +kernel⟩

theorem wit_FetchAndReads_8 : ∃ (s u : State) (t : Nat) (link tag tg r q at_ cause : Nat) (w : Work) (rest : List Work) (x : State),
    u = s.tick t ∧ x = (((u.endRead link tag).bump HP_RDERR_COUNT link).setPayload r q .failed).moveHead r ∧ (x.ring r).work = w :: rest ∧
    u.readOf link tag = some ⟨tg, .payload r q, at_, false⟩ ∧ w.seq = q ∧ x.inGap = false :=
  ⟨(readDemo (.payload 5 0) [⟨0, 0, [], .reading⟩]), _, 5, 0, 7, 7, 5, 0, 1, 2, _, _, _, rfl, rfl, rfl, by decide +kernel⟩

theorem wit_FetchAndReads_9 : ∃ (s u : State) (t : Nat) (link tag tg r q at_ : Nat) (res : ReadResult),
    u = s.tick t ∧ u.readOf link tag = some ⟨tg, .payload r q, at_, true⟩ :=
  ⟨((sqDemo 0).setLink 0 fun l => { l with reads := [⟨7, .payload 5 0, 1, true⟩] }), _, 5, 0, 7, 7, 5, 0, 1, .err 2, rfl, by decide +kernel⟩

theorem wit_FetchAndReads_10 : ∃ (s u : State) (t : Nat) (link tag : Nat) (x : HostRead),
    u = s.tick t ∧ u.readOf link tag = some x ∧ x.at_ + (u.link link).ctoMin ≤ u.now ∧ x.dead = false :=
  ⟨(readDemo (.desc 5 0 1) []), _, 6400001, 0, 7, ⟨7, .desc 5 0 1, 1, false⟩, rfl, by decide +kernel⟩

theorem wit_FetchAndReads_11 : ∃ (s u : State) (t : Nat) (link tag : Nat) (x : HostRead),
    u = s.tick t ∧ u.readOf link tag = some x ∧ x.at_ + (u.link link).ctoMin ≤ u.now ∧ x.dead = true :=
  ⟨((sqDemo 0).setLink 0 fun l => { l with reads := [⟨7, .pull, 1, true⟩] }), _, 6400001, 0, 7, ⟨7, .pull, 1, true⟩, rfl, by decide +kernel⟩

theorem wit_Descriptors_1 : ∃ (s u : State) (t : Nat) (r st : Nat) (w : Work) (rest : List Work),
    u = s.tick t ∧ (u.ring r).work = w :: rest ∧ u.inGap = false ∧ opKnown (descOp w.raw) = false ∧ descStatus w.raw = some st :=
  ⟨(descDemo (descOf [9])), _, 5, 5, 1, _, _, rfl, rfl, by decide +kernel⟩

theorem wit_Descriptors_2 : ∃ (s u : State) (t : Nat) (r st : Nat) (w : Work) (rest : List Work) (c : Nat × Instr),
    u = s.tick t ∧ (u.ring r).work = w :: rest ∧ u.inGap = false ∧ descStatus w.raw = some st ∧ c.1 = descOp w.raw ∧
    c ∈ [(1, .txFrame t r), (2, .cancel t r), (3, .alloc t r), (4, .freeSlot t r), (5, .writeSlot t r), (6, .fence t r), (7, .nop t r)] :=
  ⟨(descDemo (descOf [7, 0xFF])), _, 5, 5, 2, _, _, (7, .nop 5 5), rfl, rfl, by decide +kernel⟩

theorem wit_Descriptors_3 : ∃ (s u : State) (t : Nat) (r : Nat) (w : Work) (b : List Byte),
    u = s.tick t ∧ u.firstDesc r 7 w b = true :=
  ⟨(descDemo (descOf [7])), _, 5, 5, workDemo (descOf [7]), [], rfl, by decide +kernel⟩

theorem wit_Descriptors_4 : ∃ (s u : State) (t : Nat) (r : Nat) (w : Work) (b : List Byte),
    u = s.tick t ∧ u.firstDesc r 6 w b = true ∧ (u.ring r).behind = false :=
  ⟨(descDemo (descOf [6])), _, 5, 5, workDemo (descOf [6]), [], rfl, by decide +kernel⟩

theorem wit_Descriptors_5 : ∃ (s u : State) (t : Nat) (r : Nat) (w : Work) (b : List Byte),
    u = s.tick t ∧ u.firstDesc r 6 w b = true ∧ (u.ring r).behind = true :=
  ⟨((descDemo (descOf [6])).setRing 5 fun g => { g with work := [⟨1, 0, descOf [6], .ready []⟩], live := [0, 1] }), _, 5, 5, ⟨1, 0, descOf [6], .ready []⟩, [], rfl, by decide +kernel⟩

theorem wit_Descriptors_6 : ∃ (s u : State) (t : Nat) (r p : Nat) (w : Work) (b d : List Byte) (f : Frame) (x y : State),
    u = s.tick t ∧ x = u.popWork r ∧
    d = (if descPsrc w.raw = 2 then padTo (descLen w.raw) (x.paySlot (x.homeOf r) (bitsOf (descHandle w.raw) 0 12)).data else b) ∧
    p = descField w.raw 2 1 ∧ f = { descFrame w.raw with data := d } ∧
    y = (((x.bump HP_REFUSE_CNT_COUNT (x.homeOf r)).wr HP_LASTREF_STATUS (x.homeOf r) 0x40).wr HP_LASTREF_PORT (x.homeOf r) p).wr HP_LASTREF_TENANT (x.homeOf r) (r / 256) ∧
    u.firstDesc r 1 w b = true ∧ (descPsrc w.raw ≠ 2 ∨ x.handleReason (x.homeOf r) (r / 256) (descHandle w.raw) = 0) ∧
    x.txLease (r / 256) p f = none :=
  ⟨(descDemo (descOf [1, 0, 2, 0, 0x23])), _, 5, 5, _, workDemo (descOf [1, 0, 2, 0, 0x23]), [], _, _, _, _, rfl, rfl, rfl, rfl, rfl, rfl, by decide +kernel⟩

theorem wit_Descriptors_7 : ∃ (s u : State) (t : Nat) (r p l st : Nat) (w : Work) (b d : List Byte) (f : Frame) (x y : State),
    u = s.tick t ∧ x = u.popWork r ∧
    d = (if descPsrc w.raw = 2 then padTo (descLen w.raw) (x.paySlot (x.homeOf r) (bitsOf (descHandle w.raw) 0 12)).data else b) ∧
    p = descField w.raw 2 1 ∧ f = { descFrame w.raw with data := d } ∧
    y = (((x.bump HP_REFUSE_CNT_COUNT (x.homeOf r)).wr HP_LASTREF_STATUS (x.homeOf r) st).wr HP_LASTREF_PORT (x.homeOf r) p).wr HP_LASTREF_TENANT (x.homeOf r) (r / 256) ∧
    u.firstDesc r 1 w b = true ∧ (descPsrc w.raw ≠ 2 ∨ x.handleReason (x.homeOf r) (r / 256) (descHandle w.raw) = 0) ∧
    x.txLease (r / 256) p f = some l ∧ x.refuses p = some st :=
  ⟨((txDemo 1).wr FB_STAT_STATE 2 fbDisabled), _, 5, 5, _, 0, 0x42, workDemo (descOf [1, 0, 2, 0, 0x23]), [], _, _, _, _, rfl, rfl, rfl, rfl, rfl, rfl, by decide +kernel⟩

theorem wit_Descriptors_8 : ∃ (s u : State) (t : Nat) (r p l : Nat) (w : Work) (b d : List Byte) (f : Frame) (x y : State),
    u = s.tick t ∧ x = u.popWork r ∧
    d = (if descPsrc w.raw = 2 then padTo (descLen w.raw) (x.paySlot (x.homeOf r) (bitsOf (descHandle w.raw) 0 12)).data else b) ∧
    p = descField w.raw 2 1 ∧ f = { descFrame w.raw with data := d } ∧
    y = (((x.bump HP_REFUSE_CNT_COUNT (x.homeOf r)).wr HP_LASTREF_STATUS (x.homeOf r) 0x41).wr HP_LASTREF_PORT (x.homeOf r) p).wr HP_LASTREF_TENANT (x.homeOf r) (r / 256) ∧
    u.firstDesc r 1 w b = true ∧ (descPsrc w.raw ≠ 2 ∨ x.handleReason (x.homeOf r) (r / 256) (descHandle w.raw) = 0) ∧
    x.txLease (r / 256) p f = some l ∧ x.refuses p = none ∧ (((x.img.leases[l]?).map (·.quota)).getD 0 ≤ (x.lrt l).used ∨ x.queueFull p = true) :=
  ⟨(txDemo 0), _, 5, 5, _, 0, workDemo (descOf [1, 0, 2, 0, 0x23]), [], _, _, _, _, rfl, rfl, rfl, rfl, rfl, rfl, by decide +kernel⟩

theorem wit_Descriptors_9 : ∃ (s u : State) (t : Nat) (r p l : Nat) (w : Work) (b d : List Byte) (f : Frame) (x y : State),
    u = s.tick t ∧ x = u.popWork r ∧
    d = (if descPsrc w.raw = 2 then padTo (descLen w.raw) (x.paySlot (x.homeOf r) (bitsOf (descHandle w.raw) 0 12)).data else b) ∧
    p = descField w.raw 2 1 ∧ f = { descFrame w.raw with data := d } ∧ y = ((x.bump HP_ADM_CNT_COUNT (x.homeOf r)).checkPtrs p).settleFaults ∧
    u.firstDesc r 1 w b = true ∧ (descPsrc w.raw ≠ 2 ∨ x.handleReason (x.homeOf r) (r / 256) (descHandle w.raw) = 0) ∧
    x.txLease (r / 256) p f = some l ∧ x.refuses p = none ∧ (x.lrt l).used < ((x.img.leases[l]?).map (·.quota)).getD 0 ∧ x.queueFull p = false ∧
    y.flag PQ_STAT_RESETTING p = false :=
  ⟨(txDemo 1), _, 5, 5, _, 0, workDemo (descOf [1, 0, 2, 0, 0x23]), [], _, _, _, _, rfl, rfl, rfl, rfl, rfl, rfl, by decide +kernel⟩

theorem wit_Descriptors_10 : ∃ (s u : State) (t : Nat) (r p l : Nat) (w : Work) (b d : List Byte) (f : Frame) (x y : State),
    u = s.tick t ∧ x = u.popWork r ∧
    d = (if descPsrc w.raw = 2 then padTo (descLen w.raw) (x.paySlot (x.homeOf r) (bitsOf (descHandle w.raw) 0 12)).data else b) ∧
    p = descField w.raw 2 1 ∧ f = { descFrame w.raw with data := d } ∧ y = ((x.bump HP_ADM_CNT_COUNT (x.homeOf r)).checkPtrs p).settleFaults ∧
    u.firstDesc r 1 w b = true ∧ (descPsrc w.raw ≠ 2 ∨ x.handleReason (x.homeOf r) (r / 256) (descHandle w.raw) = 0) ∧
    x.txLease (r / 256) p f = some l ∧ x.refuses p = none ∧ (x.lrt l).used < ((x.img.leases[l]?).map (·.quota)).getD 0 ∧ x.queueFull p = false ∧
    y.flag PQ_STAT_RESETTING p = true :=
  ⟨((txDemo 1).put PQ_STAT_RESETTING 2 true), _, 5, 5, _, 0, workDemo (descOf [1, 0, 2, 0, 0x23]), [], _, _, _, _, rfl, rfl, rfl, rfl, rfl, rfl, by decide +kernel⟩

theorem wit_Descriptors_11 : ∃ (s u : State) (t : Nat) (r why : Nat) (w : Work) (b : List Byte) (x y : State),
    u = s.tick t ∧ x = u.popWork r ∧ why = x.handleReason (x.homeOf r) (r / 256) (descHandle w.raw) ∧
    y = (x.bump TEN_BADHDL_COUNT (r / 256)).event (r / 256) 0x0005 (r % 256) (leBytes 3 (descHandle w.raw) ++ [1, BitVec.ofNat 8 why]) ∧
    u.firstDesc r 1 w b = true ∧ descPsrc w.raw = 2 ∧ why ≠ 0 :=
  ⟨(descDemo (descOf [1, 8, 2, 0, 0x23])), _, 5, 5, _, workDemo (descOf [1, 8, 2, 0, 0x23]), [], _, _, rfl, rfl, rfl, rfl, by decide +kernel⟩

theorem wit_SlotsAndCancels_no_slot : ∃ (s u : State) (t : Nat) (r : Nat) (w : Work) (b : List Byte) (x : State), u = s.tick t ∧
    x = (u.popWork r).draw ∧ u.firstDesc r 3 w b = true ∧ (x.pickSlot ((u.popWork r).homeOf r) = none ∨
      x.rd TEN_TXPOOL_POOL (r / 256) ≤ x.slotsHeld ((u.popWork r).homeOf r) (r / 256)) :=
  ⟨descDemo (descOf [3]), _, 5, 5, workDemo (descOf [3]), [], _, rfl, rfl, by decide +kernel, Or.inr (by decide +kernel)⟩
theorem wit_SlotsAndCancels_alloc : ∃ (s u : State) (t : Nat) (r n link use : Nat) (w : Work) (b : List Byte) (x : State), u = s.tick t ∧
    x = (u.popWork r).draw ∧ link = (u.popWork r).homeOf r ∧ use = ((x.paySlot link n).use + 1) % 256 ∧ u.firstDesc r 3 w b = true ∧
    x.pickSlot link = some n ∧ x.slotsHeld link (r / 256) < x.rd TEN_TXPOOL_POOL (r / 256) :=
  ⟨(descDemo (descOf [3])).wr TEN_TXPOOL_POOL 0 2, _, 5, 5, _, _, _, workDemo (descOf [3]), [], _, rfl, rfl, rfl, rfl, by decide +kernel,
    List.getElem?_eq_getElem (Nat.mod_lt _ (by decide +kernel)), by decide +kernel⟩
theorem wit_SlotsAndCancels_3 : ∃ (s u : State) (t : Nat) (r : Nat) (w : Work) (b : List Byte) (x : State),
    u = s.tick t ∧ x = u.popWork r ∧ u.firstDesc r 4 w b = true ∧ x.handleReason (x.homeOf r) (r / 256) (descHandle w.raw) = 0 :=
  ⟨((descDemo (descOf [4])).setLink 0 fun l => { l with slots := [(0, ⟨0, some 0, []⟩)] }), _, 5, 5, workDemo (descOf [4]), [], _, rfl, rfl, by decide +kernel⟩

theorem wit_SlotsAndCancels_4 : ∃ (s u : State) (t : Nat) (r : Nat) (w : Work) (b : List Byte) (x : State),
    u = s.tick t ∧ x = u.popWork r ∧ u.firstDesc r 5 w b = true ∧ x.handleReason (x.homeOf r) (r / 256) (descHandle w.raw) = 0 :=
  ⟨((descDemo (descOf [5, 0, 0, 1])).setLink 0 fun l => { l with slots := [(0, ⟨0, some 0, []⟩)] }), _, 5, 5, workDemo (descOf [5, 0, 0, 1]), [], _, rfl, rfl, by decide +kernel⟩

theorem wit_SlotsAndCancels_5 : ∃ (s u : State) (t : Nat) (r why : Nat) (w : Work) (b : List Byte) (x y : State) (c : Nat × Instr),
    u = s.tick t ∧ x = u.popWork r ∧ why = x.handleReason (x.homeOf r) (r / 256) (descHandle w.raw) ∧
    y = (x.bump TEN_BADHDL_COUNT (r / 256)).event (r / 256) 0x0005 (r % 256) (leBytes 3 (descHandle w.raw) ++ [BitVec.ofNat 8 c.1, BitVec.ofNat 8 why]) ∧
    c ∈ [(4, .freeSlot t r), (5, .writeSlot t r)] ∧ u.firstDesc r c.1 w b = true ∧ why ≠ 0 :=
  ⟨(descDemo (descOf [5, 0, 0, 1])), _, 5, 5, _, workDemo (descOf [5, 0, 0, 1]), [], _, _, (5, .writeSlot 5 5), rfl, rfl, rfl, rfl, by decide +kernel⟩

theorem wit_SlotsAndCancels_6 : ∃ (s u : State) (t : Nat) (r p : Nat) (w : Work) (b : List Byte) (x y z : State) (hit : List QEntry),
    u = s.tick t ∧ p = descField w.raw 2 1 ∧ x = ((u.popWork r).checkPtrs p).settleFaults ∧
    hit = ((x.queue p).entries.filter fun e => x.named r w e) ∧
    y = ((hit.filter fun e => !e.inflight).foldl (fun (y : State) (e : QEntry) => (y.returnEntry p e 0x48).countCancel e) x) ∧
    z = ((hit.filter fun e => e.inflight && e.mark.isNone).foldl (fun (z : State) (e : QEntry) => z.setEntry p e fun e => { e with mark := some 0x48 }) y) ∧
    u.firstDesc r 2 w b = true :=
  ⟨(descDemo (descOf [2])), _, 5, 5, _, workDemo (descOf [2]), [], _, _, _, _, rfl, rfl, rfl, rfl, rfl, rfl, by decide +kernel⟩

theorem wit_BusTraffic_1 : ∃ (s u : State) (t : Nat) (p : Nat) (h : Header),
    u = s.tick t ∧ restrictable (u.fstate p) = true ∧ u.fstate p ≠ fbIntegrating ∧ (u.port p).reint = false ∧ (u.port p).cur = none ∧
    u.formatError p h = false :=
  ⟨(fbHost 2 fbActive []), _, 5, 2, hdrDemo, rfl, by decide +kernel⟩

theorem wit_BusTraffic_2 : ∃ (s u : State) (t : Nat) (p : Nat) (h : Header) (c : CurFrame),
    u = s.tick t ∧ (u.port p).cur = some c ∧ restrictable (u.fstate p) = true ∧ u.fstate p ≠ fbIntegrating ∧ (u.port p).reint = false ∧
    c.hdr = none ∧ (c.own ≠ none ∨ u.formatError p h = false) :=
  ⟨((fbHost 2 fbActive []).setPort 2 fun x => { x with cur := some { own := some 0 } }), _, 5, 2, hdrDemo, _, rfl, rfl, by decide +kernel⟩

theorem wit_BusTraffic_3 : ∃ (s u : State) (t : Nat) (p : Nat) (h : Header),
    u = s.tick t ∧ restrictable (u.fstate p) = true ∧ u.fstate p ≠ fbIntegrating ∧ (u.port p).reint = false ∧ (u.port p).cur = none ∧
    u.formatError p h = true :=
  ⟨(fbHost 2 fbActive []), _, 5, 2, { hdrDemo with fdf := true }, rfl, by decide +kernel⟩

theorem wit_BusTraffic_4 : ∃ (s u : State) (t : Nat) (p : Nat) (data : List Byte) (c : CurFrame) (h : Header) (w y x : State),
    u = s.tick t ∧ w = (u.countFrame p false).frameGood p false ∧ y = w.endCur p false ∧ x = (y.setPort p fun q => { q with suspend := false }) ∧
    (u.port p).cur = some c ∧ c.hdr = some h ∧ c.own = none :=
  ⟨((fbHost 2 fbActive []).setPort 2 fun x => { x with cur := some { hdr := some hdrDemo, own := none, bank := 1 } }), _, 5, 2, [], { hdr := some hdrDemo, own := none, bank := 1 }, hdrDemo, _, _, _, rfl, rfl, rfl, rfl, by decide +kernel⟩

theorem wit_BusTraffic_5 : ∃ (s u : State) (t : Nat) (p q : Nat) (data : List Byte) (c : CurFrame) (h : Header) (w y x : State),
    u = s.tick t ∧ w = (u.countFrame p true).frameGood p true ∧ y = w.endCur p false ∧
    x = (y.setPort p fun z => { z with suspend := y.fstate p == fbPassive }) ∧ (u.port p).cur = some c ∧ c.hdr = some h ∧ c.own = some q :=
  ⟨(sendingDemo []), _, 5, 2, 0, [], { own := some 0, hdr := some hdrDemo }, hdrDemo, _, _, _, rfl, rfl, rfl, rfl, by decide +kernel⟩

theorem wit_BusTraffic_6 : ∃ (s u : State) (t : Nat) (p : Nat) (e : QEntry),
    u = s.tick t ∧ u.mayStart p = true ∧ u.presented p = some e ∧ (u.queue p).ptrA = (u.queue p).ptrB :=
  ⟨((fbHost 2 fbActive []).setEntries 2 [replyDemo]), _, 5, 2, replyDemo, rfl, by decide +kernel⟩

theorem wit_BusTraffic_7 : ∃ (s u : State) (t : Nat) (p : Nat) (e : QEntry),
    u = s.tick t ∧ u.mayStart p = true ∧ u.presented p = some e ∧ (u.queue p).ptrA ≠ (u.queue p).ptrB :=
  ⟨(((fbHost 2 fbActive []).setEntries 2 [replyDemo]).setQueue 2 fun q => { q with ptrB := [77] }), _, 5, 2, replyDemo, rfl, by decide +kernel⟩

theorem wit_BusTraffic_8 : ∃ (s u : State) (t : Nat) (p : Nat),
    u = s.tick t ∧ u.mayStart p = true ∧ u.presented p = none :=
  ⟨(fbHost 2 fbActive []), _, 5, 2, rfl, by decide +kernel⟩

theorem wit_BusTraffic_9 : ∃ (s u : State) (t : Nat) (p : Nat) (w : State),
    u = s.tick t ∧ w = (u.setPort p fun x => { x with cur := x.cur.map (fun (c : CurFrame) => { c with own := none }), role := false }) ∧
    u.sending p = true :=
  ⟨(sendingDemo []), _, 5, 2, _, rfl, rfl, by decide +kernel⟩

theorem wit_BusTraffic_10 : ∃ (s u : State) (t : Nat) (link : Nat) (f : DelFrame) (rest q : List DelFrame) (x : State × List Deliv),
    u = s.tick t ∧ tget [] u.rx.deq link = f :: rest ∧
    x = (f.delivs.foldl (fun (a : State × List Deliv) (d : Deliv) => if a.2.isEmpty && a.1.canPost link then (a.1.issueRq d, []) else (a.1, a.2 ++ [d])) (u, [])) ∧
    q = (if x.2.isEmpty then rest else { f with delivs := x.2 } :: rest) ∧ u.domOn (134 + link) = true :=
  ⟨({ host [] with rx := { deq := [(0, [⟨none, [{ ring := 4, lease := none, slot := none, rec_ := recDemo }]⟩])] } }), _, 5, 0, _, _, _, _, rfl, rfl, rfl, rfl, by decide +kernel⟩

theorem wit_BusErrors_1 : ∃ (s u : State) (t : Nat) (p : Nat) (e : BusError),
    u = s.tick t ∧ u.running p = true ∧ u.restricted p = false ∧ u.errorFits p e.case_ = true ∧ e.case_ ≠ .receiverDominant ∧
    e.case_ ≠ .dominantRun ∧ e.case_ ≠ .flagBit :=
  ⟨(fbHost 2 fbActive []), _, 5, 2, errDemo .receiver, rfl, by decide +kernel⟩

theorem wit_BusErrors_2 : ∃ (s u : State) (t : Nat) (p : Nat) (e : BusError),
    u = s.tick t ∧ u.running p = true ∧ u.restricted p = false ∧ u.errorFits p e.case_ = true ∧ e.case_ = .receiverDominant :=
  ⟨((fbHost 2 fbActive []).setPort 2 fun x => { x with tail := true }), _, 5, 2, errDemo .receiverDominant, rfl, by decide +kernel⟩

theorem wit_BusErrors_3 : ∃ (s u : State) (t : Nat) (p : Nat) (e : BusError),
    u = s.tick t ∧ u.running p = true ∧ u.restricted p = false ∧ u.errorFits p e.case_ = true ∧ e.case_ = .dominantRun :=
  ⟨((fbHost 2 fbActive []).setPort 2 fun x => { x with tail := true }), _, 5, 2, errDemo .dominantRun, rfl, by decide +kernel⟩

theorem wit_BusErrors_4 : ∃ (s u : State) (t : Nat) (p : Nat) (e : BusError),
    u = s.tick t ∧ u.running p = true ∧ u.restricted p = false ∧ u.errorFits p e.case_ = true ∧ e.case_ = .flagBit :=
  ⟨((fbHost 2 fbActive []).setPort 2 fun x => { x with tail := true }), _, 5, 2, errDemo .flagBit, rfl, by decide +kernel⟩

theorem wit_BusErrors_5 : ∃ (s u : State) (t : Nat) (p : Nat) (e : BusError),
    u = s.tick t ∧ u.running p = true ∧ u.restricted p = true ∧ (u.port p).role = false :=
  ⟨(fbHost 2 fbActive [(FB_STAT_R_OWN, 2, 0, 1)]), _, 5, 2, errDemo .receiver, rfl, by decide +kernel⟩

theorem wit_BusErrors_6 : ∃ (s u : State) (t : Nat) (p : Nat) (c : OverloadCause),
    u = s.tick t ∧ u.running p = true ∧ u.restricted p = false ∧ (u.port p).cur = none :=
  ⟨(fbHost 2 fbActive []), _, 5, 2, .intermission, rfl, by decide +kernel⟩

theorem wit_BusErrors_7 : ∃ (s u : State) (t : Nat) (p : Nat),
    u = s.tick t ∧ u.running p = true ∧ u.flag FB_CFG_FDOE p = true ∧ u.flag FB_CFG_PEX p = true ∧ u.sending p = false :=
  ⟨(fbHost 2 fbActive [(FB_CFG_FDOE, 2, 0, 1), (FB_CFG_PEX, 2, 0, 1)]), _, 5, 2, rfl, by decide +kernel⟩

theorem wit_BusErrors_8 : ∃ (s u : State) (t : Nat) (p : Nat) (w : State),
    u = s.tick t ∧ w = (u.setPort p fun x => { x with cur := x.cur.map (fun (c : CurFrame) => { c with sat := true }) }) ∧ u.measures p = true ∧
    u.flag FB_CFG_TDCE p = true :=
  ⟨(((fbHost 2 fbActive [(FB_CFG_TDCE, 2, 0, 1)]).setEntries 2 [{ replyDemo with inflight := true, frame := { frameDemo with fdf := true, brs := true } }]).setPort 2
      fun x => { x with cur := some { own := some 0 }, role := true, taken := some (0, false) }), _, 5, 2, _, rfl, rfl, by decide +kernel⟩

theorem wit_PortStates_disable : ∃ (s u w : State) (t p code : Nat) (f : Func), u = s.tick t ∧ (w, code) = u.cmdDisable p ∧ u.takesWrite f (fbOff p 8) = true ∧
    u.fstate p ≠ fbAbsent ∧ (u.port p).leaving = false :=
  ⟨fbHost 2 fbActive [], _, _, 5, 2, _, ⟨0, 0⟩, rfl, rfl, by decide +kernel⟩
theorem wit_PortStates_clear : ∃ (s u w : State) (t p code : Nat) (f : Func), u = s.tick t ∧ (w, code) = u.cmdClear p ∧ u.takesWrite f (fbOff p 8) = true ∧
    u.fstate p = fbBusOff ∧ (u.port p).leaving = false :=
  ⟨fbHost 2 fbBusOff [], _, _, 5, 2, _, ⟨0, 0⟩, rfl, rfl, by decide +kernel⟩
theorem wit_PortStates_1 : ∃ (s u : State) (t : Nat) (p : Nat),
    u = s.tick t ∧ u.fstate p = fbIntegrating ∧ (u.port p).xcvrBy = none ∧
    ((((u.setFstate p fbActive).errState p).fbBoundary p).an p).wakeDue = false :=
  ⟨(fbHost 2 fbIntegrating []), _, 5, 2, rfl, by decide +kernel⟩

theorem wit_PortStates_2 : ∃ (s u : State) (t : Nat) (p : Nat) (w : State),
    u = s.tick t ∧ w = ((u.setFstate p fbActive).errState p).fbBoundary p ∧ u.fstate p = fbIntegrating ∧ (u.port p).xcvrBy = none ∧
    (w.an p).wakeDue = true :=
  ⟨((fbHost 2 fbIntegrating []).setAn 2 fun a => { a with wakeDue := true }), _, 5, 2, _, rfl, rfl, by decide +kernel⟩

theorem wit_PortStates_3 : ∃ (s u : State) (t : Nat) (p : Nat),
    u = s.tick t ∧ (u.fstate p = fbBusOff ∨ u.fstate p = fbRecovering) ∧ (u.port p).xcvrBy = none :=
  ⟨(fbHost 2 fbRecovering []), _, 5, 2, rfl, by decide +kernel⟩

theorem wit_PortStates_4 : ∃ (s u : State) (t : Nat) (p : Nat),
    u = s.tick t ∧ u.fstate p = fbBusOff ∧ u.flag FB_AR_EN p = true ∧ u.flag FB_BOSUP_HELD p = false ∧ u.rd FB_BOSUP_OCC p = u.rd FB_AR_K p * 128 ∧
    (u.recentClears p).length < u.rd FB_AR_LIMIT p :=
  ⟨(fbHost 2 fbBusOff [(FB_AR_EN, 2, 0, 1), (FB_AR_LIMIT, 2, 0, 3), (FB_AR_K, 2, 0, 2), (FB_BOSUP_OCC, 2, 0, 256)]), _, 5, 2, rfl, by decide +kernel⟩

theorem wit_PortStates_5 : ∃ (s u : State) (t : Nat) (p : Nat),
    u = s.tick t ∧ u.fstate p = fbBusOff ∧ u.flag FB_AR_EN p = true ∧ u.flag FB_BOSUP_HELD p = false ∧ u.rd FB_BOSUP_OCC p = u.rd FB_AR_K p * 128 ∧
    u.rd FB_AR_LIMIT p ≤ (u.recentClears p).length :=
  ⟨(fbHost 2 fbBusOff [(FB_AR_EN, 2, 0, 1), (FB_AR_K, 2, 0, 2), (FB_BOSUP_OCC, 2, 0, 256)]), _, 5, 2, rfl, by decide +kernel⟩

theorem wit_PortStates_6 : ∃ (s u : State) (t : Nat) (p : Nat) (w : State),
    u = s.tick t ∧ w = (((u.zeroErrors p).put FB_STAT_BOMEM p false).wr FB_BOSUP_OCC p 0).setFstate p fbActive ∧ u.fstate p = fbRecovering ∧
    128 ≤ u.rd FB_BOSUP_OCC p :=
  ⟨(fbHost 2 fbRecovering [(FB_BOSUP_OCC, 2, 0, 128)]), _, 5, 2, _, rfl, rfl, by decide +kernel⟩

theorem wit_PortStates_7 : ∃ (s u : State) (t : Nat) (p : Nat),
    u = s.tick t ∧ u.fstate p = fbDraining ∧ (u.port p).cur = none :=
  ⟨(fbHost 2 fbDraining []), _, 5, 2, rfl, by decide +kernel⟩

theorem wit_PortStates_8 : ∃ (s u : State) (t : Nat) (p : Nat),
    u = s.tick t ∧ u.fstate p ≠ fbDraining ∧ (u.port p).cur = none ∧ (u.port p).tail = true ∧ (u.port p).reint = false :=
  ⟨((fbHost 2 fbActive []).setPort 2 fun x => { x with tail := true }), _, 5, 2, rfl, by decide +kernel⟩

theorem wit_PortStates_9 : ∃ (s u : State) (t : Nat) (p : Nat),
    u = s.tick t ∧ u.fstate p = fbDraining ∧ (u.port p).drainAt ≤ u.now :=
  ⟨(fbHost 2 fbDraining []), _, 5, 2, rfl, by decide +kernel⟩

theorem wit_PortStates_10 : ∃ (s u : State) (t : Nat) (f : Func) (p bits : Nat) (c : Instr),
    u = s.tick t ∧ c ∈ [.enable t f p bits, .disable t f p bits, .clrBo t f p bits] ∧ u.takesWrite f (fbOff p 8) = true ∧
    (u.fstate p = fbAbsent ∨ (u.port p).leaving = true) :=
  ⟨(fbHost 2 fbAbsent []), _, 5, ⟨0, 0⟩, 2, 1, .enable 5 ⟨0, 0⟩ 2 1, rfl, by decide +kernel⟩

theorem wit_PortStates_11 : ∃ (s u : State) (t : Nat) (f : Func) (p bits code : Nat) (w : State) (c : Instr),
    u = s.tick t ∧
    (w, code) = (if bits % 8 = 1 then u.cmdEnable p else if bits % 8 = 2 then u.cmdDisable p else if bits % 8 = 4 then u.cmdClear p else (u, 2)) ∧
    c ∈ [.enable t f p bits, .disable t f p bits, .clrBo t f p bits] ∧ u.takesWrite f (fbOff p 8) = true ∧ u.fstate p ≠ fbAbsent ∧
    (u.port p).leaving = false :=
  ⟨(fbHost 2 fbDisabled []), _, 5, ⟨0, 0⟩, 2, 1, _, _, .enable 5 ⟨0, 0⟩ 2 1, rfl, rfl, by decide +kernel⟩

theorem wit_Transceivers_1 : ∃ (s u : State) (t : Nat) (p : Nat),
    u = s.tick t ∧ u.rd FB_STAT_XCVR p = 3 :=
  ⟨(fbHost 2 fbActive [(FB_STAT_XCVR, 2, 0, 3)]), _, 5, 2, rfl, by decide +kernel⟩

theorem wit_Transceivers_2 : ∃ (s u : State) (t : Nat) (p : Nat),
    u = s.tick t ∧ u.flag FB_STAT_BUSDOM p = false ∧ 2 ≤ u.rd FB_STAT_XCVR p :=
  ⟨(fbHost 2 fbActive [(FB_STAT_XCVR, 2, 0, 3)]), _, 5, 2, rfl, by decide +kernel⟩

theorem wit_Transceivers_4 : ∃ (s u : State) (t : Nat) (p : Nat) (w : State),
    u = s.tick t ∧ w = ((u.fbEvt p 11).xcvrEvt p 3).bump PM_WAKES_COUNT 0 ∧ u.rd FB_STAT_XCVR p = 1 ∧ u.flag FB_WAKE_WAKE_EN p = true ∧
    u.rdA PM_PSLP_ASTATE 0 p ≠ 5 ∧ w.fstate p ≠ fbAsleep :=
  ⟨(fbHost 2 fbDisabled [(FB_STAT_XCVR, 2, 0, 1), (FB_WAKE_WAKE_EN, 2, 0, 1)]), _, 5, 2, _, rfl, rfl, by decide +kernel⟩

theorem wit_Transceivers_5 : ∃ (s u : State) (t : Nat) (p : Nat) (w : State),
    u = s.tick t ∧ w = ((u.fbEvt p 11).xcvrEvt p 3).bump PM_WAKES_COUNT 0 ∧ u.rd FB_STAT_XCVR p = 1 ∧ u.flag FB_WAKE_WAKE_EN p = true ∧
    u.rdA PM_PSLP_ASTATE 0 p ≠ 5 ∧ w.fstate p = fbAsleep :=
  ⟨(fbHost 2 fbAsleep [(FB_STAT_XCVR, 2, 0, 1), (FB_WAKE_WAKE_EN, 2, 0, 1)]), _, 5, 2, _, rfl, rfl, by decide +kernel⟩

theorem wit_Transceivers_6 : ∃ (s u : State) (t : Nat) (p m : Nat),
    u = s.tick t ∧ (u.port p).xcvrBy = some m :=
  ⟨((fbHost 2 fbActive []).setPort 2 fun x => { x with xcvrBy := some 3 }), _, 5, 2, 3, rfl, by decide +kernel⟩

theorem wit_Transceivers_7 : ∃ (s u : State) (t : Nat) (l : Nat) (x : Lease),
    u = s.tick t ∧ u.img.leases[l]? = some x :=
  ⟨(hostImg { leases := [⟨0, 2, true, 0, 15, 0, 0x7FF, 1, 0, 0, 0⟩] } []), _, 5, 0, _, rfl, rfl⟩

theorem wit_Transceivers_8 : ∃ (s u : State) (t : Nat) (p q : Nat) (e : QEntry) (w : State),
    u = s.tick t ∧ w = (u.checkPtrs p).settleFaults ∧ ((w.queue p).entries.find? (fun e => e.isReply && e.seq == q) = some e) ∧
    w.rd PQ_CFG_RLIFE p * 16 * w.nbt p ≠ 0 ∧ e.born + w.rd PQ_CFG_RLIFE p * 16 * w.nbt p ≤ w.now :=
  ⟨((fbHost 2 fbActive [(PQ_CFG_RLIFE, 2, 0, 1)]).setEntries 2 [replyDemo]), _, 1000000, 2, 0, replyDemo, _, rfl, rfl, rfl, by decide +kernel⟩

theorem wit_Transceivers_9 : ∃ (s u : State) (t : Nat) (p : Nat),
    u = s.tick t ∧ u.flag PQ_STAT_RESETTING p = true :=
  ⟨(host [(PQ_STAT_RESETTING, 2, 0, 1)]), _, 5, 2, rfl, by decide +kernel⟩

theorem wit_ReceiveRegisters_1 : ∃ (s u : State) (t : Nat) (f : Func) (p : Nat) (w x : State),
    u = s.tick t ∧ w = u.evt PQ_STAT_UNDER p 0 ∧
    x = { w with host := { w.host with snaps := putPart w.host.snaps f (⟨.pq, p, 0, 0x10, false⟩ : Loc).key (w.headWord p 1) } } ∧ p < 64 ∧
    u.takesRead f (0x28000C + p * 0x1000) = true ∧ (u.queue p).entries.all (·.inflight) = true :=
  ⟨(host []), _, 5, ⟨0, 0⟩, 2, _, _, rfl, rfl, rfl, by decide +kernel⟩

theorem wit_ReceiveRegisters_2 : ∃ (s u : State) (t : Nat) (f : Func) (p : Nat) (x : State),
    u = s.tick t ∧ x = { u with host := { u.host with snaps := putPart u.host.snaps f (⟨.pq, p, 0, 0x10, false⟩ : Loc).key (u.headWord p 1) } } ∧
    p < 64 ∧ u.takesRead f (0x28000C + p * 0x1000) = true ∧ (u.queue p).entries.all (·.inflight) = false :=
  ⟨((host []).setEntries 2 [replyDemo]), _, 5, ⟨0, 0⟩, 2, _, rfl, rfl, by decide +kernel⟩

theorem wit_ReceiveRegisters_3 : ∃ (s u : State) (t : Nat) (f : Func) (m : Nat),
    u = s.tick t ∧ u.takesRead f (mbOff m 0) = true ∧ u.boxOn m = true :=
  ⟨(host []), _, 5, ⟨0, 0⟩, 2, rfl, by decide +kernel⟩

theorem wit_ReceiveRegisters_4 : ∃ (s u : State) (t : Nat) (f : Func) (m : Nat),
    u = s.tick t ∧ u.takesRead f (mbOff m 31) = true ∧ u.boxOn m = true :=
  ⟨(host []), _, 5, ⟨0, 0⟩, 2, rfl, by decide +kernel⟩

theorem wit_ReceiveRegisters_5 : ∃ (s u : State) (t : Nat) (f : Func) (m : Nat),
    u = s.tick t ∧ u.takesRead f (mbOff m 0) = true ∧ u.boxOn m = false :=
  ⟨(host [(PM_DON_ON, 0, 4, 0)]), _, 5, ⟨0, 0⟩, 2, rfl, by decide +kernel⟩

theorem wit_ReceiveRegisters_6 : ∃ (s u : State) (t : Nat) (f : Func) (m : Nat),
    u = s.tick t ∧ u.takesRead f (mbOff m 31) = true ∧ u.boxOn m = false :=
  ⟨(host [(PM_DON_ON, 0, 4, 0)]), _, 5, ⟨0, 0⟩, 2, rfl, by decide +kernel⟩

theorem wit_ReceiveRegisters_7 : ∃ (s u : State) (t : Nat) (m : Nat) (q : MbSeq),
    u = s.tick t ∧ (u.mbox m).open_ = some q ∧ q.at_ + 100 * tqPerUs ≤ u.now :=
  ⟨((host []).setMbox 2 fun b => { b with open_ := some ⟨0, 0, 0, {}⟩ }), _, 16001, 2, _, rfl, rfl, by decide +kernel⟩

theorem wit_ReceiveRegisters_8 : ∃ (s u : State) (t : Nat) (f : Func),
    u = s.tick t ∧ u.takesWrite f 0x2C0014 = true :=
  ⟨(host []), _, 5, ⟨0, 0⟩, rfl, by decide +kernel⟩

theorem wit_TimeMaster_1 : ∃ (s u : State) (t : Nat) (port : Nat) (x : SyncCell) (w : State),
    u = s.tick t ∧ w = (u.accept port x.cell).1 ∧ x.cell.typ = 3 ∧ (u.accept port x.cell).2 = true :=
  ⟨(ringHost []), _, 5, 0, ⟨cellDemo 3, 0⟩, _, rfl, rfl, by decide +kernel⟩

theorem wit_TimeMaster_2 : ∃ (s u : State) (t : Nat) (w : State) (seq : Nat),
    u = s.tick t ∧ seq = (u.time.seq + 1) % 65536 ∧ w = (u.setTime fun y => { y with seq := seq }) ∧ u.flag TU_STAT_MASTER 0 = true ∧
    u.rd TU_CFG_TMPRI 0 ≠ 0 :=
  ⟨(host [(TU_STAT_MASTER, 0, 0, 1), (TU_CFG_TMPRI, 0, 0, 3)]), _, 5, _, _, rfl, rfl, rfl, by decide +kernel⟩

theorem wit_TimeMaster_3 : ∃ (s u : State) (t : Nat) (w x : State),
    u = s.tick t ∧ w = u.loseReference.put TU_STAT_MASTER 0 true ∧
    x = ((w.wr TU_MASTER_NODE 0 w.node).wr TU_MASTER_HOPS 0 0).wr TU_MASTER_TMPRI 0 (u.rd TU_CFG_TMPRI 0) ∧ u.rd TU_CFG_TMPRI 0 ≠ 0 ∧
    u.flag TU_STAT_MASTER 0 = false ∧ u.noImage = false ∧
    u.time.betterAt + (4 + u.rd TU_CFG_TMPRI 0) * u.rd TU_SYNC_SYNCPER 0 * 125 * tqPerUs ≤ u.now :=
  ⟨(host [(TU_CFG_TMPRI, 0, 0, 3)]), _, 5, _, _, rfl, rfl, rfl, by decide +kernel⟩

theorem wit_TimeMaster_4 : ∃ (s u : State) (t : Nat),
    u = s.tick t ∧ u.flag TU_STAT_MASTER 0 = false ∧ u.time.syncAt + syncSpan u.time.syncPer 4 ≤ u.time.ivl :=
  ⟨(host []), _, 5, rfl, by decide +kernel⟩

theorem wit_TimeMaster_5 : ∃ (s u : State) (t : Nat),
    u = s.tick t ∧ u.rd TU_STAT_STATE 0 = 2 ∧ u.rd TU_LIMITS_HOLDMAX 0 ≠ 0 ∧ u.rd TU_LIMITS_HOLDMAX 0 ≤ u.holdSeconds :=
  ⟨(later (host [(TU_STAT_STATE, 0, 0, 2), (TU_LIMITS_HOLDMAX, 0, 0, 3)]) 4), _, 5, rfl, by decide +kernel⟩

theorem wit_TimeMaster_6 : ∃ (s u : State) (t : Nat),
    u = s.tick t ∧ u.time.slewRem = 0 :=
  ⟨(host []), _, 5, rfl, by decide +kernel⟩

theorem wit_TimeMaster_7 : ∃ (s u : State) (t : Nat) (port : Nat),
    u = s.tick t ∧ port < 4 ∧ u.lstate port = 4 :=
  ⟨(ringHost []), _, 5, 0, rfl, by decide +kernel⟩

theorem wit_TimeMaster_8 : ∃ (s u : State) (t : Nat) (a : Nat) (w : State),
    u = s.tick t ∧ w = ((u.setTime fun y => { y with ppsEdge := none, ppsRun := 0 }).put TU_STAT_PPSIN_OK 0 false) ∧ u.time.ppsEdge = some a ∧
    a + 2000000000 * ivlNs ≤ u.time.ivl :=
  ⟨({ later (host [(TU_STAT_PPSIN_OK, 0, 0, 1), (TU_STAT_MASTER, 0, 0, 1), (TU_STAT_STATE, 0, 0, 1)]) 4 with
      time := { (later (host []) 4).time with ppsEdge := some 0 } }), _, 5, 0, _, rfl, rfl, by decide +kernel⟩

theorem wit_TimeCommands_1 : ∃ (s u : State) (t : Nat) (f : Func) (v k : Nat) (w x y : State),
    u = s.tick t ∧ w = u.commitGroup f ⟨.tu, 0, 0, 0x48, false⟩ 0x40 3 v ∧ x = w.setFabric.1 ∧ k = w.setFabric.2 ∧
    y = (x.wr TU_SETRES_SEQ 0 (x.rd TU_SETRES_SEQ 0 + 1)).wr TU_SETRES_RESULT 0 k ∧ u.takesWrite f 0x80048 = true ∧ w.tn f = w.timeOwner :=
  ⟨(host []), _, 5, ⟨0, 0⟩, 1, _, _, _, _, rfl, rfl, rfl, rfl, rfl, by decide +kernel⟩

theorem wit_TimeCommands_2 : ∃ (s u : State) (t : Nat) (f : Func) (v : Nat) (w : State),
    u = s.tick t ∧ w = u.commitGroup f ⟨.tu, 0, 0, 0x48, false⟩ 0x40 3 v ∧ u.takesWrite f 0x80048 = true ∧ w.tn f ≠ w.timeOwner :=
  ⟨(host [(TU_CFG_TOWNER, 0, 0, 3)]), _, 5, ⟨0, 0⟩, 1, _, rfl, rfl, by decide +kernel⟩

theorem wit_TimeCommands_3 : ∃ (s u : State) (t : Nat) (f : Func) (v : Nat) (w : State),
    u = s.tick t ∧ w = (u.commitGroup f ⟨.tu, 0, 0, 0x38, false⟩ 0x30 3 v).put TU_ALCTL_ARMED 0 true ∧ u.takesWrite f 0x80038 = true :=
  ⟨(host []), _, 5, ⟨0, 0⟩, 1, _, rfl, rfl, by decide +kernel⟩

theorem wit_TimeCommands_4 : ∃ (s u : State) (t : Nat) (f : Func),
    u = s.tick t ∧ u.takesWrite f 0x8003C = true :=
  ⟨(host []), _, 5, ⟨0, 0⟩, rfl, by decide +kernel⟩

theorem wit_TimeCommands_5 : ∃ (s u : State) (t : Nat),
    u = s.tick t ∧ u.flag TU_ALCTL_ARMED 0 = true ∧ u.alarmTime ≤ u.time.fab / 2 ^ 24 :=
  ⟨(host [(TU_ALCTL_ARMED, 0, 0, 1)]), _, 5, rfl, by decide +kernel⟩

theorem wit_TimeCommands_6 : ∃ (s u : State) (t : Nat) (line sec : Nat) (v w x : State),
    u = s.tick t ∧ sec = u.ns / 1000000000 ∧ v = (u.setTime fun y => { y with ppsSec := tset 0 y.ppsSec line sec }) ∧
    w = (if v.isPps (line / 16) (line % 16) = false ∨ v.bankForced (line / 16) = true then v else v.setBank (line / 16) fun d => { d with ppsWait := clearBitAt d.ppsWait (line % 16) }) ∧
    x = (w.setTime fun y => { y with ppsOff := tset 0 y.ppsOff line (y.ivl + w.rd TU_PPS_PPSW 0 * 1000000 * ivlNs) }) ∧ line < 192 ∧
    tget 0 u.time.ppsSec line < sec ∧ w.flag TU_STAT_SUPP_PEND 0 = false ∧ w.isPps (line / 16) (line % 16) = true ∧ w.time.suppSec ≠ some sec ∧
    w.ppsGate = true :=
  ⟨(later (host [(DB_FUNC0_FUNC, 0, 0, 40)]) 4), _, 5, 1, _, _, _, _, rfl, rfl, rfl, rfl, rfl, by decide +kernel⟩

theorem wit_TimeCommands_7 : ∃ (s u : State) (t : Nat) (line sec : Nat) (v w : State),
    u = s.tick t ∧ sec = u.ns / 1000000000 ∧ v = (u.setTime fun y => { y with ppsSec := tset 0 y.ppsSec line sec }) ∧
    w = (if v.isPps (line / 16) (line % 16) = false ∨ v.bankForced (line / 16) = true then v else v.setBank (line / 16) fun d => { d with ppsWait := clearBitAt d.ppsWait (line % 16) }) ∧
    line < 192 ∧ tget 0 u.time.ppsSec line < sec ∧ w.flag TU_STAT_SUPP_PEND 0 = true :=
  ⟨(later (host [(TU_STAT_SUPP_PEND, 0, 0, 1)]) 4), _, 5, 1, _, _, _, rfl, rfl, rfl, rfl, by decide +kernel⟩

theorem wit_TimeCommands_8 : ∃ (s u : State) (t : Nat) (line sec : Nat) (v w : State),
    u = s.tick t ∧ sec = u.ns / 1000000000 ∧ v = (u.setTime fun y => { y with ppsSec := tset 0 y.ppsSec line sec }) ∧
    w = (if v.isPps (line / 16) (line % 16) = false ∨ v.bankForced (line / 16) = true then v else v.setBank (line / 16) fun d => { d with ppsWait := clearBitAt d.ppsWait (line % 16) }) ∧
    line < 192 ∧ tget 0 u.time.ppsSec line < sec ∧ w.flag TU_STAT_SUPP_PEND 0 = false ∧
    (w.isPps (line / 16) (line % 16) = false ∨ w.time.suppSec = some sec ∨ w.ppsGate = false) :=
  ⟨(later (host []) 4), _, 5, 1, _, _, _, rfl, rfl, rfl, rfl, by decide +kernel⟩

theorem wit_TimeCommands_9 : ∃ (s u : State) (t : Nat) (line : Nat),
    u = s.tick t ∧ bitAt (u.bank (line / 16)).pps (line % 16) = true ∧ tget 0 u.time.ppsOff line ≤ u.time.ivl :=
  ⟨(later ((host []).setBank 0 fun d => { d with pps := 2 }) 4), _, 5, 1, rfl, by decide +kernel⟩

theorem wit_TimeCommands_10 : ∃ (s u : State) (t : Nat) (p k : Nat) (v w : State),
    u = s.tick t ∧ k = (u.ns - u.rdA TT_RD4_ORIGIN 0 p * 1000) / (u.rdA TT_RD3_CYC_LEN 0 p * 1000) ∧
    v = (u.setTt p fun x => { x with seenNs := u.ns }) ∧
    w = (if (v.queue p).entries.any (fun e => match e.src with | .device _ .reference => !e.expired | _ => false) then
      ((v.withdrawDev p .reference).settleFaults.ttCount TT_RD11_LATE p).ttMaster p 2 else v) ∧ u.ttRole p = 1 ∧ u.rdA TT_RD3_CYC_LEN 0 p ≠ 0 ∧
    u.rdA TT_RD4_ORIGIN 0 p * 1000 ≤ u.ns ∧ (u.ttSt p).seenNs < u.rdA TT_RD4_ORIGIN 0 p * 1000 + k * (u.rdA TT_RD3_CYC_LEN 0 p * 1000) :=
  ⟨(later (host [(FB_ROLE_TTROLE, 2, 0, 1), (TT_RD3_CYC_LEN, 0, 2, 10)]) 4), _, 5, 2, _, _, _, rfl, rfl, rfl, rfl, by decide +kernel⟩

theorem wit_TimeCommands_11 : ∃ (s u : State) (t : Nat) (p : Nat),
    u = s.tick t ∧ u.ttRole p = 2 ∧ u.rdA TT_RD0_SYNC_OK 0 p ≠ 0 ∧ (u.ttSt p).markAt + u.rdA TT_RD5_RM_TIMEOUT 0 p * 1000 * ivlNs ≤ u.time.ivl :=
  ⟨(later (host [(FB_ROLE_TTROLE, 2, 0, 2), (TT_RD0_SYNC_OK, 0, 2, 1)]) 4), _, 5, 2, rfl, by decide +kernel⟩

theorem wit_TimeCommands_12 : ∃ (s u : State) (t : Nat) (f : Func),
    u = s.tick t ∧ u.takesWrite f 0x82040 = true :=
  ⟨(host []), _, 5, ⟨0, 0⟩, rfl, by decide +kernel⟩

theorem wit_SerialReceive_1 : ∃ (s u : State) (t : Nat) (n : Nat) (c : SerialChar) (x : CharRead) (w : State),
    u = s.tick t ∧ x = u.readChar n c ∧ w = (u.charFaults n x).lineActive n ∧ x.falseStart = false ∧
    (u.flag SP_CFG_DUPLEX n = true ∨ (u.spt n).cur = none) ∧ u.spState n = spEnabled ∧ (u.spt n).rxReady = true :=
  ⟨((spHost spEnabled [(SP_CFG_DUPLEX, 1, 0, 1)]).setSpt 1 fun x => { x with rxReady := true }), _, 5, 1, charDemo, _, _, rfl, rfl, rfl, by decide +kernel⟩

theorem wit_SerialReceive_2 : ∃ (s u : State) (t : Nat) (n : Nat) (c : SerialChar) (x : CharRead),
    u = s.tick t ∧ x = u.readChar n c ∧ x.falseStart = false ∧ u.flag SP_CFG_DUPLEX n = false ∧ (u.spt n).cur ≠ none ∧ u.spState n = spEnabled :=
  ⟨((spHost spEnabled []).setSpt 1 fun x => { x with cur := some ⟨msgDemo, 0, 0⟩ }), _, 5, 1, charDemo, _, rfl, rfl, by decide +kernel⟩

theorem wit_SerialReceive_3 : ∃ (s u : State) (t : Nat) (n : Nat) (c : SerialChar),
    u = s.tick t ∧ (u.readChar n c).falseStart = false ∧ (u.flag SP_CFG_DUPLEX n = true ∨ (u.spt n).cur = none) ∧
    (u.spState n = spDraining ∨ (u.spState n = spEnabled ∧ (u.spt n).rxReady = false)) :=
  ⟨(spHost spEnabled []), _, 5, 1, charDemo, rfl, by decide +kernel⟩

theorem wit_SerialReceive_4 : ∃ (s u : State) (t : Nat) (n : Nat),
    u = s.tick t ∧ (u.spt n).lineEnd + u.spBits n (u.rd SP_FRAME_IDLEGAP n) ≤ u.now :=
  ⟨((spHost spEnabled []).setSpt 1 fun x => { x with rec_ := some ⟨none, false, 0, 0, 0, 0, 0, 0, none, [65]⟩ }), _, 5, 1, rfl, by decide +kernel⟩

theorem wit_SerialReceive_5 : ∃ (s u : State) (t : Nat) (n low : Nat) (w : State) (r : SpRec),
    u = s.tick t ∧ w = ((u.bump SP_BREAK_COUNT n).spEvt n 3).lineActive n ∧
    r = ((w.spt n).rec_).getD (w.openRec ((w.spt n).carry.getD none) (w.spt n).carry.isSome low) ∧ u.spState n = spEnabled ∧
    (u.spt n).rxReady = true ∧ u.spBits n (u.sendBits n) ≤ low :=
  ⟨((spHost spEnabled []).setSpt 1 fun x => { x with rxReady := true, rec_ := some ⟨none, false, 0, 0, 0, 0, 0, 0, none, [65]⟩ }), _, 5, 1, 1000000, _, _, rfl, rfl, rfl, by decide +kernel⟩

theorem wit_SerialReceive_6 : ∃ (s u : State) (t : Nat) (n : Nat),
    u = s.tick t ∧ u.spState n = spEnabled ∧ (u.spt n).rxFrom + u.spBits n 10 ≤ u.now :=
  ⟨(spHost spEnabled []), _, 1000000, 1, rfl, by decide +kernel⟩

theorem wit_SerialTransmit_1 : ∃ (s u : State) (t : Nat) (f : Func) (v k : Nat),
    u = s.tick t ∧ k = u.tn f ∧ u.takesWrite f 0x58 = true :=
  ⟨(host []), _, 5, ⟨0, 0⟩, 1, _, rfl, rfl, by decide +kernel⟩

theorem wit_SerialTransmit_2 : ∃ (s u : State) (t : Nat) (f : Func) (n v k : Nat) (all : List Byte) (w : State),
    u = s.tick t ∧ k = u.tn f ∧ all = tget [] u.stage_ k ++ leBytes n v ∧ w = (if 64 < all.length then u.put TEN_SPTX_RES_OVF k true else u) ∧
    1 ≤ n ∧ n ≤ 3 ∧ u.takesWrite f (0x58 + 4 * n) = true :=
  ⟨(host []), _, 5, ⟨0, 0⟩, 2, 7, _, _, _, rfl, rfl, rfl, rfl, by decide +kernel⟩

theorem wit_SerialTransmit_3 : ∃ (s u : State) (t : Nat) (f : Func) (k p seq l : Nat) (m : SpMsg) (w : State),
    u = s.tick t ∧ k = u.tn f ∧ p = u.rd TEN_SPTX_SEL_PORT k ∧ seq = (u.rd TEN_SPTX_RES_SEQ k + 1) % 256 ∧
    m = (⟨k, l, seq, if u.flag TEN_SPTX_SEL_ADDRV k then some (u.rd TEN_SPTX_SEL_ADDR k) else none, tget [] u.stage_ k⟩) ∧
    w = (((u.setLrt l fun r => { r with used := r.used + 1 }).setSpt p fun x => { x with msgs := x.msgs ++ [m] }).refreshTxq p) ∧
    u.takesWrite f 0x68 = true ∧ u.sptxCheck k = (0, some l) :=
  ⟨({ hostImg { leases := [⟨0, 65, true, 2, 15, 0, 255, 1, 0, 0, 0⟩] } [(SP_STAT_STATE, 1, 0, spEnabled), (TEN_SPTX_SEL_PORT, 0, 0, 1)] with stage_ := [(0, [65])] }), _, 5, ⟨0, 0⟩, _, _, _, 0, _, _, rfl, rfl, rfl, rfl, rfl, rfl, by decide +kernel⟩

theorem wit_SerialTransmit_4 : ∃ (s u : State) (t : Nat) (f : Func) (k st : Nat) (w : State),
    u = s.tick t ∧ k = u.tn f ∧ w = { u with stage_ := tset [] u.stage_ k [] } ∧ u.takesWrite f 0x68 = true ∧ u.sptxCheck k = (st, none) :=
  ⟨(host []), _, 5, ⟨0, 0⟩, _, 1, _, rfl, rfl, rfl, by decide +kernel⟩

theorem wit_SerialTransmit_5 : ∃ (s u : State) (t : Nat) (n quiet at_ : Nat) (m : SpMsg) (w x : State),
    u = s.tick t ∧ w = u.charge m.lease (u.msgCost n m) ∧ at_ = (if w.flag SP_CFG_DUPLEX n = true then w.now else w.now + w.spBits n 1) ∧
    x = ((w.setSpt n fun x => { x with msgs := x.msgs.erase m, cur := some ⟨m, at_, 0⟩ }).refreshTxq n) ∧ u.spMayStart n quiet = true ∧
    u.spNext n = some m :=
  ⟨({ (spHost spEnabled [(SP_CFG_DUPLEX, 1, 0, 1)]).setSpt 1 (fun x => { x with msgs := [msgDemo] }) with leaseRt := [(0, ⟨1, 2 ^ 40, 0⟩)], img := { (host []).img with leases := [⟨0, 65, true, 2, 15, 0, 255, 1, 4096, 100, 0⟩] } }), _, 100000, 1, 0, _, msgDemo, _, _, rfl, rfl, rfl, rfl, by decide +kernel⟩

theorem wit_SerialTransmit_6 : ∃ (s u : State) (t : Nat) (n : Nat) (x : SpSend) (w : State),
    u = s.tick t ∧ (u.spt n).cur = some x ∧
    w = (((u.msgGone x.msg).setSpt n fun y => { y with cur := none, txEnd := u.now, lineEnd := if u.flag SP_CFG_DUPLEX n then y.lineEnd else max y.lineEnd u.now }).driverOff n) ∧
    u.spState n = spEnabled :=
  ⟨((spHost spEnabled []).setSpt 1 fun x => { x with cur := some ⟨msgDemo, 0, 0⟩ }), _, 5, 1, _, _, rfl, rfl, rfl, by decide +kernel⟩

theorem wit_SerialTransmit_7 : ∃ (s u : State) (t : Nat) (f : Func) (n bits : Nat),
    u = s.tick t ∧ n < 24 ∧ bitAt bits 0 = true ∧ u.takesWrite f (spOff n 4) = true :=
  ⟨(spHost 1 []), _, 5, ⟨0, 0⟩, 1, 1, rfl, by decide +kernel⟩

theorem wit_SerialTransmit_8 : ∃ (s u : State) (t : Nat) (f : Func) (n bits : Nat),
    u = s.tick t ∧ n < 24 ∧ bitAt bits 0 = false ∧ u.takesWrite f (spOff n 4) = true :=
  ⟨(spHost spEnabled []), _, 5, ⟨0, 0⟩, 1, 2, rfl, by decide +kernel⟩

theorem wit_SerialTransmit_9 : ∃ (s u : State) (t : Nat) (f : Func) (n bits code : Nat) (w : State),
    u = s.tick t ∧
    (w, code) = (if u.spState n = spAbsent then (u, 7) else if bitAt bits 1 = true then (u, 2) else if u.spState n = spDisabled then u.spTurnOn n
      else if u.spState n = spDraining ∧ u.flag SP_STAT_PEND_EN n = false then (u.put SP_STAT_PEND_EN n true, 0) else (u, 3)) ∧ n < 24 ∧
    bitAt bits 0 = true ∧ u.takesWrite f (spOff n 4) = true :=
  ⟨(spHost 1 []), _, 5, ⟨0, 0⟩, 1, 1, _, _, rfl, rfl, by decide +kernel⟩

theorem wit_SerialTransmit_10 : ∃ (s u : State) (t : Nat) (f : Func) (n bits code : Nat) (w : State),
    u = s.tick t ∧
    (w, code) = (if u.spState n = spAbsent then (u, 7) else if bitAt bits 1 = false then (u, 2)
      else if u.spState n = spDisabled ∨ (u.spState n = spDraining ∧ u.flag SP_STAT_PEND_EN n = false) then (u, 3) else (u.spDisable n, 0)) ∧
    n < 24 ∧ bitAt bits 0 = false ∧ u.takesWrite f (spOff n 4) = true :=
  ⟨(spHost spEnabled []), _, 5, ⟨0, 0⟩, 1, 2, _, _, rfl, rfl, by decide +kernel⟩

theorem wit_SerialTransmit_11 : ∃ (s u : State) (t : Nat) (n : Nat),
    u = s.tick t ∧ u.spState n = spDraining :=
  ⟨(spHost spDraining []), _, 5, 1, rfl, by decide +kernel⟩

theorem wit_DiscreteBanks_1 : ∃ (s u : State) (t : Nat) (b levels : Nat),
    u = s.tick t ∧ u.bankUp b = true :=
  ⟨(bankHost []), _, 5, 0, 0xFF, rfl, by decide +kernel⟩

theorem wit_DiscreteBanks_2 : ∃ (s u : State) (t : Nat) (b levels : Nat),
    u = s.tick t ∧ u.bankUp b = false :=
  ⟨((host []).put DB_STAT_VF_OK 0 false), _, 5, 0, 0xFF, rfl, by decide +kernel⟩

theorem wit_DiscreteBanks_3 : ∃ (s u : State) (t : Nat) (b line : Nat),
    u = s.tick t ∧ (∃ x ∈ (u.bank b).breaks, x.1 = line ∧ x.2 ≤ u.now) :=
  ⟨((bankHost []).setBank 0 fun d => { d with breaks := [(3, 5)] }), _, 5, 0, 3, rfl, by decide +kernel⟩

theorem wit_DiscreteBanks_4 : ∃ (s u : State) (t : Nat) (b line : Nat),
    u = s.tick t ∧ u.bankUp b = true :=
  ⟨(bankHost []), _, 5, 0, 3, rfl, by decide +kernel⟩

theorem wit_DiscreteBanks_5 : ∃ (s u : State) (t : Nat) (b line stamp : Nat) (rise : Bool) (w x : State),
    u = s.tick t ∧ w = u.setLevel b line rise ∧ stamp = (w.stampAgo 16).fab / 2 ^ 24 ∧
    x = w.reportEdge b ⟨rise, line, stamp / 256 % 2 ^ 64, stamp % 256, (w.stampAgo 16).epoch % 256⟩ ∧ u.bankUp b = true ∧ u.lineFn b line = 4 ∧
    (u.bank b).breaking line = false ∧ bitAt (u.bank b).refDue line = false ∧ bitAt (u.rd DB_IN_LEVEL b) line ≠ rise :=
  ⟨(bankHost [(DB_FUNC0_FUNC, 0, 0, 4)]), _, 5, 0, 0, _, true, _, _, rfl, rfl, rfl, rfl, by decide +kernel⟩

theorem wit_DiscreteBanks_6 : ∃ (s u : State) (t : Nat) (b line : Nat) (rise : Bool) (w x : State),
    u = s.tick t ∧ w = u.setLevel b line rise ∧
    x = (w.wrA DB_CNT_COUNT b line (w.rdA DB_CNT_COUNT b line + 1)).note (DB_CNT_COUNT.key b line) .count 1 ∧ u.bankUp b = true ∧
    u.lineFn b line = 3 ∧ (u.bank b).breaking line = false ∧ bitAt (u.bank b).refDue line = false ∧ bitAt (u.rd DB_IN_LEVEL b) line ≠ rise :=
  ⟨(bankHost [(DB_FUNC0_FUNC, 0, 0, 3)]), _, 5, 0, 0, true, _, _, rfl, rfl, rfl, by decide +kernel⟩

theorem wit_DiscreteBanks_7 : ∃ (s u : State) (t : Nat) (f : Func) (b lines : Nat),
    u = s.tick t ∧ u.takesWrite f (dbOff b 0xC) = true :=
  ⟨(host []), _, 5, ⟨0, 0⟩, 0, 3, rfl, by decide +kernel⟩

theorem wit_DiscreteBanks_8 : ∃ (s u : State) (t : Nat) (f : Func) (b lines : Nat),
    u = s.tick t ∧ u.takesWrite f (dbOff b 0x10) = true :=
  ⟨(host []), _, 5, ⟨0, 0⟩, 0, 3, rfl, by decide +kernel⟩

theorem wit_DiscreteBanks_9 : ∃ (s u : State) (t : Nat) (f : Func) (b lines : Nat),
    u = s.tick t ∧ u.takesWrite f (dbOff b 0x14) = true :=
  ⟨(host []), _, 5, ⟨0, 0⟩, 0, 3, rfl, by decide +kernel⟩

theorem wit_DiscreteBanks_10 : ∃ (s u : State) (t : Nat) (f : Func) (b lines : Nat),
    u = s.tick t ∧ u.takesWrite f (dbOff b 0xA0) = true :=
  ⟨(host []), _, 5, ⟨0, 0⟩, 0, 5, rfl, by decide +kernel⟩

theorem wit_DiscreteBanks_11 : ∃ (s u : State) (t : Nat) (f : Func) (b : Nat) (e : TsEntry) (rest : List TsEntry) (w x : State),
    u = s.tick t ∧ (u.bank b).fifo = e :: rest ∧ w = ((u.setBank b fun d => { d with fifo := rest }).wr DB_TSCNT_COUNT b rest.length) ∧
    x = ({ w with host := { w.host with snaps := (List.range 3).foldl (fun ps i =>
      putPart ps f (⟨.db, b, 0, 0xB4 + 4 * i, false⟩ : Loc).key (tsWord e (i + 1))) w.host.snaps } }) ∧ u.takesRead f (dbOff b 0xB0) = true :=
  ⟨((host []).setBank 0 fun d => { d with fifo := [⟨true, 3, 0, 0, 0⟩] }), _, 5, ⟨0, 0⟩, 0, ⟨true, 3, 0, 0, 0⟩, [], _, _, rfl, rfl, rfl, rfl, by decide +kernel⟩

theorem wit_DiscreteBanks_12 : ∃ (s u : State) (t : Nat) (f : Func) (b : Nat) (x : State),
    u = s.tick t ∧
    x = ({ u with host := { u.host with snaps := (List.range 3).foldl (fun ps i =>
      putPart ps f (⟨.db, b, 0, 0xB4 + 4 * i, false⟩ : Loc).key 0) u.host.snaps } }) ∧ u.takesRead f (dbOff b 0xB0) = true ∧ (u.bank b).fifo = [] :=
  ⟨(host []), _, 5, ⟨0, 0⟩, 0, _, rfl, rfl, by decide +kernel⟩

theorem wit_DiscreteBanks_13 : ∃ (s u : State) (t : Nat) (f : Func) (b lines left : Nat),
    u = s.tick t ∧ left = u.cleared DB_OC_OC b 0 lines ∧ u.takesWrite f (dbOff b 0x34) = true :=
  ⟨(host []), _, 5, ⟨0, 0⟩, 0, 3, _, rfl, rfl, by decide +kernel⟩

theorem wit_DiscreteBanks_14 : ∃ (s u : State) (t : Nat) (b line g : Nat) (w x : State),
    u = s.tick t ∧ w = ((u.evt DB_OC_OC b line).evt DB_EVT_EVT b 2).refreshDrive b ∧
    g = bitsOf (w.rdA DB_GRANT_TENANT b (line / 3)) (8 * (line % 3)) 8 ∧ x = w.eventLim (w.rd DB_OWNER_TENANT b) 0x0612 b (leBytes 2 (2 ^ line)) ∧
    (u.isOut b line = true ∨ u.isPps b line = true) ∧ bitAt (u.rd DB_OC_OC b) line = false :=
  ⟨(bankHost [(DB_FUNC0_FUNC, 0, 0, 2)]), _, 5, 0, 0, _, _, _, rfl, rfl, rfl, rfl, by decide +kernel⟩

theorem wit_FieldSupply_1 : ∃ (s u : State) (t : Nat) (b : Nat) (w : State),
    u = s.tick t ∧ w = (((u.put DB_STAT_VF_OK b false).bankDown b).applyBank b).evt DB_EVT_EVT b 0 ∧ u.flag DB_STAT_VF_OK b = true :=
  ⟨(bankHost []), _, 5, 0, _, rfl, rfl, by decide +kernel⟩

theorem wit_FieldSupply_2 : ∃ (s u : State) (t : Nat) (b : Nat) (w : State),
    u = s.tick t ∧ w = (((u.put DB_STAT_VF_OK b true).setBank b fun d => { d with refDue := 65535, runs := [] }).evt DB_EVT_EVT b 1) ∧
    u.flag DB_STAT_VF_OK b = false :=
  ⟨((host []).put DB_STAT_VF_OK 0 false), _, 5, 0, _, rfl, rfl, by decide +kernel⟩

theorem wit_FieldSupply_3 : ∃ (s u : State) (t : Nat) (b : Nat) (i : Instr),
    u = s.tick t ∧ ((i = .vfLost t b ∧ u.flag DB_STAT_VF_OK b = false) ∨ (i = .vfRet t b ∧ u.flag DB_STAT_VF_OK b = true)) :=
  ⟨(bankHost []), _, 5, 0, .vfRet 5 0, rfl, by decide +kernel⟩

theorem wit_RingCells_1 : ∃ (s u : State) (t : Nat) (port : Nat) (c : Cell) (w : State) (ok : Bool),
    u = s.tick t ∧ w = (u.accept port c).1 ∧ ok = (u.accept port c).2 ∧ isRingPort port = true :=
  ⟨(nodeHost []), _, 5, 1, cellDemo 2, _, _, rfl, rfl, rfl, by decide +kernel⟩

theorem wit_RingCells_2 : ∃ (s u : State) (t : Nat) (port : Nat) (c q : Cell) (i : Instr) (w : State),
    u = s.tick t ∧ (u.ring_.sink.find? (fun x => x.src == c.src && x.tag == c.tag && x.op == c.op) = some q) ∧
    w = ({ u with ring_ := { u.ring_ with sink := u.ring_.sink.filter fun x => !(x.src == c.src && x.tag == c.tag && x.op == c.op) } }) ∧
    ((c.op = 1 ∧ i = .cellRead t port c) ∨ (c.op = 2 ∧ i = .mboxWrite t port c) ∨ (c.op = 3 ∧ i = .dcmd t port c)) :=
  ⟨({ nodeHost [] with ring_ := { sink := [{ cellDemo 1 with op := 3 }] } }), _, 5, 1, { cellDemo 1 with op := 3 }, _, .dcmd 5 1 { cellDemo 1 with op := 3 }, _, rfl, rfl, rfl, by decide +kernel⟩

theorem wit_RingCells_3 : ∃ (s u : State) (t : Nat) (port : Nat) (c : Cell) (i : Instr) (w : State),
    u = s.tick t ∧ w = (u.accept port c).1 ∧
    ((c.op = 1 ∧ i = .cellRead t port c) ∨ (c.op = 2 ∧ i = .mboxWrite t port c) ∨ (c.op = 3 ∧ i = .dcmd t port c)) ∧
    (u.ring_.sink.find? (fun x => x.src == c.src && x.tag == c.tag && x.op == c.op) = none) ∧ (u.accept port c).2 = true ∧ c.typ = 1 :=
  ⟨(nodeHost []), _, 5, 1, { cellDemo 1 with op := 2 }, .mboxWrite 5 1 { cellDemo 1 with op := 2 }, _, rfl, rfl, by decide +kernel⟩

theorem wit_RingCells_4 : ∃ (s u : State) (t : Nat) (port : Nat) (c : Cell) (w : State),
    u = s.tick t ∧ w = (u.accept port c).1 ∧ c.typ = 2 ∧ (u.accept port c).2 = true :=
  ⟨(nodeHost []), _, 5, 1, cellDemo 2, _, rfl, rfl, by decide +kernel⟩

theorem wit_RingCells_5 : ∃ (s u : State) (t : Nat) (port : Nat) (c : Cell) (i : Instr),
    u = s.tick t ∧
    ((c.op = 1 ∧ i = .cellRead t port c) ∨ (c.op = 2 ∧ i = .mboxWrite t port c) ∨ (c.op = 3 ∧ i = .dcmd t port c) ∨ (c.typ = 2 ∧ i = .rsp t port c)) ∧
    (u.ring_.sink.find? (fun x => x.src == c.src && x.tag == c.tag && x.op == c.op) = none) ∧ (u.accept port c).2 = false :=
  ⟨(nodeHost []), _, 5, 1, { cellDemo 2 with good := false }, .rsp 5 1 { cellDemo 2 with good := false }, rfl, by decide +kernel⟩

theorem wit_RingBroadcasts_1 : ∃ (s u : State) (t : Nat) (port : Nat) (c : Cell) (i : Instr) (w x : State),
    u = s.tick t ∧ w = (u.accept port c).1 ∧ x = (if c.typ = 4 then w.heardMember (ringOf port) c else w.takeCommit) ∧
    ((c.typ = 4 ∧ i = .member t port c) ∨ (c.typ = 6 ∧ i = .commit t port c)) ∧ (u.accept port c).2 = true :=
  ⟨(nodeHost []), _, 5, 1, cellDemo 4, .member 5 1 (cellDemo 4), _, _, rfl, rfl, rfl, by decide +kernel⟩

theorem wit_RingBroadcasts_2 : ∃ (s u : State) (t : Nat) (port : Nat) (c x : Cell) (w v : State),
    u = s.tick t ∧ w = (u.accept port c).1 ∧ x = w.consentMark c ∧ v = w.leaveFabricSleep 1 ∧ c.typ = 5 ∧ (u.accept port c).2 = true :=
  ⟨(nodeHost []), _, 5, 1, cellDemo 5, _, _, _, rfl, rfl, rfl, rfl, by decide +kernel⟩

theorem wit_RingBroadcasts_3 : ∃ (s u : State) (t : Nat) (port : Nat) (c : Cell) (w : State),
    u = s.tick t ∧ w = (u.accept port c).1 ∧ c.typ = 7 ∧ (u.accept port c).2 = true :=
  ⟨(nodeHost []), _, 5, 1, cellDemo 7, _, rfl, rfl, by decide +kernel⟩

theorem wit_RingBroadcasts_4 : ∃ (s u : State) (t : Nat) (port : Nat) (c : Cell) (i : Instr),
    u = s.tick t ∧
    ((c.typ = 4 ∧ i = .member t port c) ∨ (c.typ = 5 ∧ i = .consent t port c) ∨ (c.typ = 6 ∧ i = .commit t port c) ∨
      (c.typ = 7 ∧ i = .delayCell t port c)) ∧ (u.accept port c).2 = false :=
  ⟨(nodeHost []), _, 5, 1, { cellDemo 6 with good := false }, .commit 5 1 { cellDemo 6 with good := false }, rfl, by decide +kernel⟩

theorem wit_RingBroadcasts_5 : ∃ (s u : State) (t : Nat),
    u = s.tick t ∧ u.noImage = false :=
  ⟨(host []), _, 5, rfl, by decide +kernel⟩

theorem wit_LinkMessages_1 : ∃ (s u : State) (t : Nat) (port v : Nat) (w x : State) (gone : List HeldCell),
    u = s.tick t ∧ w = u.heard port ∧ gone = ackedPart (w.lp port).buf (v % 4096) ∧
    x = (w.setLp port fun p => { p with buf := p.buf.drop gone.length }) ∧ w.lstate port = 4 :=
  ⟨(nodeHost []), _, 5, 1, 3, _, _, _, rfl, rfl, rfl, rfl, by decide +kernel⟩

theorem wit_LinkMessages_2 : ∃ (s u : State) (t : Nat) (port v : Nat),
    u = s.tick t ∧ (u.heard port).lstate port = 4 :=
  ⟨(nodeHost []), _, 5, 1, 3, rfl, by decide +kernel⟩

theorem wit_LinkMessages_3 : ∃ (s u : State) (t : Nat) (port vc n : Nat),
    u = s.tick t ∧ (u.heard port).lstate port = 4 ∧ 1 ≤ n ∧ n ≤ 16 :=
  ⟨(nodeHost []), _, 5, 1, 1, 3, rfl, by decide +kernel⟩

theorem wit_LinkMessages_4 : ∃ (s u : State) (t : Nat) (port i v : Nat) (u1 w : State),
    u = s.tick t ∧ u1 = (u.retryDue port).heard port ∧
    w = (if isRingPort port then u1.wrA RL_NB_IDENT port i v else u1.wrA PL_NB_IDENT (port - 4) i v) ∧ i < 12 ∧ w.lstate port = 4 :=
  ⟨(nodeHost []), _, 5, 1, 11, 5, _, _, rfl, rfl, rfl, by decide +kernel⟩

theorem wit_LinkMessages_5 : ∃ (s u : State) (t : Nat) (port i v : Nat) (u1 w x : State),
    u = s.tick t ∧ u1 = (u.retryDue port).heard port ∧
    w = (if isRingPort port then u1.wrA RL_NB_IDENT port i v else u1.wrA PL_NB_IDENT (port - 4) i v) ∧
    x = (w.setLp port fun p => { p with ident := tset none p.ident i (some (v % 65536)) }) ∧ i < 12 ∧ (w.lstate port = 3 ∨ w.lstate port = 5) :=
  ⟨((host [(RL_STAT_STATE, 1, 0, 3)]).setLp 1 fun p => { p with ident := (List.range 11).map fun k => (k, some 7) }), _, 5, 1, 11, 5, _, _, _, rfl, rfl, rfl, rfl, by decide +kernel⟩

theorem wit_LinkMessages_7 : ∃ (s u : State) (t : Nat) (port v node : Nat) (w : State) (g : Member → Member),
    u = s.tick t ∧ w = u.heard port ∧ node = w.nb port 8 % 256 ∧
    g = (fun m => if ringOf port = 0 then { m with wrapA := bitAt v 0 } else { m with wrapB := bitAt v 0 }) ∧ isRingPort port = true ∧
    w.lstate port = 4 ∧ node ≠ 0 :=
  ⟨(nodeHost [(RL_NB_IDENT, 1, 8, 3)]), _, 5, 1, 1, 3, _, _, rfl, rfl, rfl, rfl, by decide +kernel⟩

theorem wit_LinkMessages_8 : ∃ (s u : State) (t : Nat) (port : Nat) (h : HeldCell) (rest : List HeldCell),
    u = s.tick t ∧ (u.lp port).buf = h :: rest ∧ u.lstate port = 4 ∧ h.at_ + 2 * tqPerUs ≤ u.now :=
  ⟨((nodeHost []).setLp 1 fun p => { p with buf := [⟨0, some (cellDemo 2), none, 1, 0⟩] }), _, 320, 1, ⟨0, some (cellDemo 2), none, 1, 0⟩, [], rfl, rfl, by decide +kernel⟩

theorem wit_LinkPorts_1 : ∃ (s u : State) (t : Nat) (port reason : Nat) (hiber : Bool),
    u = s.tick t ∧ (reason = 1 ∨ (reason = 2 ∧ (u.lp port).lastMsg + 16 * tqPerUs ≤ u.now) ∨ reason = 3) :=
  ⟨(nodeHost []), _, 5, 1, 1, true, rfl, by decide +kernel⟩

theorem wit_LinkPorts_2 : ∃ (s u : State) (t : Nat) (f : Func) (port : Nat),
    u = s.tick t ∧ u.takesWrite f (linkCmdOff port) = true :=
  ⟨(host []), _, 5, ⟨0, 0⟩, 1, rfl, by decide +kernel⟩

theorem wit_LinkPorts_3 : ∃ (s u : State) (t : Nat) (port reason : Nat),
    u = s.tick t ∧ u.lstate port ≠ 4 :=
  ⟨(host []), _, 5, 1, 5, rfl, by decide +kernel⟩

theorem wit_LinkPorts_4 : ∃ (s u : State) (t : Nat) (port : Nat) (w : State),
    u = s.tick t ∧
    w = (if isRingPort port then ((u.put RL_STAT_LOCK port true).put RL_STAT_RFAULT port false).put RL_STAT_HIBER port false
      else ((u.put PL_STAT_LOCK (port - 4) true).put PL_STAT_RFAULT (port - 4) false).put PL_STAT_HIBER (port - 4) false) ∧ u.lstate port = 1 ∧
    u.sys.down = false ∧ u.noImage = false :=
  ⟨(host [(RL_STAT_STATE, 1, 0, 1)]), _, 5, 1, _, rfl, rfl, by decide +kernel⟩

theorem wit_LinkPorts_5 : ∃ (s u : State) (t : Nat) (port a : Nat),
    u = s.tick t ∧ (u.lp port).retryAt = some a ∧ a ≤ u.now :=
  ⟨((host [(RL_STAT_STATE, 1, 0, 5)]).setLp 1 fun p => { p with retryAt := some 3 }), _, 5, 1, 3, rfl, by decide +kernel⟩

theorem wit_LinkPorts_6 : ∃ (s u : State) (t : Nat) (f : Func) (port : Nat),
    u = s.tick t ∧ u.takesWrite f (linkCmdOff port) = true :=
  ⟨(host [(RL_STAT_STATE, 1, 0, 5)]), _, 5, ⟨0, 0⟩, 1, rfl, by decide +kernel⟩

theorem wit_LinkPorts_7 : ∃ (s u : State) (t : Nat) (port : Nat),
    u = s.tick t ∧ u.lstate port = 6 :=
  ⟨(host [(RL_STAT_STATE, 1, 0, 6)]), _, 5, 1, rfl, by decide +kernel⟩

theorem wit_RemoteRequests_1 : ∃ (s u : State) (t : Nat) (f : Func) (v k : Nat) (x w : State),
    u = s.tick t ∧ k = u.tn f ∧ x = (u.put RR_CTL_NOTE k (bitAt v 22)).wr RR_CTL_COUNT k (bitsOf v 16 5) ∧
    w = (if accepts RR_CTL_OP (bitsOf v 0 4) then x.wr RR_CTL_OP k (bitsOf v 0 4) else x) ∧ u.takesWrite f 0xC3008 = true :=
  ⟨(host []), _, 5, ⟨0, 0⟩, 0x800001, _, _, _, rfl, rfl, rfl, rfl, by decide +kernel⟩

theorem wit_RemoteRequests_2 : ∃ (s u : State) (t : Nat) (tag a : Nat) (c : Ctx),
    u = s.tick t ∧ (u.ring_.ctx.find? (fun c => c.tag == tag) = some c) ∧ c.at_ = some a ∧ a + u.rd RG_RTMO_RTMO 0 * tqPerUs ≤ u.now :=
  ⟨({ host [] with ring_ := { ctx := [ctxDemo] } }), _, 10000000, 9, 0, _, rfl, rfl, rfl, by decide +kernel⟩

theorem wit_RemoteRequests_3 : ∃ (s u : State) (t : Nat) (f : Func),
    u = s.tick t ∧ u.takesWrite f 0xC0100 = true :=
  ⟨(host []), _, 5, ⟨0, 0⟩, rfl, by decide +kernel⟩

theorem wit_RemoteRequests_4 : ∃ (s u : State) (t : Nat) (r : SleepRound),
    u = s.tick t ∧ u.ring_.sleep = some r ∧ r.by_ ≤ u.now :=
  ⟨({ host [] with ring_ := { sleep := some ⟨0, 3⟩ } }), _, 5, ⟨0, 3⟩, rfl, by decide +kernel⟩

theorem wit_Gathers_1 : ∃ (s u : State) (t : Nat) (f : Func) (g k code : Nat) (w : State),
    u = s.tick t ∧ k = u.tn f ∧ w = (u.gatherStart (g % 1024) 0 (some k) false u.ns u.frac u.epoch8).1 ∧
    code = (u.gatherStart (g % 1024) 0 (some k) false u.ns u.frac u.epoch8).2 ∧ u.takesWrite f 0x91000 = true :=
  ⟨(host []), _, 5, ⟨0, 0⟩, 3, _, _, _, rfl, rfl, rfl, rfl, by decide +kernel⟩

theorem wit_Gathers_2 : ∃ (s u : State) (t : Nat) (g x : Nat) (d : GtDef) (w : State),
    u = s.tick t ∧ u.groupDef g = some d ∧ schedIn d (tget 0 u.gt.schedNs g) u.ns = some x ∧
    w = { u with gt := { u.gt with schedNs := tset 0 u.gt.schedNs g x } } ∧ d.grant 1 = true :=
  ⟨(later (hostImg { groups := [(3, groupDemo)] } []) 4), _, 5, 3, _, _, _, rfl, rfl, rfl, rfl, by decide +kernel⟩

theorem wit_Gathers_3 : ∃ (s u : State) (t : Nat) (g st v : Nat) (r r' : GtRun) (f : Int × Bool) (w z : State),
    u = s.tick t ∧ (u.gt.runs.find? (fun x => x.start.group == g) = some r) ∧ r.elems[r.done]? = some (some (st, v)) ∧
    f = (if st = 0 then r.fold r.done v else (r.acc, false)) ∧
    r' = { r with done := r.done + 1, acc := f.1, sat := r.sat || f.2, incl := (if st = 0 then r.incl + 1 else r.incl), fmask := (if st = 0 then r.fmask else setBitAt r.fmask r.done) } ∧
    w = (if f.2 then u.noteSat r' else u) ∧
    z = ({ w with gt := { w.gt with runs := w.gt.runs.map fun x => if x.start.group == r.start.group then r' else x } }) :=
  ⟨({ host [] with gt := { runs := [⟨⟨3, groupDemo, 1, false, 0, 0, 0, false⟩, 0, [some (0, 4)], 0, 0, 0, 0, false⟩] } }), _, 5, 3, 0, 4, _, _, _, _, _, rfl, rfl, rfl, rfl, rfl, rfl, rfl⟩

theorem wit_PairTimers_1 : ∃ (s u : State) (t : Nat) (w x : State),
    u = s.tick t ∧ w = (u.sendPair 4 (.hb u.ownHeartbeat)).1 ∧ x = (w.sendPair 5 (.hb w.ownHeartbeat)).1 ∧ u.flag PR_CFG_PAIRED 0 = true :=
  ⟨(pairHost 3 []), _, 5, _, _, rfl, rfl, rfl, by decide +kernel⟩

theorem wit_PairTimers_2 : ∃ (s u : State) (t : Nat) (path : Nat) (x : LaneCell) (hb : Heartbeat) (w : State) (ok : Bool),
    u = s.tick t ∧ w = (u.acceptLane (4 + path) x).1 ∧ ok = (u.acceptLane (4 + path) x).2 ∧ path < 2 ∧ u.flag PR_CFG_PAIRED 0 = true :=
  ⟨(pairHost 3 [(PL_STAT_STATE, 1, 0, 4)]), _, 5, 1, ⟨0, true, false⟩, hbDemo, _, _, rfl, rfl, rfl, by decide +kernel⟩

theorem wit_PairTimers_3 : ∃ (s u : State) (t : Nat) (x : LaneCell) (hb : Heartbeat),
    u = s.tick t ∧ u.flag PR_CFG_PAIRED 0 = true :=
  ⟨(pairHost 3 []), _, 5, ⟨0, true, false⟩, hbDemo, rfl, by decide +kernel⟩

theorem wit_PairTimers_4 : ∃ (s u : State) (t : Nat) (path : Nat) (w : State),
    u = s.tick t ∧ w = (((u.put (pathFlag path) 0 false).bump PR_HBMISS_COUNT 0).prEvt 4) ∧ path ≤ 2 ∧ u.flag (pathFlag path) 0 = true ∧
    u.lastHb path + 750 * tqPerUs ≤ u.now ∧ u.hbNow path = false :=
  ⟨(pairHost 3 [(PR_STAT_PL0_OK, 0, 0, 1), (PR_STAT_PL1_OK, 0, 0, 1)]), _, 1000000, 1, _, rfl, rfl, by decide +kernel⟩

theorem wit_PairTimers_5 : ∃ (s u : State) (t : Nat) (a : Nat),
    u = s.tick t ∧ u.pair.joinBy = some a ∧ u.prState = prJoining ∧ a ≤ u.now :=
  ⟨((pairHost prJoining []).setPair fun x => { x with joinBy := some 3 }), _, 5, 3, rfl, by decide +kernel⟩

theorem wit_PairTimers_6 : ∃ (s u : State) (t : Nat) (d : Nat),
    u = s.tick t ∧ u.pair.contestD = some d ∧ u.prState = prContest ∧ d + 800 * tqPerUs ≤ u.now ∧ [0, 1, 2].any u.hbNow = false :=
  ⟨((pairHost prContest []).setPair fun x => { x with contestD := some 3 }), _, 1000000, 3, rfl, by decide +kernel⟩

theorem wit_PairTimers_7 : ∃ (s u : State) (t : Nat),
    u = s.tick t ∧ u.prState = prStandby ∧ u.flag PR_STAT_ISOL 0 = true ∧ u.pair.cloveSeen + 30 * tqPerMs ≤ u.now :=
  ⟨(pairHost prStandby [(PR_STAT_ISOL, 0, 0, 1)]), _, 10000000, rfl, by decide +kernel⟩

theorem wit_PairTimers_8 : ∃ (s u : State) (t : Nat),
    u = s.tick t ∧ u.flag PR_CFG_PAIRED 0 = true ∧ u.flag PR_STAT_ACTING 0 = true ∧ u.anyPath = false ∧ u.prState ≠ prContest ∧
    u.pair.cloveSent + 10 * tqPerMs ≤ u.now :=
  ⟨(pairHost prActive [(PR_STAT_ACTING, 0, 0, 1)]), _, 10000000, rfl, by decide +kernel⟩

theorem wit_PairTimers_9 : ∃ (s u : State) (t : Nat) (port : Nat) (x : LaneCell) (recs : List MirrorRec) (w : State),
    u = s.tick t ∧ w = (u.acceptLane port x).1 ∧ (port = 4 ∨ port = 5) ∧ (u.acceptLane port x).2 = true ∧ w.mirrors = true :=
  ⟨(pairHost prStandby [(PL_STAT_STATE, 0, 0, 4)]), _, 5, 4, ⟨0, true, false⟩, [], _, rfl, rfl, by decide +kernel⟩

theorem wit_PairSwap_1 : ∃ (s u : State) (t : Nat) (port : Nat) (x : LaneCell) (recs : List MirrorRec) (w : State),
    u = s.tick t ∧ w = (u.acceptLane port x).1 ∧ (port = 4 ∨ port = 5) ∧ (u.acceptLane port x).2 = true ∧ w.mirrors = true ∧ w.prState = prSyncing :=
  ⟨(pairHost prSyncing [(PL_STAT_STATE, 0, 0, 4)]), _, 5, 4, ⟨0, true, false⟩, [], _, rfl, rfl, by decide +kernel⟩

theorem wit_PairSwap_2 : ∃ (s u : State) (t : Nat) (port : Nat) (x : LaneCell) (recs : List MirrorRec) (w v : State),
    u = s.tick t ∧ w = (u.acceptLane port x).1 ∧
    v = (((recs.foldl (fun (y : State) (r : MirrorRec) => y.applyRecord r.body) w).put PR_STAT_MIRROR_OK 0 true).prEvt 6) ∧ (port = 4 ∨ port = 5) ∧
    (u.acceptLane port x).2 = true ∧ w.mirrors = true ∧ w.prState = prSyncing :=
  ⟨(pairHost prSyncing [(PL_STAT_STATE, 0, 0, 4)]), _, 5, 4, ⟨0, true, false⟩, [], _, _, rfl, rfl, rfl, by decide +kernel⟩

theorem wit_PairSwap_3 : ∃ (s u : State) (t : Nat) (f : Func) (w x : State),
    u = s.tick t ∧ w = (u.wr PR_CMDRES_RESULT 0 0).wr PR_CMDRES_CMD_SEQ 0 (u.rd PR_CMDRES_CMD_SEQ 0 + 1) ∧
    x = ((w.setPair fun y => { y with swap := some { round := w.pair.nextSwap, at_ := w.now }, nextSwap := (y.nextSwap + 1) % 256 })) ∧
    u.takesWrite f 0xB000C = true ∧ u.swapResult = 0 :=
  ⟨((pairHost prActive [(PL_STAT_STATE, 0, 0, 4)]).setPair fun x => { x with partner := some { hbDemo with state := prStandby, mirrorOk := true } }), _, 5, ⟨0, 0⟩, _, _, rfl, rfl, rfl, by decide +kernel⟩

theorem wit_PairSwap_4 : ∃ (s u : State) (t : Nat) (f : Func) (r : Nat),
    u = s.tick t ∧ u.takesWrite f 0xB000C = true ∧ u.swapResult = r ∧ r ≠ 0 :=
  ⟨(host []), _, 5, ⟨0, 0⟩, 11, rfl, by decide +kernel⟩

theorem wit_PairSwap_5 : ∃ (s u : State) (t : Nat) (y : SwapSt) (i ho : PairItem) (w x : State) (a b : Bool),
    u = s.tick t ∧ i = PairItem.swap ((u.rd PR_MSEQ_MSEQ 0 + 2 ^ 24 - 1) % 2 ^ 24) y.round ∧ ho = PairItem.handover u.swapRecord ∧
    w = ((u.sendPair 4 ho).1.sendPair 4 i).1 ∧ a = ((u.sendPair 4 ho).1.sendPair 4 i).2 ∧ x = ((w.sendPair 5 ho).1.sendPair 5 i).1 ∧
    b = ((w.sendPair 5 ho).1.sendPair 5 i).2 ∧ u.pair.swap = some y ∧ y.sent = false ∧ 64 ≤ y.stopped.length :=
  ⟨((pairHost prActive [(PL_STAT_STATE, 0, 0, 4)]).setPair fun x => { x with swap := some ⟨0, List.range 64, 0, false⟩ }), _, 5, ⟨0, List.range 64, 0, false⟩, _, _, _, _, _, _, rfl, rfl, rfl, rfl, rfl, rfl, rfl, by decide +kernel⟩

theorem wit_PairSwap_6 : ∃ (s u : State) (t : Nat) (port epoch : Nat) (x : LaneCell) (recs : List MirrorRec) (record : List Byte) (w y v : State),
    u = s.tick t ∧ w = (u.acceptLane port x).1 ∧ y = w.takeRecords recs ∧
    v = (if recordRefused (y.rd CU_RUN1_SCHEMA_MIN 0) (y.rd CU_RUN0_SCHEMA 0) y.img.hash record then y.refuseSwap else y) ∧ (port = 4 ∨ port = 5) ∧
    (u.acceptLane port x).2 = true ∧ w.mirrors = true ∧ w.prState = prStandby :=
  ⟨(pairHost prStandby [(PL_STAT_STATE, 0, 0, 4)]), _, 5, 4, 3, ⟨0, true, false⟩, [], [], _, _, _, rfl, rfl, rfl, rfl, by decide +kernel⟩

theorem wit_PairSwap_7 : ∃ (s u : State) (t : Nat) (port epoch : Nat) (x : LaneCell) (recs : List MirrorRec) (last : Bool) (record : List Byte) (i : Instr),
    u = s.tick t ∧ (i = .snapRecs t ⟨port, x, recs⟩ last ∨ i = .mirrorRecs t ⟨port, x, recs⟩ ∨ i = .swapCell t epoch ⟨port, x, recs, record⟩) ∧
    (port = 4 ∨ port = 5) ∧ (u.acceptLane port x).2 = false :=
  ⟨(pairHost prSyncing [(PL_STAT_STATE, 0, 0, 4)]), _, 5, 4, 0, ⟨7, true, false⟩, [], true, [], .snapRecs 5 ⟨4, ⟨7, true, false⟩, []⟩ true, rfl, by decide +kernel⟩

theorem wit_SourceCommands_2 : ∃ (s u : State) (t : Nat) (f : Func) (i v : Nat),
    u = s.tick t ∧ u.takesWrite f (icOff 0 (4 * i)) = true :=
  ⟨(irqHost []), _, 5, ⟨0, 0⟩, 0, 2 ^ 16, rfl, by decide +kernel⟩

theorem wit_SourceCommands_3 : ∃ (s u : State) (t : Nat) (f : Func) (i v : Nat),
    u = s.tick t ∧ u.takesWrite f (icOff 0 (0x100 + 4 * i)) = true :=
  ⟨(irqHost []), _, 5, ⟨0, 0⟩, 0, 2 ^ 16, rfl, by decide +kernel⟩

theorem wit_SourceCommands_4 : ∃ (s u : State) (t : Nat) (f : Func) (v k : Nat),
    u = s.tick t ∧ k = v % 1024 ∧ u.takesWrite f (icOff 0 0x1E0) = true :=
  ⟨(irqHost []), _, 5, ⟨0, 0⟩, 16, _, rfl, rfl, by decide +kernel⟩

theorem wit_SourceCommands_5 : ∃ (s u : State) (t : Nat) (f : Func) (v k : Nat),
    u = s.tick t ∧ k = v % 1024 ∧ u.takesWrite f (icOff 0 0x1E4) = true :=
  ⟨(irqHost []), _, 5, ⟨0, 0⟩, 16, _, rfl, rfl, by decide +kernel⟩

theorem wit_SourceCommands_6 : ∃ (s u : State) (t : Nat) (f : Func) (vec g : Nat),
    u = s.tick t ∧ u.takesRead f (icOff 3 (vec * 0x20 + 8)) = true ∧ u.targetOf f vec = some g :=
  ⟨(irqHost [(IC_SRC_P, 0, 16, 1)]), _, 5, ⟨0, 0⟩, 0, 3, rfl, by decide +kernel⟩

theorem wit_SourceCommands_7 : ∃ (s u : State) (t : Nat) (f : Func) (vec : Nat),
    u = s.tick t ∧ u.takesRead f (icOff 3 (vec * 0x20 + 8)) = true ∧ u.targetOf f vec = none :=
  ⟨(irqHost []), _, 5, ⟨0, 0⟩, 1, rfl, by decide +kernel⟩

theorem wit_SourceCommands_8 : ∃ (s u : State) (t : Nat) (f : Func) (vec v g : Nat),
    u = s.tick t ∧ u.takesWrite f (icOff 3 (vec * 0x20 + 0xC)) = true ∧ u.targetOf f vec = some g :=
  ⟨(irqHost [(IC_SRC_STATE, 0, 16, 2)]), _, 5, ⟨0, 0⟩, 0, 16, 3, rfl, by decide +kernel⟩

theorem wit_SourceCommands_9 : ∃ (s u : State) (t : Nat) (f : Func) (vec v off : Nat) (i : Instr),
    u = s.tick t ∧ ((i = .icComplete t f vec v ∧ off = vec * 0x20 + 0xC) ∨ (i = .icTcfg t f vec v ∧ off = vec * 0x20)) ∧
    u.takesWrite f (icOff 3 off) = true ∧ u.targetOf f vec = none :=
  ⟨(irqHost []), _, 5, ⟨0, 0⟩, 1, 3, 0x20, .icTcfg 5 ⟨0, 0⟩ 1 3, rfl, by decide +kernel⟩

theorem wit_SourceCommands_10 : ∃ (s u : State) (t : Nat) (f : Func) (src v : Nat),
    u = s.tick t ∧ u.takesWrite f (icOff (1 + src / 512) (4 * (src % 512))) = true :=
  ⟨(irqHost []), _, 5, ⟨0, 0⟩, 16, 3, rfl, by decide +kernel⟩

theorem wit_SourceCommands_11 : ∃ (s u : State) (t : Nat) (f : Func) (vec v g : Nat) (w x y : State),
    u = s.tick t ∧ w = (if bitsOf v 8 8 = 0 then u else u.wr IC_TCFG_CNT g (bitsOf v 8 8)) ∧
    x = (w.put IC_TCFG_COAL g (bitAt v 4)).wr IC_TCFG_THR g (bitsOf v 0 4) ∧ y = (if bitAt v 4 then x else x.setWindow g none) ∧
    u.takesWrite f (icOff 3 (vec * 0x20)) = true ∧ u.targetOf f vec = some g :=
  ⟨(irqHost []), _, 5, ⟨0, 0⟩, 0, 0x510, 3, _, _, _, rfl, rfl, rfl, rfl, by decide +kernel⟩

theorem wit_SourceCommands_12 : ∃ (s u : State) (t : Nat) (g : Nat) (x : WinSt) (w : State),
    u = s.tick t ∧ w = u.setWindow g none ∧ u.window g = some x ∧ x.at_ + u.rd IC_TTIME_TIME g * 1000 * ivlNs ≤ u.time.ivl :=
  ⟨(later ((irqHost [(IC_SRC_STATE, 0, 16, 1), (IC_TSTAT_ARMED, 3, 0, 1)]).setWindow 3 (some ⟨1, 0⟩)) 4), _, 5, 3, ⟨1, 0⟩, _, rfl, rfl, by decide +kernel⟩

theorem wit_HoldEnds_1 : ∃ (s u : State) (t : Nat) (g : Nat) (h : HoldEnd),
    u = s.tick t ∧ u.targetFunc g = none :=
  ⟨(irqHost []), _, 5, 0, .d0, rfl, by decide +kernel⟩

theorem wit_HoldEnds_2 : ∃ (s u : State) (t : Nat) (g : Nat) (f : Func),
    u = s.tick t ∧ u.targetFunc g = some f :=
  ⟨(irqHost []), _, 5, 3, ⟨0, 0⟩, rfl, by decide +kernel⟩

theorem wit_HoldEnds_3 : ∃ (s u : State) (t : Nat) (g : Nat) (f : Func),
    u = s.tick t ∧ u.targetFunc g = some f :=
  ⟨(irqHost []), _, 5, 3, ⟨0, 0⟩, rfl, by decide +kernel⟩

theorem wit_HoldEnds_4 : ∃ (s u : State) (t : Nat) (g : Nat) (f : Func),
    u = s.tick t ∧ u.targetFunc g = some f :=
  ⟨(irqHost []), _, 5, 3, ⟨0, 0⟩, rfl, by decide +kernel⟩

theorem wit_HoldEnds_5 : ∃ (s u : State) (t : Nat) (g : Nat) (f : Func),
    u = s.tick t ∧ u.targetFunc g = some f :=
  ⟨(irqHost []), _, 5, 3, ⟨0, 0⟩, rfl, by decide +kernel⟩

theorem wit_HoldEnds_6 : ∃ (s u : State) (t : Nat) (g : Nat) (f : Func),
    u = s.tick t ∧ u.targetFunc g = some f :=
  ⟨(irqHost []), _, 5, 3, ⟨0, 0⟩, rfl, by decide +kernel⟩

theorem wit_HoldEnds_7 : ∃ (s u : State) (t : Nat) (g : Nat) (f : Func) (w : State),
    u = s.tick t ∧ w = (u.setLink f.link fun l => { l with l1 := false, exiting := false }) ∧ u.targetFunc g = some f :=
  ⟨(irqHost []), _, 5, 3, ⟨0, 0⟩, _, rfl, rfl, by decide +kernel⟩

theorem wit_FaultSources_1 : ∃ (s u : State) (t : Nat) (src detail : Nat),
    u = s.tick t ∧ u.detailIsCause src detail = false :=
  ⟨(host []), _, 5, 240, 0, rfl, by decide +kernel⟩

theorem wit_FaultSources_2 : ∃ (s u : State) (t : Nat) (src detail : Nat),
    u = s.tick t ∧ u.detailIsCause src detail = true ∧ 64 ≤ src ∧ src < 128 :=
  ⟨(domHost 2), _, 5, 66, 9, rfl, by decide +kernel⟩

theorem wit_FaultSources_3 : ∃ (s u : State) (t : Nat) (src detail : Nat),
    u = s.tick t ∧ u.detailIsCause src detail = true ∧ (src < 64 ∨ 128 ≤ src) :=
  ⟨(host []), _, 5, 3, 9, rfl, by decide +kernel⟩

theorem wit_FaultSources_4 : ∃ (s u : State) (t : Nat) (src : Nat),
    u = s.tick t ∧ faultReserved src = false ∧ u.srcPowered src = true ∧ u.rdA FC_SRC_RAILEQ 0 src = 0 :=
  ⟨(domHost 2), _, 5, 2, rfl, by decide +kernel⟩

theorem wit_FaultSources_5 : ∃ (s u : State) (t : Nat) (src : Nat),
    u = s.tick t ∧ kindL src = false ∧ u.causePresent src = false :=
  ⟨(host []), _, 5, 70, rfl, by decide +kernel⟩

theorem wit_FaultRecords_1 : ∃ (s u : State) (t : Nat) (f : Func) (r : FaultRec) (w x : State),
    u = s.tick t ∧ w = (u.setFifo (u.fc.fifo.filter fun x => x.id != r.id)) ∧
    x = ({ w with host := { w.host with snaps := (List.range 6).foldl (fun ps i => putPart ps f (⟨.fc, 0, 0, 8 + 4 * i, false⟩ : Loc).key (r.words[i]?.getD 0)) w.host.snaps } }) ∧
    u.takesRead f 0x20004 = true ∧ topRec u.fc.fifo = some r :=
  ⟨({ host [] with fc := { fifo := [recFault] } }), _, 5, ⟨0, 0⟩, recFault, _, _, rfl, rfl, rfl, by decide +kernel⟩

theorem wit_FaultRecords_2 : ∃ (s u : State) (t : Nat) (f : Func) (w x : State),
    u = s.tick t ∧ w = u.evt FC_FSTAT_UNDER 0 0 ∧
    x = ({ w with host := { w.host with snaps := (List.range 6).foldl (fun ps i => putPart ps f (⟨.fc, 0, 0, 8 + 4 * i, false⟩ : Loc).key 0) w.host.snaps } }) ∧
    u.takesRead f 0x20004 = true ∧ topRec u.fc.fifo = none :=
  ⟨(host []), _, 5, ⟨0, 0⟩, _, _, rfl, rfl, rfl, by decide +kernel⟩

theorem wit_FaultRecords_3 : ∃ (s u : State) (t : Nat) (f : Func) (g v : Nat),
    u = s.tick t ∧ u.takesWrite f (0x21000 + g * 0x20 + 0xC) = true :=
  ⟨(host []), _, 5, ⟨0, 0⟩, 1, 0x100, rfl, by decide +kernel⟩

theorem wit_FaultRecords_4 : ∃ (s u : State) (t : Nat) (f : Func) (g : Nat) (on : Bool) (w : State),
    u = s.tick t ∧ w = u.wrA FC_GTEST_TEST 0 g (b2n on) ∧ u.takesWrite f (0x21000 + g * 0x20 + 0x14) = true ∧ g < 16 ∧ u.gOwner g = u.tn f :=
  ⟨(host []), _, 5, ⟨0, 0⟩, 1, true, _, rfl, rfl, by decide +kernel⟩

theorem wit_FaultRecords_5 : ∃ (s u : State) (t : Nat) (f : Func) (g : Nat) (on : Bool),
    u = s.tick t ∧ u.takesWrite f (0x21000 + g * 0x20 + 0x14) = true ∧ (16 ≤ g ∨ u.gOwner g ≠ u.tn f) :=
  ⟨((host []).wrA FC_GCFG_GOWNER 0 1 5), _, 5, ⟨0, 0⟩, 1, true, rfl, by decide +kernel⟩

theorem wit_PowerDomains_1 : ∃ (s u : State) (t : Nat) (f : Func) (k d o p : Nat) (i : Instr),
    u = s.tick t ∧ k = u.tn f ∧
    i ∈ [.domainOff t f d, .domainOn t f d, .setOp t f o, .paceCal t f, .sleep t f p, .wake t f p, .vetoSet t f p, .vetoClr t f p, .wakeAck t f p, .fabricWake t f] ∧
    u.takesWrite f 0x78 = true ∧ u.flag TEN_PWR_RES_BUSY k = true :=
  ⟨(host [(TEN_PWR_RES_BUSY, 0, 0, 1)]), _, 5, ⟨0, 0⟩, 0, 2, 1, 2, .setOp 5 ⟨0, 0⟩ 1, rfl, rfl, by decide +kernel⟩

theorem wit_PowerDomains_2 : ∃ (s u : State) (t : Nat) (f : Func) (d k : Nat) (on : Bool) (i : Instr) (w : State),
    u = s.tick t ∧ k = u.tn f ∧ w = u.put TEN_PWR_RES_OVR k false ∧ ((i = .domainOff t f d ∧ on = false) ∨ (i = .domainOn t f d ∧ on = true)) ∧
    u.takesWrite f 0x78 = true ∧ u.flag TEN_PWR_RES_BUSY k = false :=
  ⟨(host [(FB_OWNER_VALID, 2, 0, 1), (PM_DSW_SW, 0, 0, 4), (PM_DON_ON, 0, 0, 4)]), _, 5, ⟨0, 0⟩, 2, _, false, .domainOff 5 ⟨0, 0⟩ 2, _, rfl, rfl, rfl, by decide +kernel⟩

theorem wit_PowerDomains_3 : ∃ (s u : State) (t : Nat) (d : Nat) (x : DomSwitch),
    u = s.tick t ∧ (u.pm.switches.find? (fun x => x.domain == d && !x.on) = some x) :=
  ⟨({ host [(PM_DON_ON, 0, 0, 4)] with pm := { switches := [⟨2, false, 0, 1⟩] } }), _, 5, 2, _, rfl, rfl⟩

theorem wit_PowerDomains_4 : ∃ (s u : State) (t : Nat) (d : Nat) (good : Bool) (x : DomSwitch),
    u = s.tick t ∧ (u.pm.switches.find? (fun x => x.domain == d && x.on) = some x) :=
  ⟨({ host [] with pm := { switches := [⟨2, true, 0, 1⟩] } }), _, 5, 2, true, _, rfl, rfl⟩

theorem wit_OperatingPoint_1 : ∃ (s u : State) (t : Nat) (f : Func) (o k r : Nat) (w : State),
    u = s.tick t ∧ k = u.tn f ∧ w = u.put TEN_PWR_RES_OVR k false ∧ r = w.opResult k o ∧ u.takesWrite f 0x78 = true ∧
    u.flag TEN_PWR_RES_BUSY k = false :=
  ⟨(host [(PM_OPLIM_OPLO, 0, 0, 2)]), _, 5, ⟨0, 0⟩, 1, _, _, _, rfl, rfl, rfl, rfl, by decide +kernel⟩

theorem wit_OperatingPoint_2 : ∃ (s u : State) (t : Nat) (o gap : Nat) (w : State),
    u = s.tick t ∧ o = u.rd PM_STAT_OP 0 ∧ gap = (if u.pm.slewFrom ≥ opMv o then u.pm.slewFrom - opMv o else opMv o - u.pm.slewFrom) ∧
    w = (((u.put PM_STAT_SLEW 0 false).wr PM_STAT_VCORE 0 (opMv o)).wr PM_STAT_GOV 0 o).refreshEst ∧ u.flag PM_STAT_SLEW 0 = true ∧
    u.pm.slewAt * 10 + (gap - 5) * tqPerUs + 20 * tqPerUs ≤ u.now * 10 :=
  ⟨({ host [(PM_STAT_SLEW, 0, 0, 1), (PM_STAT_OP, 0, 0, 1)] with pm := { slewFrom := 900 } }), _, 100000, _, _, _, rfl, rfl, rfl, rfl, by decide +kernel⟩

theorem wit_OperatingPoint_3 : ∃ (s u : State) (t : Nat) (ps tj gov : Nat) (far : CalSt → Bool) (w x y : State),
    u = s.tick t ∧ gov = u.rd PM_STAT_GOV 0 ∧
    w = ((u.wr PM_TJ_TJ 0 tj).wr PM_PACE_RAW_PS 0 ps).wr PM_PACE_MAX_PS 0 (max (u.rd PM_PACE_MAX_PS 0) (ps % 65536)) ∧
    x = (w.note (PM_PACE_MAX_PS.key 0 0) .largest (ps % 65536)).refreshEst ∧
    far = (fun c => decide ((fromTwos 16 (x.rd PM_TJ_TJ 0) - fromTwos 16 c.tj).natAbs > 5)) ∧
    y = ({ x with pm := { x.pm with cal := x.pm.cal.map fun c => { c with moved := c.moved || far c } } }) :=
  ⟨(host []), _, 5, 100, 25, _, _, _, _, _, rfl, rfl, rfl, rfl, rfl, rfl⟩

theorem wit_OperatingPoint_4 : ∃ (s u : State) (t : Nat) (f : Func) (k : Nat) (w x : State),
    u = s.tick t ∧ k = u.tn f ∧ w = u.put TEN_PWR_RES_OVR k false ∧
    x = { w with pm := { w.pm with cal := some { tenant := k, at_ := w.now, commits := w.commits, tj := w.rd PM_TJ_TJ 0, slewed := w.flag PM_STAT_SLEW 0 } } } ∧
    u.takesWrite f 0x78 = true ∧ u.flag TEN_PWR_RES_BUSY k = false :=
  ⟨(host []), _, 5, ⟨0, 0⟩, _, _, _, rfl, rfl, rfl, rfl, by decide +kernel⟩

theorem wit_OperatingPoint_5 : ∃ (s u : State) (t : Nat) (factor why : Nat) (c : CalSt) (w x : State),
    u = s.tick t ∧ why = (if (u.commits + 2 ^ 26 - c.commits) % 2 ^ 24 ≥ 10000 then 1 else if c.slewed then 2 else if c.moved then 3 else 0) ∧
    w = ({ u with pm := { u.pm with cal := none } }).put PM_STAT_CAL 0 false ∧
    x = (if why = 0 then (w.wrA PM_CALF_FACTOR 0 (w.rd PM_STAT_OP 0) factor).refreshEst else w) ∧ u.pm.cal = some c ∧ c.at_ + 100 * tqPerMs ≤ u.now :=
  ⟨({ host [] with pm := { cal := some ⟨0, 0, 0, 25, false, false⟩ } }), _, 100000000, 4096, _, ⟨0, 0, 0, 25, false, false⟩, _, _, rfl, rfl, rfl, rfl, by decide +kernel⟩

theorem wit_AniseCommands_1 : ∃ (s u : State) (t : Nat) (f : Func) (p k : Nat) (i : Instr) (w : State),
    u = s.tick t ∧ k = u.tn f ∧ w = u.put TEN_PWR_RES_OVR k false ∧
    i ∈ [.sleep t f p, .wake t f p, .vetoSet t f p, .vetoClr t f p, .wakeAck t f p] ∧ u.takesWrite f 0x78 = true ∧
    u.flag TEN_PWR_RES_BUSY k = false ∧ (64 ≤ p ∨ w.flag FB_OWNER_VALID p = false ∨ w.fbOwner p ≠ k ∨ w.aniseOn p = false) :=
  ⟨(aniseHost fbActive []), _, 5, ⟨0, 0⟩, 64, _, .vetoClr 5 ⟨0, 0⟩ 64, _, rfl, rfl, rfl, by decide +kernel⟩

theorem wit_AniseCommands_2 : ∃ (s u : State) (t : Nat) (f : Func) (p k : Nat) (w : State),
    u = s.tick t ∧ k = u.tn f ∧ w = u.put TEN_PWR_RES_OVR k false ∧ u.takesWrite f 0x78 = true ∧ u.flag TEN_PWR_RES_BUSY k = false ∧ p < 64 ∧
    w.flag FB_OWNER_VALID p = true ∧ w.fbOwner p = k ∧ w.aniseOn p = true :=
  ⟨(aniseHost fbActive []), _, 5, ⟨0, 0⟩, 2, _, _, rfl, rfl, rfl, by decide +kernel⟩

theorem wit_AniseCommands_3 : ∃ (s u : State) (t : Nat) (f : Func) (p k : Nat) (w : State),
    u = s.tick t ∧ k = u.tn f ∧ w = u.put TEN_PWR_RES_OVR k false ∧ u.takesWrite f 0x78 = true ∧ u.flag TEN_PWR_RES_BUSY k = false ∧ p < 64 ∧
    w.flag FB_OWNER_VALID p = true ∧ w.fbOwner p = k ∧ w.aniseOn p = true :=
  ⟨(aniseHost fbAsleep []), _, 5, ⟨0, 0⟩, 2, _, _, rfl, rfl, rfl, by decide +kernel⟩

theorem wit_AniseCommands_4 : ∃ (s u : State) (t : Nat) (f : Func) (p k : Nat) (w : State),
    u = s.tick t ∧ k = u.tn f ∧ w = u.put TEN_PWR_RES_OVR k false ∧ u.takesWrite f 0x78 = true ∧ u.flag TEN_PWR_RES_BUSY k = false ∧ p < 64 ∧
    w.flag FB_OWNER_VALID p = true ∧ w.fbOwner p = k ∧ w.aniseOn p = true :=
  ⟨(aniseHost fbActive [(PM_PSLP_VETO, 0, 2, 0)]), _, 5, ⟨0, 0⟩, 2, _, _, rfl, rfl, rfl, by decide +kernel⟩

theorem wit_AniseCommands_5 : ∃ (s u : State) (t : Nat) (f : Func) (p k : Nat) (w : State),
    u = s.tick t ∧ k = u.tn f ∧ w = u.put TEN_PWR_RES_OVR k false ∧ u.takesWrite f 0x78 = true ∧ u.flag TEN_PWR_RES_BUSY k = false ∧ p < 64 ∧
    w.flag FB_OWNER_VALID p = true ∧ w.fbOwner p = k ∧ w.aniseOn p = true :=
  ⟨(aniseHost fbActive [(PM_PSLP_VETO, 0, 2, 1)]), _, 5, ⟨0, 0⟩, 2, _, _, rfl, rfl, rfl, by decide +kernel⟩

theorem wit_AniseCommands_6 : ∃ (s u : State) (t : Nat) (f : Func) (p k : Nat) (w : State),
    u = s.tick t ∧ k = u.tn f ∧ w = u.put TEN_PWR_RES_OVR k false ∧ u.takesWrite f 0x78 = true ∧ u.flag TEN_PWR_RES_BUSY k = false ∧ p < 64 ∧
    w.flag FB_OWNER_VALID p = true ∧ w.fbOwner p = k ∧ w.aniseOn p = true :=
  ⟨(aniseHost fbAsleep [(PM_PSLP_ASTATE, 0, 2, 5), (PM_ARD1_WGATE, 0, 2, 1)]), _, 5, ⟨0, 0⟩, 2, _, _, rfl, rfl, rfl, by decide +kernel⟩

theorem wit_AniseCommands_7 : ∃ (s u : State) (t : Nat) (f : Func) (k : Nat) (w : State),
    u = s.tick t ∧ k = u.tn f ∧ w = u.put TEN_PWR_RES_OVR k false ∧ u.takesWrite f 0x78 = true ∧ u.flag TEN_PWR_RES_BUSY k = false :=
  ⟨(host [(PM_STAT_FSLEPT, 0, 0, 1)]), _, 5, ⟨0, 0⟩, _, _, rfl, rfl, rfl, by decide +kernel⟩

theorem wit_AniseTimers_1 : ∃ (s u : State) (t : Nat) (p a : Nat),
    u = s.tick t ∧ u.rdA PM_PSLP_ASTATE 0 p = 2 ∧ (u.an p).sentAt = some a ∧ a + u.aniseWin p ≤ u.now :=
  ⟨((aniseHost fbActive [(PM_PSLP_ASTATE, 0, 2, 2)]).setAn 2 fun a => { a with sentAt := some 1 }), _, 5, 2, 1, rfl, by decide +kernel⟩

theorem wit_AniseTimers_2 : ∃ (s u : State) (t : Nat) (p : Nat),
    u = s.tick t ∧ u.rdA PM_PSLP_ASTATE 0 p = 2 ∧ (u.an p).sentAt = none ∧ (u.an p).subAt + u.aniseWin p ≤ u.now :=
  ⟨(aniseHost fbActive [(PM_PSLP_ASTATE, 0, 2, 2)]), _, 5, 2, rfl, by decide +kernel⟩

theorem wit_AniseTimers_3 : ∃ (s u : State) (t : Nat) (p : Nat) (w : State),
    u = s.tick t ∧
    w = (if u.rdA PM_PSLP_ASTATE 0 p = 3 then (u.endRound p 1).wrA PM_PSLP_FSL 0 p (b2n (u.an p).fabric) else (u.wrA PM_PSLP_ASTATE 0 p 4).setAn p fun a => { a with sleepDue := false }) ∧
    (u.an p).sleepDue = true ∧ (u.port p).cur = none ∧ (u.port p).tail = false ∧ (u.onBus p = true ∨ u.fstate p = fbIntegrating) :=
  ⟨((aniseHost fbActive []).setAn 2 fun a => { a with sleepDue := true }), _, 5, 2, _, rfl, rfl, by decide +kernel⟩

theorem wit_AniseTimers_4 : ∃ (s u : State) (t : Nat) (p : Nat),
    u = s.tick t ∧ u.rdA PM_PSLP_ASTATE 0 p = 5 ∧ (u.an p).wokenAt + 50 * tqPerMs ≤ u.now :=
  ⟨(aniseHost fbAsleep [(PM_PSLP_ASTATE, 0, 2, 5)]), _, 10000000, 2, rfl, by decide +kernel⟩

theorem wit_ImageSessions_1 : ∃ (s u : State) (t : Nat) (f : Func) (force : Bool) (i : Instr),
    u = s.tick t ∧ i ∈ [.sessionOpen t f force, .sessionClose t f, .sessionAbort t f, .activate t f, .activateCold t f, .rollfwd t f] ∧
    u.takesWrite f 0x38004 = true ∧ u.flag CU_RES_BUSY 0 = true :=
  ⟨(host [(CU_RES_BUSY, 0, 0, 1)]), _, 5, ⟨0, 0⟩, false, .activate 5 ⟨0, 0⟩, rfl, by decide +kernel⟩

theorem wit_ImageSessions_2 : ∃ (s u : State) (t : Nat) (f : Func) (force : Bool) (k : Nat) (w x : State),
    u = s.tick t ∧ k = u.tn f ∧ w = u.put CU_RES_OVR 0 false ∧ x = (if w.holdsBase w.spareSlot then w.put CU_STAT_NOFALLBACK 0 true else w) ∧
    u.takesWrite f 0x38004 = true ∧ u.flag CU_RES_BUSY 0 = false :=
  ⟨(host []), _, 5, ⟨0, 0⟩, false, _, _, _, rfl, rfl, rfl, rfl, by decide +kernel⟩

theorem wit_ImageSessions_3 : ∃ (s u : State) (t : Nat) (w x : State),
    u = s.tick t ∧ w = (u.setCu fun c => { c with erasing := false }) ∧
    x = (if w.flag CU_STAT_SESSION 0 then w.setNvm w.spareSlot fun x => { x with st := slOpen } else w) ∧ u.cu.erasing = true :=
  ⟨((host [(CU_STAT_SESSION, 0, 0, 1)]).setCu fun c => { c with erasing := true }), _, 5, _, _, rfl, rfl, rfl, by decide +kernel⟩

theorem wit_ImageSessions_4 : ∃ (s u : State) (t : Nat) (f : Func) (k : Nat) (i : Instr) (w : State),
    u = s.tick t ∧ k = u.tn f ∧ w = u.put CU_RES_OVR 0 false ∧ (i = .sessionClose t f ∨ i = .sessionAbort t f) ∧ u.takesWrite f 0x38004 = true ∧
    u.flag CU_RES_BUSY 0 = false ∧ w.sessionOf k = false :=
  ⟨(host []), _, 5, ⟨0, 0⟩, _, .sessionAbort 5 ⟨0, 0⟩, _, rfl, rfl, rfl, by decide +kernel⟩

theorem wit_ImageSessions_5 : ∃ (s u : State) (t : Nat) (f : Func) (k b : Nat) (ok : Bool) (w : State),
    u = s.tick t ∧ k = u.tn f ∧ w = u.put CU_RES_OVR 0 false ∧ b = w.spareSlot ∧ ok = ((w.nvm b).headerOk && (w.nvm b).complete) ∧
    u.takesWrite f 0x38004 = true ∧ u.flag CU_RES_BUSY 0 = false ∧ w.sessionOf k = true :=
  ⟨((host [(CU_STAT_SESSION, 0, 0, 1)]).setNvm 1 fun x => { x with st := slOpen }), _, 5, ⟨0, 0⟩, _, _, _, _, rfl, rfl, rfl, rfl, rfl, by decide +kernel⟩

theorem wit_ImageSessions_6 : ∃ (s u : State) (t : Nat) (f : Func) (k : Nat) (w : State),
    u = s.tick t ∧ k = u.tn f ∧ w = u.put CU_RES_OVR 0 false ∧ u.takesWrite f 0x38004 = true ∧ u.flag CU_RES_BUSY 0 = false ∧ w.sessionOf k = true :=
  ⟨((host [(CU_STAT_SESSION, 0, 0, 1)]).setNvm 1 fun x => { x with st := slOpen }), _, 5, ⟨0, 0⟩, _, _, rfl, rfl, rfl, by decide +kernel⟩

theorem wit_ImageTransfer_1 : ∃ (s u : State) (t : Nat) (f : Func) (off : Nat) (data : List Nat) (x : State × Bool),
    u = s.tick t ∧ x = u.programAll u.spareSlot (off / 4) data ∧ u.answers f = true ∧ u.quiet f = false ∧
    u.refusal ⟨f, 0, 0x1000000 + off, true, data.length, off % 4 == 0, 0⟩ = none :=
  ⟨((host [(CU_STAT_SESSION, 0, 0, 1)]).setNvm 1 fun x => { x with st := slOpen }), _, 5, ⟨0, 0⟩, 0, [7], _, rfl, rfl, by decide +kernel⟩

theorem wit_ImageTransfer_2 : ∃ (s u : State) (t : Nat) (f : Func) (off : Nat) (data : List Nat) (a : Access) (r : Nat),
    u = s.tick t ∧ a = ⟨f, 0, 0x1000000 + off, true, data.length, off % 4 == 0, 0⟩ ∧ u.answers f = true ∧ u.quiet f = false ∧ u.refusal a = some r :=
  ⟨(host []), _, 5, ⟨0, 0⟩, 1, [7], _, 2, rfl, rfl, by decide +kernel⟩

theorem wit_ImageTransfer_3 : ∃ (s u : State) (t : Nat) (f : Func) (k n : Nat) (x : Pull),
    u = s.tick t ∧ k = u.tn f ∧ n = min (u.rd CU_PULL_LEN_WORDS 0) (slotWords - u.rd CU_PULL_OFF_WORD 0) ∧
    x = ({ link := f.link, tenant := k, addr := u.rd CU_PULL_A0_ADDR 0 + u.rd CU_PULL_A1_ADDR 0 * 2 ^ 24 + u.rd CU_PULL_A2_ADDR 0 * 2 ^ 48, off := u.rd CU_PULL_OFF_WORD 0, len := n, met := if n < u.rd CU_PULL_LEN_WORDS 0 then 2 else 0 }) ∧
    u.takesWrite f 0x3A014 = true :=
  ⟨((host [(CU_STAT_SESSION, 0, 0, 1), (CU_PULL_LEN_WORDS, 0, 0, 4)]).setNvm 1 fun x => { x with st := slOpen }), _, 5, ⟨0, 0⟩, _, _, _, rfl, rfl, rfl, rfl, by decide +kernel⟩

theorem wit_ImageTransfer_4 : ∃ (s u : State) (t : Nat) (link tag : Nat) (x : HostRead) (r : ReadResult),
    u = s.tick t ∧ u.readOf link tag = some x ∧ x.what = .pull :=
  ⟨((host []).setLink 0 fun l => { l with reads := [⟨7, .pull, 1, false⟩] }), _, 5, 0, 7, ⟨7, .pull, 1, false⟩, .err 3, rfl, by decide +kernel⟩

theorem wit_Activation_1 : ∃ (s u : State) (t : Nat) (f : Func) (k : Nat) (i : Instr) (w : State),
    u = s.tick t ∧ k = u.tn f ∧ w = u.put CU_RES_OVR 0 false ∧ (i = .activate t f ∨ i = .activateCold t f ∨ i = .rollfwd t f) ∧
    u.takesWrite f 0x38004 = true ∧ u.flag CU_RES_BUSY 0 = false ∧ k ≠ w.actOwner :=
  ⟨(host [(CU_CFG_ACTOWNER, 0, 0, 5)]), _, 5, ⟨0, 0⟩, _, .rollfwd 5 ⟨0, 0⟩, _, rfl, rfl, rfl, by decide +kernel⟩

theorem wit_Activation_2 : ∃ (s u : State) (t : Nat) (f : Func) (k : Nat) (w : State),
    u = s.tick t ∧ k = u.tn f ∧ w = u.put CU_RES_OVR 0 false ∧ u.takesWrite f 0x38004 = true ∧ u.flag CU_RES_BUSY 0 = false ∧ k = w.actOwner :=
  ⟨((host []).setNvm 1 fun x => { x with st := slStored }), _, 5, ⟨0, 0⟩, _, _, rfl, rfl, rfl, by decide +kernel⟩

theorem wit_Activation_3 : ∃ (s u : State) (t : Nat) (f : Func) (k : Nat) (w x : State),
    u = s.tick t ∧ k = u.tn f ∧ w = u.put CU_RES_OVR 0 false ∧ x = (w.wr CU_STAT_BOOTSEL 0 w.spareSlot).put CU_RES_BUSY 0 true ∧
    u.takesWrite f 0x38004 = true ∧ u.flag CU_RES_BUSY 0 = false ∧ k = w.actOwner :=
  ⟨((host []).setNvm 1 fun x => { x with st := slStored }), _, 5, ⟨0, 0⟩, _, _, _, rfl, rfl, rfl, rfl, by decide +kernel⟩

theorem wit_Activation_4 : ∃ (s u : State) (t : Nat) (f : Func) (k v : Nat) (w : State),
    u = s.tick t ∧ k = u.tn f ∧ w = u.put CU_RES_OVR 0 false ∧ v = w.rd CU_RUN1_SECVER 0 ∧ u.takesWrite f 0x38004 = true ∧
    u.flag CU_RES_BUSY 0 = false ∧ k = w.actOwner :=
  ⟨(host [(CU_RUN1_SECVER, 0, 0, 3)]), _, 5, ⟨0, 0⟩, _, _, _, rfl, rfl, rfl, rfl, by decide +kernel⟩

theorem wit_Activation_5 : ∃ (s u : State) (t : Nat) (nvm : Bool) (k : Nat) (v : Verdict) (w x y : State),
    u = s.tick t ∧ k = u.spareSlot ∧ v = u.checkSlot k false nvm ∧ w = u.noteCheck k v ∧
    x = (match v with | .pass l => (w.wr CU_STAT_BOOTSEL 0 k).setCu fun c => { c with next := some l, gapAt := w.now } | .fail _ _ => w) ∧
    y = ((List.range 64).foldl (fun (z : State) p => z.failRound p 7) x) ∧ u.rd CU_STAT_PHASE 0 = phCheck :=
  ⟨(host [(CU_STAT_PHASE, 0, 0, phCheck)]), _, 5, false, _, _, _, _, _, rfl, rfl, rfl, rfl, rfl, rfl, by decide +kernel⟩

theorem wit_Activation_6 : ∃ (s u : State) (t : Nat) (l : Loaded) (k us : Nat) (bad : Bool) (w x y z : State),
    u = s.tick t ∧ u.cu.next = some l ∧ k = u.rd CU_STAT_BOOTSEL 0 ∧ us = (u.now - u.cu.gapAt) / tqPerUs ∧
    bad = recordRefused (l.ver[3]?.getD 0) (l.ver[2]?.getD 0) l.img.hash u.cu.record ∧
    w = (((u.tapEnd.setCu fun c => { c with next := none, record := [] }).wr CU_STAT_PHASE 0 phRun).wr CU_GAP_US 0 us) ∧
    x = (((w.activate l k false !bad).bump CU_ACTS_COUNT 0).cuDone 0 0).gapEvent (2 :: leBytes 3 us) ∧
    y = (if bad then x.checkEvent k 5 3 0 0 else x) ∧
    z = ((List.range 24).foldl (fun (z : State) n => z.releaseSp n) ((List.range 64).foldl (fun (z : State) p => z.releasePort p) y)) :=
  ⟨((host [(CU_STAT_PHASE, 0, 0, phGap)]).setCu fun c => { c with next := some ⟨{}, []⟩ }), _, 5, _, _, _, _, _, _, _, _, rfl, rfl, rfl, rfl, rfl, rfl, rfl, rfl, rfl⟩

theorem wit_Activation_7 : ∃ (s u : State) (t : Nat) (v : Nat) (rest : List OtpWrite) (w : State),
    u = s.tick t ∧ w = (u.setCu fun c => { c with otp := c.otp.write (.roll v), otpWrites := rest }) ∧ u.cu.otpWrites = .roll v :: rest :=
  ⟨((host [(CU_RES_BUSY, 0, 0, 1)]).setCu fun c => { c with otpWrites := [.roll 3] }), _, 5, 3, [], _, rfl, rfl, by decide +kernel⟩

theorem wit_Activation_8 : ∃ (s u : State) (t : Nat) (a b : List Byte) (rest : List OtpWrite),
    u = s.tick t ∧ u.cu.otpWrites = .enroll a b :: rest :=
  ⟨((host []).setCu fun c => { c with otpWrites := [.enroll [1] [2]] }), _, 5, [1], [2], [], rfl, by decide +kernel⟩

theorem wit_boot_bare : ∃ (s u : State) (t : Nat), u = s.tick t ∧ u.sys.down = true ∧ ∀ k, (u.nvm k).st = slEmpty :=
  ⟨State.reset, _, 5, rfl, by decide, fun k => by simp only [State.nvm]; split <;> decide⟩
theorem wit_StartUp_4 : ∃ (s u : State) (t : Nat) (a : Nat),
    u = s.tick t ∧ u.cu.coldAt = some a ∧ a ≤ u.now :=
  ⟨((host []).setCu fun c => { c with coldAt := some 3 }), _, 5, 3, rfl, by decide +kernel⟩

theorem wit_StartUp_5 : ∃ (s u : State) (t : Nat) (start count a : Nat) (nvm1 nvm2 : Bool),
    u = s.tick t ∧ a = u.rd CU_STAT_BOOTSEL 0 ∧ u.sys.down = true :=
  ⟨(State.reset), _, 5, 0, 0, _, false, false, rfl, rfl, by decide +kernel⟩

theorem wit_StartUp_7 : ∃ (s u : State) (t : Nat) (link : Nat),
    u = s.tick t ∧ link ≤ 1 :=
  ⟨(host []), _, 5, 1, rfl, by decide +kernel⟩

theorem wit_StartUp_8 : ∃ (s u : State) (t : Nat) (link : Nat) (w : State),
    u = s.tick t ∧ w = (if (u.link link).up then u.resetLink link else u) ∧ link ≤ 1 :=
  ⟨(host []), _, 5, 0, _, rfl, rfl, by decide +kernel⟩

theorem wit_BoundaryScan_4 : ∃ (s u : State) (t : Nat) (i : Instr) (code : Nat),
    u = s.tick t ∧
    (i, code) ∈ [(.extest t, tapExtest), (.extestPulse t, tapPulse), (.extestTrain t, tapTrain), (.clampPins t, tapClamp), (.highz t, tapHighz), (.bypass t, tapBypass)] :=
  ⟨(host []), _, 5, .highz 5, tapHighz, rfl, by decide +kernel⟩

theorem wit_HardwareEvents_4 : ∃ (s u : State) (t : Nat) (p : Nat) (w : State),
    u = s.tick t ∧ w = (u.setPort p fun x => { x with hot := false }) ∧ p < 64 ∧ (u.port p).hot = true :=
  ⟨((host []).setPort 2 fun x => { x with hot := true }), _, 5, 2, _, rfl, rfl, by decide +kernel⟩

theorem wit_HardwareEvents_6 : ∃ (s u : State) (t : Nat) (src : Nat),
    u = s.tick t ∧ 64 ≤ src ∧ src ≠ 188 ∧ src ≠ 196 ∧ kindL src = true :=
  ⟨(host []), _, 5, 136, rfl, by decide +kernel⟩

theorem wit_HardwareEvents_7 : ∃ (s u : State) (t : Nat) (g : Nat) (eq : Bool) (w : State),
    u = s.tick t ∧ w = u.netFail g false ∧ g < 16 :=
  ⟨(host []), _, 5, 2, true, _, rfl, rfl, by decide +kernel⟩

theorem wit_slot_bank (n k : Nat) (s : State) (h : ∀ d < 8, bitAt (s.rdA PM_DON_ON 0 ((108 + d) / 24)) ((108 + d) % 24) = true) :
    s.domOn (108 + s.slotBank k) = true := h _ (by unfold State.slotBank; have := (Config.slotPlace s.rx.fsKey (Fin.ofNat 32768 k)).isLt; omega)
theorem wit_scrub_frame : ∃ (s u : State) (t frame : Nat), u = s.tick t ∧ frame < 32768 ∧ u.domOn (108 + u.slotBank frame) = true :=
  ⟨host [(PM_DON_ON, 0, 4, 0xFFFFFF)], _, 5, 3, rfl, by decide, wit_slot_bank 0 _ _ (by decide +kernel)⟩
theorem wit_Housekeeping_1 : ∃ (s u : State) (t : Nat) (port a : Nat),
    u = s.tick t ∧ (u.lp port).nakAt = some a ∧ u.lstate port = 4 ∧ a + 2 * tqPerUs ≤ u.now :=
  ⟨((nodeHost []).setLp 1 fun p => { p with nakAt := some 1 }), _, 1000, 1, 1, rfl, by decide +kernel⟩

theorem wit_Housekeeping_3 : ∃ (s u : State) (t : Nat) (frame : Nat) (bad : Bool),
    u = s.tick t ∧ (32768 ≤ frame ∨ u.domOn (108 + u.slotBank frame) = false) :=
  ⟨(host []), _, 5, 32768, false, rfl, by decide +kernel⟩

theorem wit_stepRunsFront_idle : ∃ s : State, s.pending = [] := ⟨State.reset, rfl⟩

theorem wit_tenantNumbers_h0 : ∃ (s : State) (n : Nat), 1 ≤ n ∧ n ≤ s.img.split := ⟨{ (host []) with img := { (host []).img with split := 255 } }, 255, by decide⟩
theorem wit_tenantNumbers_h1 : ∃ (s : State) (n : Nat), 1 ≤ n ∧ n ≤ 255 - s.img.split :=
  ⟨{ (host []) with img := { (host []).img with split := 250 } }, 5, by decide⟩

theorem wit_tenantsApart : ∃ (s : State) (f g : Func) (k : Nat), s.img.split ≤ 255 ∧ s.tenantNo f = some k ∧ s.tenantNo g = some k :=
  ⟨{ (host []) with img := { (host []).img with split := 250 } }, ⟨1, 5⟩, ⟨1, 5⟩, 255, by decide⟩

theorem wit_mailboxMap : ∃ m w : Nat, m < 8192 ∧ w < 32 := ⟨8191, 31, by decide⟩

theorem wit_unusedRing_read : ∃ (s u : State) (t : Nat) (a : Access) (r c : Nat), u = s.tick t ∧ r < 256 ∧ c ∈ [0x2C, 0x30, 0x34, 0x38, 0x3C] ∧
    a.bar = 0 ∧ a.write = false ∧ a.dwords = 1 ∧ a.off = 0x8000 + r / 32 * 0x1000 + r % 32 * 0x40 + c ∧ u.serves a = true :=
  ⟨host [], _, 5, ⟨⟨0, 0⟩, 0, 0x87FC, false, 1, true, 0⟩, 31, 0x3C, rfl, by decide +kernel⟩
theorem wit_unusedRing_write : ∃ (s u : State) (t : Nat) (a : Access) (r c : Nat), u = s.tick t ∧ r < 256 ∧ c ∈ [0x2C, 0x30, 0x34, 0x38, 0x3C] ∧
    a.bar = 0 ∧ a.write = true ∧ a.off = 0x8000 + r / 32 * 0x1000 + r % 32 * 0x40 + c ∧ u.serves a = true :=
  ⟨host [], _, 5, ⟨⟨0, 0⟩, 0, 0x87EC, true, 1, true, 7⟩, 31, 0x2C, rfl, by decide +kernel⟩

theorem wit_faultReadEmpty : ∃ (s u : State) (t : Nat) (f : Func), u = s.tick t ∧ u.takesRead f 0x20004 = true ∧ u.fc.fifo = [] :=
  ⟨host [], _, 5, ⟨0, 0⟩, rfl, by decide⟩

theorem wit_lateResponse : ∃ (s u w : State) (t port : Nat) (c : Cell), u = s.tick t ∧ c.typ = 2 ∧ u.accept port c = (w, true) ∧ w.isForward port = true ∧
    c.dst = w.node ∧ (∀ x ∈ w.ring_.ctx, x.tag ≠ c.tag) ∧ w.rd RG_LATE_RSP_COUNT 0 < 2 ^ 24 :=
  ⟨nodeHost [], _, _, 5, 1, cellDemo 2, rfl, rfl, rfl, by decide +kernel⟩

theorem wit_writeByAccess : ∃ (s : State) (f : Fld) (i j x : Nat), 0 < f.w ∧ s.rdA f i j < 2 ^ f.w ∧ x < 2 ^ f.w := ⟨host [], RG_LATE_RSP_COUNT, 0, 0, 1, by decide⟩

theorem wit_queueInsertion : ∃ (s : State) (p q : Nat) (e : QEntry), (s.queue p).entries.Pairwise (fun a b => a.key ≤ b.key) ∧ q ≠ p ∧ e.mirror = false :=
  ⟨host [], 0, 63, replyDemo, by decide⟩

theorem wit_stepKeepsQueueAndClock : ∃ s v : State, s.pending ≠ [] ∧ step s = .next v := ⟨{ (host []) with pending := [.nop 5 0] }, _, by decide, rfl⟩

theorem wit_otpOnlyRises : ∃ (s v : State) (o : List Byte × List Byte), s.pending ≠ [] ∧ step s = .next v ∧ s.cu.otp.owner = some o :=
  ⟨{ (host []) with pending := [.nop 5 0], cu := { (host []).cu with otp := { (host []).cu.otp with owner := some ([1], [2]) } } }, _, ([1], [2]), by decide, rfl, rfl⟩

theorem wit_intervalNeverFalls : ∃ s v : State, s.pending ≠ [] ∧ (∀ c ∈ s.pending.head?, c.special = false) ∧ step s = .next v :=
  ⟨{ (host []) with pending := [.nop 5 0] }, _, by decide, by decide, rfl⟩

theorem wit_registersStayCanonical : ∃ s v : State, s.pending ≠ [] ∧ s.regsCanonical ∧ step s = .next v :=
  ⟨{ State.reset with pending := [.nop 5 0] }, _, by decide, List.Pairwise.nil, rfl⟩

end Sys2Proof.Tests
end

section
/-! PROOFS. Which tenant a virtual function is (chapter 02, R65). -/

namespace Sys2Proof.Machine

/-- The VFs of H0 up to the split bear their own number, those beyond it none. -/
theorem State.tenantNo_vf_h0 (s : State) {n : Nat} (hn : n ≠ 0) :
    s.tenantNo ⟨0, n⟩ = if n ≤ s.img.split then some n else none := by
  simp [State.tenantNo, hn]

/-- The VFs of H1 go on from the split as far as tenant 255, those beyond it bear none. -/
theorem State.tenantNo_vf_h1 (s : State) {n : Nat} (hn : n ≠ 0) :
    s.tenantNo ⟨1, n⟩ = if s.img.split + n ≤ 255 then some (s.img.split + n) else none := by
  simp [State.tenantNo, hn]

/-- Settles O44, from the number of a VF on each link; on H1 the bound 255 - S is a truncated difference, which `1 ≤ n` makes a true one. -/
theorem tenantNumbers : Obligations.TenantNumbers := by
  unfold Obligations.TenantNumbers
  constructor
  case left =>
    intro s n hpos hsplit
    rw [s.tenantNo_vf_h0 (Nat.ne_of_gt hpos), if_pos hsplit]
  case right =>
    intro s n hpos hrest
    have hlast : s.img.split + n ≤ 255 := by omega
    rw [s.tenantNo_vf_h1 (Nat.ne_of_gt hpos), if_pos hlast]

end Sys2Proof.Machine
end

section
/-! PROOFS. Where a mailbox lies (chapter 03, R137). -/

namespace Sys2Proof.Machine

/-- What BAR0 holds from 0x400000 to below 0x600000, for every function: the active half of a page is 16 mailboxes of 0x80 bytes, the staged half is
no mailbox. -/
theorem State.place_mailboxRange (s : State) (f : Func) {off : Nat} (hlo : 0x400000 ≤ off) (hhi : off < 0x600000) :
    s.place f off = if off % 0x1000 ≥ 0x800 then .reg ⟨.pg, 0, 15, 0, true⟩
      else .mbox ((off - 0x400000) / 0x1000 * 16 + off % 0x1000 / 0x80) (off % 0x1000 % 0x80 / 4) := by
  have hbelow : ∀ b ≤ 0x400000, ¬ off < b := fun b hb => Nat.not_lt.mpr (hb.trans hlo)
  simp [State.place, hbelow, hhi]

/-- In the active half of page `pg` of that range, word `w` of mailbox `k` of the page. -/
theorem State.place_mailboxPage (s : State) (f : Func) {pg k w : Nat} (hpg : pg < 512) (hk : k < 16) (hw : w < 32) :
    s.place f (0x400000 + pg * 0x1000 + k * 0x80 + 4 * w) = .mbox (pg * 16 + k) w := by
  have hin : (0x400000 + pg * 0x1000 + k * 0x80 + 4 * w) % 0x1000 = k * 0x80 + 4 * w := by omega
  have hpage : (0x400000 + pg * 0x1000 + k * 0x80 + 4 * w - 0x400000) / 0x1000 = pg := by omega
  have hbox : (k * 0x80 + 4 * w) / 0x80 = k := by omega
  have hword : (k * 0x80 + 4 * w) % 0x80 / 4 = w := by omega
  rw [s.place_mailboxRange f (by omega) (by omega), hin, hpage, hbox, hword, if_neg (by omega)]

/-- Settles O46: `m` is mailbox `m % 16` of page `m / 16`, and its words end below the middle of that page. -/
theorem mailboxMap : Obligations.MailboxMap := by
  unfold Obligations.MailboxMap
  intro s f m w hm hw
  have hk : m % 16 < 16 := Nat.mod_lt m (by decide)
  constructor
  case left =>
    rw [s.place_mailboxPage f (Nat.div_lt_of_lt_mul hm) hk hw, Nat.div_add_mod' m 16]
  case right =>
    omega

end Sys2Proof.Machine
end

section
/-! PROOFS. The unused offsets of a descriptor ring's control block (chapter 04, R160). -/

namespace Sys2Proof.Machine

/-! ### What BAR0 holds at a descriptor ring -/

/-- The register at control offset `c` of ring `i`, rings numbered through the tenants (R159). -/
def ringLoc (i c : Nat) : Loc := ⟨.rc, i, 0, c, false⟩

/-- What BAR0 holds from 0x8000 to below 0x10000 in the active half of a page, for every function: 32 control blocks of 0x40 bytes. -/
theorem State.place_ringRange (s : State) (f : Func) {off : Nat} (hlo : 0x8000 ≤ off) (hhi : off < 0x10000) (hactive : off % 0x1000 < 0x800) :
    s.place f off = .reg (ringLoc ((s.tenantNo f).getD 0 * 256 + (off - 0x8000) / 0x1000 * 32 + off % 0x1000 / 0x40) (off % 0x1000 % 0x40)) := by
  have hbelow : ∀ b ≤ 0x8000, ¬ off < b := fun b hb => Nat.not_lt.mpr (hb.trans hlo)
  simp [State.place, ringLoc, hbelow, hhi, Nat.not_le.mpr hactive]

/-- Control offset `c` of the function's ring `r` lies in the control block of that ring. -/
theorem State.place_ringControl (s : State) (f : Func) {r c : Nat} (hr : r < 256) (hc : c < 0x40) :
    s.place f (0x8000 + r / 32 * 0x1000 + r % 32 * 0x40 + c) = .reg (ringLoc ((s.tenantNo f).getD 0 * 256 + r) c) := by
  have hin : (0x8000 + r / 32 * 0x1000 + r % 32 * 0x40 + c) % 0x1000 = r % 32 * 0x40 + c := by omega
  have hpage : (0x8000 + r / 32 * 0x1000 + r % 32 * 0x40 + c - 0x8000) / 0x1000 = r / 32 := by omega
  have hblock : (r % 32 * 0x40 + c) / 0x40 = r % 32 := by omega
  have hreg : (r % 32 * 0x40 + c) % 0x40 = c := by omega
  rw [s.place_ringRange f (by omega) (by omega) (by omega), hin, hpage, hblock, hreg, Nat.add_assoc, Nat.div_add_mod' r 32]

/-! ### A register of the rings that has no field -/

/-- No field of the ring block lies at the unused offsets; where a field lies does not depend on the ring, so ring 0 speaks for all. -/
theorem fields_ringLoc_unused (i : Nat) {c : Nat} (hc : c ∈ [0x2C, 0x30, 0x34, 0x38, 0x3C]) : (ringLoc i c).fields = [] := by
  have hnone : ∀ c ∈ [0x2C, 0x30, 0x34, 0x38, 0x3C], (ringLoc 0 c).fields = [] := by decide
  exact hnone c hc

/-- The wide group of the rings is RC_BASE, at 0x4 to 0xC (R107). -/
theorem wideGroupOf_ringLoc (i : Nat) {c : Nat} (hc : 0x10 ≤ c) : wideGroupOf (ringLoc i c) = none := by
  have hpast : ¬ c < 0x10 := Nat.not_lt.mpr hc
  simp [wideGroupOf, wideGroups, ringLoc, hpast]

/-- Registers of the rings are shown to every function that the access filter passes. -/
theorem State.hidden_ringLoc (s : State) (t i c : Nat) : s.hidden t (ringLoc i c) = false := rfl

theorem State.voteRead_of_fields_nil (s : State) {l : Loc} (dword : Nat) (found : List Found) (hl : l.fields = []) :
    s.voteRead l dword found = (s, false) := by
  simp [State.voteRead, hl]

theorem State.slotAt_of_fields_nil (s : State) {l : Loc} (hl : l.fields = []) : s.slotAt l = 0 := by
  simp [State.slotAt, State.wordAt, State.voteLost, hl, b2n]

theorem State.writePlace_of_fields_nil (s : State) (f : Func) (v : Nat) {l : Loc} (hl : l.fields = []) :
    s.writePlace f v (.reg l) = s := by
  simp [State.writePlace, hl]

/-- Above RC_BASE a read of a register of the rings only shows its value. -/
theorem State.readLoc_ringLoc (s : State) (f : Func) (i : Nat) {c : Nat} (hc : 0x10 ≤ c) :
    s.readLoc f (ringLoc i c) = (s, s.slotAt (ringLoc i c)) := by
  have hwide := wideGroupOf_ringLoc i hc
  have hshown := s.hidden_ringLoc (s.tn f) i c
  simp only [ringLoc] at hwide hshown ⊢
  simp [State.readLoc, State.readReg, hwide, hshown]

/-- Of the registers of the rings only RC_CMD has a row of its own for its writes. -/
theorem rowWrite_ringLoc (t : Nat) (f : Func) (v : Nat) (s : State) (i : Nat) {c : Nat} (hc : c ≠ 0x10) :
    rowWrite t f (ringLoc i c) v s = none := by
  simp [rowWrite, ringLoc, hc]

/-! ### Served accesses -/

section

variable {s u : State} {t : Nat} {a : Access}

/-- A served read of one DWORD of BAR0 is the read of that DWORD. -/
theorem exec_wideGroupRead_serves (found : List Found) (hu : u = s.tick t) (hbar : a.bar = 0) (hread : a.write = false) (hone : a.dwords = 1)
    (hserves : u.serves a = true) : exec (.wideGroupRead t a found) s =
      .next ((u.readDword a.f found a.off 0).1.emit (.readDone a.f a.off [(u.readDword a.f found a.off 0).2])) := by
  subst hu
  have harm : exec (.wideGroupRead t a found) s = execWideGroupRead t a found s := rfl
  rw [harm]
  simp [execWideGroupRead, hbar, hread, hone, State.hostReads_serves _ a _ hserves, State.readDwords]

/-- A served write of BAR0 passes the access filter. -/
theorem exec_registerWrite_serves (hu : u = s.tick t) (hbar : a.bar = 0) (hwrite : a.write = true) (hserves : u.serves a = true) :
    exec (.registerWrite t a) s = s.passWrite t a := by
  subst hu
  obtain ⟨hanswers, hquiet, hpasses, -⟩ := ((s.tick t).serves_iff a).1 hserves
  have harm : exec (.registerWrite t a) s = execRegisterWrite t a s := rfl
  rw [harm]
  simp [execRegisterWrite, cfgSpace, hbar, hwrite, hanswers, hquiet, hpasses]

/-- A served write is made in no warm-restart gap. -/
theorem inGap_of_serves_write (hwrite : a.write = true) (hserves : u.serves a = true) : u.inGap = false := by
  obtain ⟨-, -, -, hgap⟩ := (u.serves_iff a).1 hserves
  simpa [hwrite] using hgap

end

/-- Settles O47: the offsets lie in the ring's control block and no field lies at them, so that a read finds nothing to show or to vote on and a
write nothing to change. -/
theorem unusedRingOffsets : Obligations.UnusedRingOffsets := by
  unfold Obligations.UnusedRingOffsets
  have hrange : ∀ c ∈ [0x2C, 0x30, 0x34, 0x38, 0x3C], 0x10 < c ∧ c < 0x40 := by decide
  constructor
  case left =>
    intro s u t a found r c hu hr hc hbar hread hone hoff hserves
    obtain ⟨hlow, hhigh⟩ := hrange c hc
    have hplace := u.place_ringControl a.f hr hhigh
    have hfields := fields_ringLoc_unused ((u.tenantNo a.f).getD 0 * 256 + r) hc
    have hdword : u.readDword a.f found a.off 0 = (u, 0) := by
      simp [State.readDword, hoff, hplace, State.votedRead, u.voteRead_of_fields_nil _ _ hfields, u.readLoc_ringLoc _ _ hlow.le,
        u.slotAt_of_fields_nil hfields]
    rw [exec_wideGroupRead_serves found hu hbar hread hone hserves, hdword]
  case right =>
    intro s u t a r c hu hr hc hbar hwrite hoff hserves
    obtain ⟨hlow, hhigh⟩ := hrange c hc
    have hplace := u.place_ringControl a.f hr hhigh
    rw [← hoff] at hplace
    have hfields := fields_ringLoc_unused ((u.tenantNo a.f).getD 0 * 256 + r) hc
    have hgap := inGap_of_serves_write hwrite hserves
    rw [exec_registerWrite_serves hu hbar hwrite hserves]
    subst hu
    simp [State.passWrite, hplace, rowWrite_ringLoc _ _ _ _ _ hlow.ne', hgap, State.writePlace_of_fields_nil _ _ _ hfields]

end Sys2Proof.Machine
end

section
/-! PROOFS. A response that no request waits for (chapter 11, R538). -/

namespace Sys2Proof.Machine

/-! ### Counters and event bits in the register store -/

theorem State.regsBut_addA (u v : State) (ks : List Nat) (f : Fld) (i j n : Nat) (h : u.regsBut v ks) (hk : f.key i j ∈ ks) :
    u.regsBut (v.addA f i j n) ks := u.regsBut_wrA v ks f i j _ h hk

theorem State.regsBut_evtA (u v : State) (ks : List Nat) (f : Fld) (i j n : Nat) (h : u.regsBut v ks) (hk : f.key i j ∈ ks) :
    u.regsBut (v.evtA f i j n) ks := u.regsBut_wrA v ks f i j _ h hk

/-- A counter that a host clears stays at the largest value of its width (R106). -/
theorem State.rdA_addA_saturates (s : State) {f : Fld} (hf : f.acc ≠ .ro) (i j n : Nat) :
    (s.addA f i j n).rdA f i j = min (s.rdA f i j + n) (2 ^ f.w - 1) := by
  have hfits : satTo f.w (s.rdA f i j + n) < 2 ^ f.w :=
    (Nat.min_le_right _ _).trans_lt (Nat.sub_one_lt_of_lt (Nat.two_pow_pos f.w))
  simp only [State.addA, if_neg hf, State.note_rdA, State.rdA_wrA_same, Nat.mod_eq_of_lt hfits]
  rfl

theorem State.rdA_evtA_other (s : State) {f g : Fld} (i j n : Nat) (h : g.key 0 0 ≠ f.key 0 0) :
    (s.evtA f i j n).rdA g i j = s.rdA g i j := s.rdA_wrA_other f g i j _ h

/-! ### A response whose TAG names no context -/

/-- What a late response leaves: the count one higher and the event bit set (R538, R571). -/
def State.lateRsp (s : State) : State := (s.bump RG_LATE_RSP_COUNT 0).evt RG_EVT_EVT 0 10

section

variable {s : State}

theorem State.findCtx_eq_none {tag : Nat} (h : ∀ x ∈ s.ring_.ctx, x.tag ≠ tag) : s.ring_.ctx.find? (fun x => x.tag == tag) = none := by
  simpa using h

/-- Without a context there is no request to time out. -/
theorem State.timeoutDue_of_no_ctx {tag : Nat} (h : ∀ x ∈ s.ring_.ctx, x.tag ≠ tag) : s.timeoutDue tag = s := by
  simp only [State.timeoutDue, State.findCtx_eq_none h]

theorem State.takeRsp_of_no_ctx {c : Cell} (h : ∀ x ∈ s.ring_.ctx, x.tag ≠ c.tag) : s.takeRsp c = s.lateRsp := by
  simp only [State.takeRsp, State.timeoutDue_of_no_ctx h, State.findCtx_eq_none h, State.lateRsp]

/-- A response to this node on the forward traffic is taken here (R515). -/
theorem State.rspIn_here {port : Nat} {c : Cell} (hforward : s.isForward port = true) (hdst : c.dst = s.node) :
    s.rspIn port c = s.takeRsp c := by
  simp [State.rspIn, hforward, hdst]

/-- An accepted response cell is disposed of in the state that its acceptance leaves. -/
theorem exec_rsp_accepted {w : State} {t port : Nat} {c : Cell} (htyp : c.typ = 2) (haccept : (s.tick t).accept port c = (w, true)) :
    exec (.rsp t port c) s = .next (w.rspIn port c) := by
  have harm : exec (.rsp t port c) s = execRsp t port c s := rfl
  simp [harm, execRsp, htyp, haccept]

end

theorem State.rd_lateRsp_count (s : State) :
    s.lateRsp.rd RG_LATE_RSP_COUNT 0 = min (s.rd RG_LATE_RSP_COUNT 0 + 1) (2 ^ 24 - 1) :=
  calc s.lateRsp.rd RG_LATE_RSP_COUNT 0
      = (s.bump RG_LATE_RSP_COUNT 0).rd RG_LATE_RSP_COUNT 0 := State.rdA_evtA_other _ 0 0 10 (by decide)
    _ = min (s.rd RG_LATE_RSP_COUNT 0 + 1) (2 ^ 24 - 1) := s.rdA_addA_saturates (by decide) 0 0 1

theorem State.lateRsp_frame (s : State) : s.lateRsp = { s with regs := s.lateRsp.regs, inst_ := s.lateRsp.inst_ } := rfl

theorem State.regsBut_lateRsp (s : State) : s.regsBut s.lateRsp [RG_LATE_RSP_COUNT.key 0 0, RG_EVT_EVT.key 0 0] :=
  have hcount := s.regsBut_addA s _ RG_LATE_RSP_COUNT 0 0 1 (s.regsBut_refl _) (List.mem_cons_self ..)
  s.regsBut_evtA _ _ RG_EVT_EVT 0 0 10 hcount (List.mem_cons_of_mem _ (List.mem_singleton_self _))

/-- Settles O49: the accepted cell reaches the node that it is for, where no context bears its TAG, so that neither a timeout nor a completion acts
and only the late response is told. -/
theorem lateResponse : Obligations.LateResponse := by
  unfold Obligations.LateResponse
  intro s u w t port c hu htyp haccept hforward hdst hnone _
  subst hu
  have hexec : exec (.rsp t port c) s = .next w.lateRsp := by
    rw [exec_rsp_accepted htyp haccept, State.rspIn_here hforward hdst, State.takeRsp_of_no_ctx hnone]
  exact ⟨w.lateRsp, hexec, w.rd_lateRsp_count, w.lateRsp_frame, w.regsBut_lateRsp⟩

end Sys2Proof.Machine
end

section
/-! PROOFS. A read of FC_REC0 while no fault record waits (chapter 15, R689). -/

namespace Sys2Proof.Machine

/-! ### The parts of wide groups that a function holds (R107) -/

/-- A part is the function's and lies under the key: the test by which parts are found and replaced. -/
def FnPart.isAt (p : FnPart) (f : Func) (key : Nat) : Bool := p.link == f.link && p.fn == f.fn && p.key == key

theorem partOf_eq (ps : List FnPart) (f : Func) (key : Nat) : partOf ps f key = (ps.find? (·.isAt f key)).map (·.val) := rfl

theorem putPart_eq (ps : List FnPart) (f : Func) (key v : Nat) :
    putPart ps f key v = (ps.filter fun p => !p.isAt f key) ++ [⟨f.link, f.fn, key, v⟩] := rfl

@[simp] theorem FnPart.isAt_own (f : Func) (key k v : Nat) : FnPart.isAt ⟨f.link, f.fn, key, v⟩ f k = (key == k) := by
  simp [FnPart.isAt]

theorem FnPart.not_isAt_of_isAt {p : FnPart} {f : Func} {key k : Nat} (h : k ≠ key) (hp : p.isAt f k = true) : p.isAt f key = false := by
  simp only [FnPart.isAt, Bool.and_eq_true, beq_iff_eq] at hp
  obtain ⟨-, hkey⟩ := hp
  simp [FnPart.isAt, hkey, h]

theorem partOf_putPart_same (ps : List FnPart) (f : Func) (key v : Nat) : partOf (putPart ps f key v) f key = some v := by
  have hgone : (ps.filter fun p => !p.isAt f key).find? (·.isAt f key) = none :=
    List.find?_eq_none.mpr fun p hp => by simpa using (List.mem_filter.mp hp).2
  simp only [partOf_eq, putPart_eq, List.find?_append, hgone]
  simp

theorem partOf_putPart_other (ps : List FnPart) (f : Func) {key k : Nat} (v : Nat) (h : k ≠ key) :
    partOf (putPart ps f key v) f k = partOf ps f k := by
  have hkept : (ps.filter fun p => !p.isAt f key).find? (·.isAt f k) = ps.find? (·.isAt f k) := by
    rw [List.find?_filter]
    refine List.find?_congr fun p _ => ?_
    cases hp : p.isAt f k with
    | true => simp [FnPart.not_isAt_of_isAt h hp]
    | false => simp
  simp only [partOf_eq, putPart_eq, List.find?_append, hkept]
  simp [h.symm]

/-- Where one value is put under several keys, each of them holds it, whatever was held before. -/
theorem partOf_foldl_putPart {ι : Type} (ps : List FnPart) (f : Func) (key : ι → Nat) (v : Nat) {is : List ι} {i : ι} (hi : i ∈ is) :
    partOf (is.foldl (fun ps i => putPart ps f (key i) v) ps) f (key i) = some v := by
  induction is using List.reverseRecOn with
  | nil => simp at hi
  | append_singleton xs x ih =>
    rw [List.foldl_append, List.foldl_cons, List.foldl_nil]
    by_cases hkey : key i = key x
    · rw [hkey, partOf_putPart_same]
    · have hin : i ∈ xs := (List.mem_append.mp hi).resolve_right fun hx => hkey (congrArg key (List.mem_singleton.mp hx))
      rw [partOf_putPart_other _ _ _ hkey, ih hin]

/-! ### The fault record's registers -/

/-- The register FC_REC1 + i: a higher register of the wide group of FC_REC0. -/
def faultWordLoc (i : Nat) : Loc := ⟨.fc, 0, 0, 8 + 4 * i, false⟩

/-- What BAR0 holds from 0x20000 to below 0x30000, for every function: the pages of the fault collector. -/
theorem State.place_faultRange (s : State) (f : Func) {off : Nat} (hlo : 0x20000 ≤ off) (hhi : off < 0x30000) :
    s.place f off = pageLoc .fc 0 ((off - 0x20000) / 0x1000) (off % 0x1000) := by
  have hbelow : ∀ b ≤ 0x20000, ¬ off < b := fun b hb => Nat.not_lt.mpr (hb.trans hlo)
  simp [State.place, hbelow, hhi]

/-- FC_REC1 + i lies in the active half of page 0 of that range. -/
theorem State.place_faultWord (s : State) (f : Func) {i : Nat} (hi : i < 6) : s.place f (0x20008 + 4 * i) = .reg (faultWordLoc i) := by
  have hpage : (0x20008 + 4 * i - 0x20000) / 0x1000 = 0 := by omega
  have hin : (0x20008 + 4 * i) % 0x1000 = 8 + 4 * i := by omega
  have hhalf : (8 + 4 * i) % 0x800 = 8 + 4 * i := by omega
  have hactive : ¬ 0x800 ≤ 8 + 4 * i := by omega
  rw [s.place_faultRange f (by omega) (by omega), hpage, hin]
  simp [pageLoc, hasRwb, aliasStride, faultWordLoc, hhalf, hactive]

theorem wideGroupOf_faultWordLoc {i : Nat} (hi : i < 6) : wideGroupOf (faultWordLoc i) = some (4, 7) := by
  have hin : 4 ≤ 8 + 4 * i ∧ 8 + 4 * i < 32 := by omega
  simp [wideGroupOf, wideGroups, faultWordLoc, hin]

/-- FC_REC1 to FC_REC6 read as what the function has latched. -/
theorem State.readReg_faultWordLoc (s : State) (f : Func) {i w : Nat} (hi : i < 6) (hheld : partOf s.host.snaps f (faultWordLoc i).key = some w) :
    s.readReg f (faultWordLoc i) = w := by
  have hwide := wideGroupOf_faultWordLoc hi
  have hshown : s.hidden (s.tn f) (faultWordLoc i) = false := rfl
  have hhigher : (faultWordLoc i).off ≠ 4 := by simp only [faultWordLoc]; omega
  have hblk : (faultWordLoc i).blk = .fc := rfl
  have hactive : (faultWordLoc i).staged = false := rfl
  simp [State.readReg, hwide, hshown, hheld, hhigher, hblk, hactive]

/-! ### The read of an empty FIFO -/

theorem State.rdA_evtA_oneBit (s : State) {f : Fld} (hw : f.w = 1) (i j : Nat) : (s.evtA f i j 0).rdA f i j = 1 := by
  simp [State.evtA, hw, setBitAt]

/-- What a read of FC_REC0 leaves while no record waits: UNDER set, and zeros latched for the function. -/
def State.underRead (s : State) (f : Func) : State :=
  { s.evt FC_FSTAT_UNDER 0 0 with
    host := { s.host with snaps := (List.range 6).foldl (fun ps i => putPart ps f (faultWordLoc i).key 0) s.host.snaps } }

theorem State.popRec_of_fifo_nil {s : State} (f : Func) (h : s.fc.fifo = []) : s.popRec f = (s.underRead f, 0) := by
  simp only [State.popRec, h, topRec]
  rfl

theorem State.rd_underRead_under (s : State) (f : Func) : (s.underRead f).rd FC_FSTAT_UNDER 0 = 1 :=
  s.rdA_evtA_oneBit rfl 0 0

theorem State.regsBut_underRead (s : State) (f : Func) : s.regsBut (s.underRead f) [FC_FSTAT_UNDER.key 0 0] :=
  s.regsBut_evtA s _ FC_FSTAT_UNDER 0 0 0 (s.regsBut_refl _) (List.mem_singleton_self _)

theorem State.partOf_underRead (s : State) (f : Func) {i : Nat} (hi : i < 6) :
    partOf (s.underRead f).host.snaps f (faultWordLoc i).key = some 0 :=
  partOf_foldl_putPart _ f (fun i => (faultWordLoc i).key) 0 (List.mem_range.mpr hi)

theorem exec_fcRec0_empty {s : State} {t : Nat} {f : Func} (htakes : (s.tick t).takesRead f 0x20004 = true) (hempty : (s.tick t).fc.fifo = []) :
    exec (.fcRec0 t f) s = .next (((s.tick t).underRead f).emit (.readDone f 0x20004 [0])) := by
  have harm : exec (.fcRec0 t f) s = execFcRec0 t f s := rfl
  rw [harm, execFcRec0, State.hostRead_takes _ _ _ _ htakes, State.popRec_of_fifo_nil f hempty]

/-- Settles O48: the read finds nothing to pop, sets UNDER and latches a zero for each of FC_REC1 to FC_REC6, which is what these registers then show;
the answer is emitted and disturbs neither. -/
theorem faultReadEmpty : Obligations.FaultReadEmpty := by
  unfold Obligations.FaultReadEmpty
  intro s u t f hu htakes hempty
  subst hu
  refine ⟨_, exec_fcRec0_empty htakes hempty, rfl, State.rd_underRead_under _ f, hempty, fun i hi => ?_, State.regsBut_underRead _ f, rfl⟩
  exact ⟨State.place_faultWord _ f hi, State.readReg_faultWordLoc _ f hi (State.partOf_underRead (s.tick t) f hi)⟩

end Sys2Proof.Machine
end

section
/-! PROOFS. What every step keeps: the queue's order, the clock, the OTP, the interval count and the order of the register store (chapters 01, 03,
09, 17), and that every command answers. -/

namespace Sys2Proof.Machine

variable {P : State → Prop}

/-! ### What survives time, and what survives resets as well -/

/-- A stable predicate that the passing of time keeps. -/
structure Lasting (P : State → Prop) : Prop extends Stable P where
  tick : ∀ (s : State) (t : Nat), P s → P (s.tick t)

/-- A lasting predicate that a device reset, the setting of the interval count at a boot and a write of the OTP keep as well. -/
structure Enduring (P : State → Prop) : Prop extends Lasting P where
  reset : ∀ s v : State, P s → v.pending = s.pending → v.now = s.now → v.regs = [] → v.cu.otp = s.otpAtReset → P v
  boot : ∀ (s : State) (n : Nat), P s → P { s with time := { s.time with ivl := n } }
  otp : ∀ (s : State) (w : OtpWrite), P s → P { s with cu := { s.cu with otp := s.cu.otp.write w } }

theorem Enduring.resetDevice (hP : Enduring P) (s : State) (cause resets : Nat) (keep pin : Bool) (hs : P s) :
    P (s.resetDevice cause resets keep pin) :=
  State.resetDevice_keeps hP.toStable s cause resets keep pin fun v hpending hnow hregs _ hotp => hP.reset s v hs hpending hnow hregs hotp

/-- Every command answers, with a state that has what endures. -/
theorem exec_endures (hP : Enduring P) (c : Instr) (s : State) (hs : P s) : NextKeeps P (exec c s) := by
  cases hc : c.special with
  | false => exact exec_keeps hP.toStable c s hc (hP.tick s _ hs)
  | true =>
    cases c with
    | powerOn t => exact next_keeps (hP.resetDevice _ _ _ _ _ (hP.tick s t hs))
    | brownOut t low => exact next_keeps (hP.resetDevice _ _ _ _ _ (hP.tick s t hs))
    | resetN t => exact next_keeps (hP.resetDevice _ _ _ _ _ (hP.tick s t hs))
    | commandReset t =>
      refine next_keeps ?_
      split
      · exact ite_keeps (hP.resetDevice _ _ _ _ _ (hP.tick s t hs)) (hP.tick s t hs)
      · exact hP.tick s t hs
    | boot t start count nvm1 nvm2 =>
      exact execBoot_keeps hP.toStable t start count nvm1 nvm2 s (hP.tick s t hs) fun v hv n => hP.boot v n hv
    | otpWriteDone t => exact execOtpWriteDone_keeps hP.toStable t s (hP.tick s t hs) fun v hv w => hP.otp v w hv
    | _ => simp [Instr.special] at hc

/-- What holds of the state without the command taken is kept by a step, where the command keeps it: an idle block only changes its host links. -/
theorem step_keeps (hP : Stable P) {s v : State} (hs : P { s with pending := s.pending.tail })
    (hexec : ∀ c ∈ s.pending.head?, ∀ u, P u → NextKeeps P (exec c u)) (hstep : step s = .next v) : P v := by
  unfold step at hstep
  split at hstep
  case h_1 hempty =>
    cases hstep
    have hpending : s.idle.pending = s.pending.tail := by rw [hempty]; exact hempty
    exact hP.frame { s with pending := s.pending.tail } s.idle hpending rfl rfl rfl rfl hs
  case h_2 c rest hpending =>
    rw [hpending] at hs hexec
    exact (hexec c rfl _ hs).keeps v hstep

/-! ### The enduring predicates -/

/-- The queue is `q` and the clock stands at `n` or later. -/
theorem enduring_queueClock (q : List Instr) (n : Nat) : Enduring fun s => s.pending = q ∧ n ≤ s.now where
  regs _ _ _ _ _ h := h
  sub _ _ _ h := h
  frame _ _ hpending hnow _ _ _ h := ⟨hpending.trans h.1, h.2.trans_eq hnow.symm⟩
  tick _ _ h := ⟨h.1, h.2.trans (Nat.le_max_left _ _)⟩
  reset _ _ h hpending hnow _ _ := ⟨hpending.trans h.1, h.2.trans_eq hnow.symm⟩
  boot _ _ h := h
  otp _ _ h := h

/-- The OTP `o` has at least what is programmed in `x`. -/
def Otp.Extends (o x : Otp) : Prop := x.roll ≤ o.roll ∧ ∀ k, x.owner = some k → o.owner = some k

theorem Otp.extends_write {o x : Otp} (h : o.Extends x) (w : OtpWrite) : (o.write w).Extends x := by
  obtain ⟨hroll, howner⟩ := h
  cases w with
  | roll v => exact ⟨hroll.trans (Nat.le_max_left _ _), howner⟩
  | enroll anchor key =>
    simp only [Otp.write]
    split
    case isTrue => exact ⟨hroll, howner⟩
    case isFalse hblank => exact ⟨hroll, fun k hk => absurd (by rw [howner k hk]; rfl) hblank⟩

/-- A reset leaves the OTP as it is or completes the write in progress (R777). -/
theorem State.otpAtReset_extends {s : State} {x : Otp} (h : s.cu.otp.Extends x) : s.otpAtReset.Extends x := by
  unfold State.otpAtReset
  split
  · split
    · exact Otp.extends_write h _
    · exact h
  · exact h

theorem enduring_otp (x : Otp) : Enduring fun s => s.cu.otp.Extends x where
  regs _ _ _ _ _ h := h
  sub _ _ _ h := h
  frame _ _ _ _ _ _ hotp h := hotp ▸ h
  tick _ _ h := h
  reset _ _ h _ _ _ hotp := hotp ▸ State.otpAtReset_extends h
  boot _ _ h := h
  otp _ w h := Otp.extends_write h w

theorem enduring_regsCanonical : Enduring State.regsCanonical where
  toStable := stable_regsCanonical
  tick _ _ h := h
  reset _ _ _ _ _ hregs _ := by unfold State.regsCanonical; rw [hregs]; exact List.Pairwise.nil
  boot _ _ h := h
  otp _ _ h := h

theorem enduring_true : Enduring fun _ => True where
  regs _ _ _ _ _ h := h
  sub _ _ _ h := h
  frame _ _ _ _ _ _ _ h := h
  tick _ _ h := h
  reset _ _ h _ _ _ _ := h
  boot _ _ h := h
  otp _ _ h := h

/-- Time only adds to the interval count (R429). -/
theorem lasting_ivl (n : Nat) : Lasting fun s => n ≤ s.time.ivl where
  regs _ _ _ _ _ h := h
  sub _ _ _ h := h
  frame _ _ _ _ _ hivl _ h := h.trans_eq hivl.symm
  tick _ _ h := h.trans (Nat.le_add_right _ _)

/-! ### The statements -/

/-- Settles O54: the rest of the queue and a bound below the clock endure. -/
theorem stepKeepsQueueAndClock : Obligations.StepKeepsQueueAndClock := by
  unfold Obligations.StepKeepsQueueAndClock
  intro s v hstep
  have hP := enduring_queueClock s.pending.tail s.now
  exact step_keeps hP.toStable ⟨rfl, Nat.le_refl _⟩ (fun c _ u hu => exec_endures hP c u hu) hstep

/-- Settles O55: what the OTP has programmed endures, a reset included. -/
theorem otpOnlyRises : Obligations.OtpOnlyRises := by
  unfold Obligations.OtpOnlyRises
  intro s v hstep
  have hP := enduring_otp s.cu.otp
  exact step_keeps hP.toStable ⟨Nat.le_refl _, fun _ h => h⟩ (fun c _ u hu => exec_endures hP c u hu) hstep

/-- Settles O56: a bound below the interval count lasts, since time only adds to it. -/
theorem intervalNeverFalls : Obligations.IntervalNeverFalls := by
  unfold Obligations.IntervalNeverFalls
  intro s v hcommand hstep
  have hP := lasting_ivl s.time.ivl
  exact step_keeps hP.toStable (Nat.le_refl _) (fun c hc u hu => exec_keeps hP.toStable c u (hcommand c hc) (hP.tick u _ hu)) hstep

/-- Settles O57: the canonical form endures. -/
theorem registersStayCanonical : Obligations.RegistersStayCanonical := by
  unfold Obligations.RegistersStayCanonical
  intro s v hs hstep
  exact step_keeps stable_regsCanonical hs (fun c _ u hu => exec_endures enduring_regsCanonical c u hu) hstep

/-- Settles O58: a command that keeps what endures answers. -/
theorem everyCommandAnswers : Obligations.EveryCommandAnswers := by
  unfold Obligations.EveryCommandAnswers
  intro c s
  obtain ⟨v, hv, -⟩ := (exec_endures enduring_true c s trivial).next
  exact ⟨v, hv⟩

end Sys2Proof.Machine
end

section
/-! PROOFS. What a host write of a field does, by its access code; how counters advance; the vote (chapter 03). -/

namespace Sys2Proof.Machine

/-! ### Bits of numbers -/

theorem testBit_clearMask (v m k : Nat) : (clearMask v m).testBit k = (v.testBit k && !m.testBit k) := by
  have hle : v &&& m ≤ v := Nat.and_le_left
  have hlow : (v &&& m) % 2 = 1 ↔ v % 2 = 1 ∧ m % 2 = 1 := Nat.and_mod_two_eq_one
  unfold clearMask
  induction k generalizing v m with
  | zero =>
    simp only [Nat.testBit_zero, ← decide_not, ← Bool.decide_and]
    exact decide_eq_decide.mpr (by omega)
  | succ k ih =>
    have hhigh : (v &&& m) / 2 = v / 2 &&& m / 2 := Nat.and_div_two
    have hdiv : (v - (v &&& m)) / 2 = v / 2 - (v / 2 &&& m / 2) := by omega
    rw [Nat.testBit_succ, Nat.testBit_succ, Nat.testBit_succ, hdiv]
    exact ih _ _ Nat.and_le_left Nat.and_mod_two_eq_one

theorem clearMask_lt {v n : Nat} (m : Nat) (h : v < n) : clearMask v m < n := (Nat.sub_le _ _).trans_lt h

/-! ### Fields -/

section

variable (s : State)

theorem State.rdA_wrA_of_lt {f : Fld} (i j : Nat) {v : Nat} (h : v < 2 ^ f.w) : (s.wrA f i j v).rdA f i j = v := by
  rw [State.rdA_wrA_same, Nat.mod_eq_of_lt h]

@[simp] theorem State.rewritten_rdA (k : Nat) (staged : Bool) (f : Fld) (i j : Nat) : (s.rewritten k staged).rdA f i j = s.rdA f i j := by
  unfold State.rewritten; split <;> rfl

@[simp] theorem State.rewritten_regs (k : Nat) (staged : Bool) : (s.rewritten k staged).regs = s.regs := by
  unfold State.rewritten; split <;> rfl

@[simp] theorem State.rewritten_staged (k : Nat) (staged : Bool) : (s.rewritten k staged).staged = s.staged := by
  unfold State.rewritten; split <;> rfl

/-- The staged copy takes the value, and the active copy keeps its own (R123, R127). -/
theorem State.stagedVal_stage (f : Fld) (i j : Nat) {v : Nat} (h : v < 2 ^ f.w) : (s.stage f i j v).stagedVal f i j = v := by
  have hstaged : (s.stage f i j v).staged = tput s.staged (f.key i j) (v % 2 ^ f.w) := by
    simp [State.stage, State.put, State.wr, State.noteWrite]
  rw [State.stagedVal, hstaged, tget_tput_same, Nat.mod_eq_of_lt h]

theorem State.stage_regs (f : Fld) (i j v : Nat) :
    (s.stage f i j v).regs = (s.put PG_STAT_PEND (f.blk.code * 1024 + i) true).regs := by
  simp [State.stage, State.put, State.wr, State.wrA, State.noteWrite]

theorem State.rdA_stage (f g : Fld) (i j v a b : Nat) (h : g.key a b ≠ PG_STAT_PEND.key (f.blk.code * 1024 + i) 0) :
    (s.stage f i j v).rdA g a b = s.rdA g a b := by
  rw [State.rdA, State.stage_regs]
  exact s.rdA_wrA_key _ _ _ _ _ _ _ h

theorem State.rd_stage_pend (f : Fld) (i j v : Nat) : (s.stage f i j v).rd PG_STAT_PEND (f.blk.code * 1024 + i) = 1 := by
  rw [State.rd, State.rdA, State.stage_regs]
  exact s.rd_wr_same _ _ _

theorem State.regsBut_stage (f : Fld) (i j v : Nat) (ks : List Nat) (h : PG_STAT_PEND.key (f.blk.code * 1024 + i) 0 ∈ ks) :
    s.regsBut (s.stage f i j v) ks := by
  intro k hk d
  rw [State.stage_regs]
  exact s.regsBut_wr s ks _ _ _ (s.regsBut_refl ks) h k hk d

end

/-! ### A write that reaches a whole field -/

section

variable (s : State) {f : Fld} (i j : Nat) {x : Nat}

/-- What such a write makes of a value that has the field's width. -/
theorem mixed_whole {old w : Nat} (hold : old < 2 ^ w) (hx : x < 2 ^ w) : (old - (old &&& (2 ^ w - 1))) + (x &&& (2 ^ w - 1)) = x := by
  rw [Nat.and_two_pow_sub_one_of_lt_two_pow hold, Nat.and_two_pow_sub_one_of_lt_two_pow hx, Nat.sub_self, Nat.zero_add]

theorem ones_ne_zero {w : Nat} (hw : 0 < w) : 2 ^ w - 1 ≠ 0 := by
  have := Nat.one_lt_two_pow hw.ne'
  omega

theorem State.writeField_rw (hacc : f.acc = .rw) (hw : 0 < f.w) (hold : s.rdA f i j < 2 ^ f.w) (hx : x < 2 ^ f.w) :
    s.writeField f i j x (2 ^ f.w - 1) = if accepts f x = true then s.wrA f i j x else s := by
  simp only [State.writeField, if_neg (ones_ne_zero hw), hacc, mixed_whole hold hx]

theorem State.writeField_w1c (hacc : f.acc = .w1c) (hw : 0 < f.w) (hx : x < 2 ^ f.w) :
    s.writeField f i j x (2 ^ f.w - 1) = s.wrA f i j (s.cleared f i j x) := by
  simp only [State.writeField, if_neg (ones_ne_zero hw), hacc, Nat.and_two_pow_sub_one_of_lt_two_pow hx]

theorem State.writeField_w1s (hacc : f.acc = .w1s) (hw : 0 < f.w) (hx : x < 2 ^ f.w) :
    s.writeField f i j x (2 ^ f.w - 1) = s.wrA f i j (s.rdA f i j ||| x) := by
  simp only [State.writeField, if_neg (ones_ne_zero hw), hacc, Nat.and_two_pow_sub_one_of_lt_two_pow hx]

theorem State.writeField_none (hacc : f.acc = .ro ∨ f.acc = .rwi ∨ f.acc = .wo) (m : Nat) : s.writeField f i j x m = s := by
  unfold State.writeField
  rcases hacc with h | h | h <;> simp [h]

theorem State.writeField_rwb_staged {y : Nat} (hacc : f.acc = .rwb) (hw : 0 < f.w) (hold : s.stagedVal f i j < 2 ^ f.w) (hx : x < 2 ^ f.w)
    (hy : s.stageable f i (s.stagedVal f i j) x (2 ^ f.w - 1) = some y) : s.writeField f i j x (2 ^ f.w - 1) = s.stage f i j y := by
  simp only [State.writeField, if_neg (ones_ne_zero hw), hacc, mixed_whole hold hx, hy]

theorem State.writeField_rwb_ignored (hacc : f.acc = .rwb) (hw : 0 < f.w) (hold : s.stagedVal f i j < 2 ^ f.w) (hx : x < 2 ^ f.w)
    (hnone : s.stageable f i (s.stagedVal f i j) x (2 ^ f.w - 1) = none) : s.writeField f i j x (2 ^ f.w - 1) = s := by
  simp only [State.writeField, if_neg (ones_ne_zero hw), hacc, mixed_whole hold hx, hnone]

/-- No write touches another field but PEND of the same block (R130). -/
theorem State.regsBut_writeField (f : Fld) (x m : Nat) :
    s.regsBut (s.writeField f i j x m) [f.key i j, PG_STAT_PEND.key (f.blk.code * 1024 + i) 0] := by
  have hkept := s.regsBut_refl [f.key i j, PG_STAT_PEND.key (f.blk.code * 1024 + i) 0]
  have hwritten : ∀ v, s.regsBut (s.wrA f i j v) [f.key i j, PG_STAT_PEND.key (f.blk.code * 1024 + i) 0] :=
    fun v => s.regsBut_wrA s _ f i j v hkept (List.mem_cons_self ..)
  simp only [State.writeField]
  split
  · exact hkept
  · split
    case h_1 => split; exacts [hwritten _, hkept]
    case h_2 => exact hwritten _
    case h_3 => exact hwritten _
    case h_4 =>
      split
      · exact s.regsBut_stage f i j _ _ (List.mem_cons_of_mem _ (List.mem_singleton_self _))
      · exact hkept
    case h_5 => exact hkept

theorem State.cleared_not_updated (f : Fld) (m : Nat) (h : s.instant.upd.find? (fun u => u.key == f.key i j) = none) :
    s.cleared f i j m = clearMask (s.rdA f i j) m := by
  simp only [State.cleared, h]

theorem State.cleared_bits_set (f : Fld) (m n : Nat) (h : s.instant.upd.find? (fun u => u.key == f.key i j) = some ⟨f.key i j, .bits, n⟩) :
    s.cleared f i j m = clearMask (s.rdA f i j) m ||| (s.rdA f i j &&& n) := by
  simp only [State.cleared, h]

end

/-- Settles O50: each access code's write is what `writeField` makes of the whole field, read back bit by bit. -/
theorem writeByAccessCode : Obligations.WriteByAccessCode := by
  unfold Obligations.WriteByAccessCode
  refine ⟨fun s f i j x => by simp [State.writeField], fun s f i j x hw hold hx => ⟨?rw, ?reserved, ?w1c, ?updated, ?w1s, ?kept, ?rwb, ?frame⟩⟩
  case rw =>
    intro hacc htakes
    rw [s.writeField_rw i j hacc hw hold hx, if_pos htakes, s.rdA_wrA_of_lt i j hx]
  case reserved =>
    intro hacc hreserved
    rw [s.writeField_rw i j hacc hw hold hx, hreserved]
    rfl
  case w1c =>
    intro hacc hnone k
    rw [s.writeField_w1c i j hacc hw hx, s.cleared_not_updated i j f x hnone, s.rdA_wrA_of_lt i j (clearMask_lt x hold), testBit_clearMask]
  case updated =>
    intro hacc n hset k
    have hfits : clearMask (s.rdA f i j) x ||| (s.rdA f i j &&& n) < 2 ^ f.w :=
      Nat.or_lt_two_pow (clearMask_lt x hold) (Nat.and_le_left.trans_lt hold)
    rw [s.writeField_w1c i j hacc hw hx, s.cleared_bits_set i j f x n hset, s.rdA_wrA_of_lt i j hfits, Nat.testBit_or, Nat.testBit_and,
      testBit_clearMask, Bool.and_or_distrib_left]
  case w1s =>
    intro hacc k
    rw [s.writeField_w1s i j hacc hw hx, s.rdA_wrA_of_lt i j (Nat.or_lt_two_pow hold hx), Nat.testBit_or]
  case kept => exact fun hacc => s.writeField_none i j hacc _
  case rwb =>
    intro hacc hkey hstaged
    constructor
    · cases hy : s.stageable f i (s.stagedVal f i j) x (2 ^ f.w - 1) with
      | none => rw [s.writeField_rwb_ignored i j hacc hw hstaged hx hy]
      | some y => rw [s.writeField_rwb_staged i j hacc hw hstaged hx hy, s.rdA_stage f f i j _ i j hkey]
    · intro y hy hfits
      rw [s.writeField_rwb_staged i j hacc hw hstaged hx hy]
      exact ⟨s.stagedVal_stage f i j hfits, s.rd_stage_pend f i j y⟩
  case frame => exact s.regsBut_writeField i j f x _

/-- Settles O51: a counter that a host clears saturates, one that it cannot write is cut to its width. -/
theorem countersSaturate : Obligations.CountersSaturate := by
  unfold Obligations.CountersSaturate
  refine fun s f i j n => ⟨fun hacc => s.rdA_addA_saturates hacc i j n, fun hacc => ?wraps, ?frame⟩
  case wraps => simp only [State.addA, if_pos hacc, State.note_rdA, State.rdA_wrA_same]
  case frame => exact s.regsBut_addA s _ f i j n (s.regsBut_refl _) (List.mem_singleton_self _)

/-! ### The vote -/

/-- Settles O52: by cases on which two copies the vote compares. -/
theorem voteIsMajority : Obligations.VoteIsMajority := by
  unfold Obligations.VoteIsMajority
  constructor
  case left =>
    intro c v
    unfold copiesMajority
    split_ifs <;> grind
  case right =>
    intro c
    unfold copiesMajority
    split_ifs <;> grind

end Sys2Proof.Machine
end

section
/-! PROOFS. What a link, a function or a queue reads as after a change of it or of another; the state after reset, the idle block, tenant numbers, and where a new
entry stands in a queue (chapters 01, 02, 06, 18). -/

namespace Sys2Proof.Machine

/-! ### Links, functions and queues after a change -/

section

variable (s : State)

@[simp] theorem State.link_setLink_same (k : Nat) (g : LinkSt → LinkSt) : (s.setLink k g).link k = g (s.link k) := tget_tupd_same _ _ _ _

theorem State.link_setLink_other {k n : Nat} (g : LinkSt → LinkSt) (h : n ≠ k) : (s.setLink k g).link n = s.link n :=
  tget_tupd_other _ _ _ _ _ _ h

@[simp] theorem State.func_setFunc_same (f : Func) (g : FnSt → FnSt) : (s.setFunc f g).func f = g (s.func f) := tget_tupd_same _ _ _ _

theorem State.func_setFunc_other {f h : Func} (g : FnSt → FnSt) (hne : fkey h ≠ fkey f) : (s.setFunc f g).func h = s.func h :=
  tget_tupd_other _ _ _ _ _ _ hne

@[simp] theorem State.queue_setQueue_same (p : Nat) (g : PqSt → PqSt) : (s.setQueue p g).queue p = g (s.queue p) := tget_tupd_same _ _ _ _

theorem State.queue_setQueue_other {p q : Nat} (g : PqSt → PqSt) (h : q ≠ p) : (s.setQueue p g).queue q = s.queue q :=
  tget_tupd_other _ _ _ _ _ _ h

@[simp] theorem State.addA_queue (f : Fld) (i j n p : Nat) : (s.addA f i j n).queue p = s.queue p := rfl

end

/-! ### A step -/

theorem step_cons {s : State} {c : Instr} {rest : List Instr} (h : s.pending = c :: rest) : step s = exec c { s with pending := rest } := by
  simp only [step, h]

theorem step_nil {s : State} (h : s.pending = []) : step s = .next s.idle := by
  simp only [step, h]

/-- An idle block puts each of its two host links into L1 where it may enter it (R72, log entry 118). -/
theorem State.link_idle (s : State) {k : Nat} (hk : k ≤ 1) : s.idle.link k =
    { s.link k with l1 := (s.link k).l1 || ((s.link k).up && (s.link k).aspm && (s.link k).waiting.isEmpty && (s.link k).reads.isEmpty) } := by
  simp only [State.idle, List.foldl_cons, List.foldl_nil]
  rcases Nat.le_one_iff_eq_zero_or_eq_one.mp hk with rfl | rfl
  · rw [State.link_setLink_other _ _ (by decide), State.link_setLink_same]
  · rw [State.link_setLink_same, State.link_setLink_other _ _ (by decide)]

/-- Settles O42: the two cases of a step, by its queue. -/
theorem stepRunsFront : Obligations.StepRunsFront := by
  unfold Obligations.StepRunsFront
  exact ⟨fun s c rest => step_cons rfl, fun s hempty => ⟨s.idle, step_nil hempty, s.idle_eq, fun k hk => s.link_idle hk⟩⟩

/-! ### The state after reset -/

/-- A register that nothing has written reads its Reset column. -/
theorem reset_rdA (f : Fld) (i j : Nat) : State.reset.rdA f i j = f.rst := rfl

theorem reset_stagedVal (f : Fld) (i j : Nat) : State.reset.stagedVal f i j = State.reset.rdA f i j := rfl

/-- Settles O43: the reset state lists no register, no staged copy and no item. -/
theorem resetState : Obligations.ResetState := by
  unfold Obligations.ResetState
  exact ⟨rfl, List.Pairwise.nil, reset_rdA, fun p => reset_rdA _ p 0, fun g => ⟨reset_rdA _ g 0, reset_rdA _ g 0, reset_rdA _ g 0⟩,
    reset_rdA _ 0 0, reset_stagedVal, fun _ => rfl, rfl, fun p => reset_rdA _ p 0, rfl⟩

/-! ### Tenant numbers -/

/-- Which functions bear a tenant's number: PFs of the two links bear 0, a VF of H0 its own number, one of H1 the split more (R65, R67). -/
theorem State.tenantNo_eq_some {s : State} {f : Func} {k : Nat} (h : s.tenantNo f = some k) : (f.link = 0 ∨ f.link = 1) ∧
    (f.fn = 0 ∧ k = 0 ∨ f.fn ≠ 0 ∧ f.link = 0 ∧ k = f.fn ∧ f.fn ≤ s.img.split ∨ f.fn ≠ 0 ∧ f.link = 1 ∧ k = s.img.split + f.fn ∧ k ≤ 255) := by
  unfold State.tenantNo at h
  split_ifs at h <;> simp only [Option.some.injEq] at h <;> omega

/-- Settles O45: a VF's number tells its link by the split and then its own number. -/
theorem tenantsAreApart : Obligations.TenantsAreApart := by
  unfold Obligations.TenantsAreApart
  constructor
  case left =>
    rintro s ⟨fl, fn⟩ ⟨gl, gn⟩ k hf hg
    have hf := State.tenantNo_eq_some hf
    have hg := State.tenantNo_eq_some hg
    simp only [Func.mk.injEq] at hf hg ⊢
    omega
  case right =>
    intro s f k hsplit hf
    have hf := State.tenantNo_eq_some hf
    omega

/-! ### The place of a new entry -/

/-- `x` stands before a new entry `e` of its queue (R302, R313, R619). -/
def QEntry.before (x e : QEntry) : Bool :=
  decide (x.key < e.key)
    || (x.key == e.key && ((x.mirror && !e.mirror) || (x.mirror == e.mirror && (x.born != e.born || decide (x.turn ≤ e.turn)))))

/-- The entry as it joins a queue: with the sequence value `v`, at the instant `n` (R303). -/
def QEntry.joining (e : QEntry) (v n : Nat) : QEntry := { e with seq := v, born := n }

@[simp] theorem QEntry.joining_key (e : QEntry) (v n : Nat) : (e.joining v n).key = e.key := rfl
@[simp] theorem QEntry.joining_mirror (e : QEntry) (v n : Nat) : (e.joining v n).mirror = e.mirror := rfl
@[simp] theorem QEntry.joining_born (e : QEntry) (v n : Nat) : (e.joining v n).born = n := rfl
@[simp] theorem QEntry.joining_turn (e : QEntry) (v n : Nat) : (e.joining v n).turn = e.turn := rfl

theorem insertEntry_eq (es : List QEntry) (e : QEntry) : insertEntry es e = es.takeWhile (·.before e) ++ e :: es.dropWhile (·.before e) := rfl

theorem QEntry.before_iff (x e : QEntry) : x.before e = true ↔
    x.key < e.key ∨ (x.key = e.key ∧ ((x.mirror = true ∧ e.mirror = false) ∨ (x.mirror = e.mirror ∧ (x.born ≠ e.born ∨ x.turn ≤ e.turn)))) := by
  simp [QEntry.before]

theorem QEntry.not_before_iff (x e : QEntry) : x.before e = false ↔
    e.key < x.key ∨ (x.key = e.key ∧ ((x.mirror = false ∧ e.mirror = true) ∨ (x.mirror = e.mirror ∧ x.born = e.born ∧ e.turn < x.turn))) := by
  rw [← Bool.not_eq_true, QEntry.before_iff]
  cases x.mirror <;> cases e.mirror <;> grind

theorem QEntry.key_le_of_before {x e : QEntry} (h : x.before e = true) : x.key ≤ e.key := by
  rcases (x.before_iff e).mp h with h | h
  · exact h.le
  · exact h.1.le

theorem QEntry.key_le_of_not_before {x e : QEntry} (h : x.before e = false) : e.key ≤ x.key := by
  rcases (x.not_before_iff e).mp h with h | h
  · exact h.le
  · exact h.1.ge

section

variable {es : List QEntry} (e : QEntry)

theorem before_of_mem_takeWhile : ∀ x ∈ es.takeWhile (·.before e), x.before e = true :=
  fun _ hx => List.mem_takeWhile_imp (p := fun y : QEntry => y.before e) hx

theorem not_before_head_dropWhile : ∀ x ∈ (es.dropWhile (·.before e)).head?, x.before e = false := by
  intro x hx
  have h := List.head?_dropWhile_not (·.before e) es
  rw [Option.mem_def.mp hx] at h
  simpa using h

/-- Where the queue is in key order, what stands after the new entry has no smaller key. -/
theorem key_le_of_mem_dropWhile (hes : es.Pairwise fun a b => a.key ≤ b.key) : ∀ x ∈ es.dropWhile (·.before e), e.key ≤ x.key := by
  have hhead := not_before_head_dropWhile (es := es) e
  have hsorted : (es.dropWhile (·.before e)).Pairwise fun a b => a.key ≤ b.key := hes.sublist (List.dropWhile_sublist _)
  intro x hx
  cases hb : es.dropWhile (·.before e) with
  | nil => rw [hb] at hx; simp at hx
  | cons y ys =>
    rw [hb] at hx hsorted hhead
    have hy : e.key ≤ y.key := QEntry.key_le_of_not_before (hhead y rfl)
    rcases List.mem_cons.mp hx with rfl | hin
    · exact hy
    · exact hy.trans ((List.pairwise_cons.mp hsorted).1 x hin)

theorem pairwise_insertEntry (hes : es.Pairwise fun a b => a.key ≤ b.key) : (insertEntry es e).Pairwise fun a b => a.key ≤ b.key := by
  have hfirst : ∀ x ∈ es.takeWhile (·.before e), x.key ≤ e.key := fun x hx => QEntry.key_le_of_before (before_of_mem_takeWhile e x hx)
  have hrest := key_le_of_mem_dropWhile e hes
  rw [insertEntry_eq, List.pairwise_append, List.pairwise_cons]
  refine ⟨hes.sublist (List.takeWhile_sublist _), ⟨hrest, hes.sublist (List.dropWhile_sublist _)⟩, fun x hx y hy => ?_⟩
  rcases List.mem_cons.mp hy with rfl | hin
  · exact hfirst x hx
  · exact (hfirst x hx).trans (hrest y hin)

end

section

variable (s : State) (p : Nat)

theorem State.entries_refreshHead (q : Nat) : ((s.refreshHead p).queue q).entries = (s.queue q).entries := by
  unfold State.refreshHead
  split
  · by_cases h : q = p
    · subst h; rw [State.queue_setQueue_same]
    · rw [State.queue_setQueue_other _ _ h]
  · rfl

theorem State.queue_refreshHead_other {q : Nat} (h : q ≠ p) : (s.refreshHead p).queue q = s.queue q := by
  unfold State.refreshHead
  split
  · exact s.queue_setQueue_other _ h
  · rfl

theorem State.rd_refreshHead (f : Fld) (i : Nat) : (s.refreshHead p).rd f i = s.rd f i := by
  unfold State.refreshHead
  split <;> rfl

variable (e : QEntry)

theorem State.entries_addEntry : ((s.addEntry p e).queue p).entries = insertEntry (s.queue p).entries (e.joining (s.queue p).freeSeq s.now) := by
  simp [State.addEntry, State.entries_refreshHead, State.bump, State.setEntries, QEntry.joining]

theorem State.queue_addEntry_other {q : Nat} (h : q ≠ p) : (s.addEntry p e).queue q = s.queue q := by
  simp [State.addEntry, State.queue_refreshHead_other _ _ h, State.bump, State.setEntries, State.queue_setQueue_other _ _ h]

/-- The count of insertions is read-only and wraps (R341). -/
theorem State.rd_addEntry_count : (s.addEntry p e).rd PQ_INSERT_COUNT p = (s.rd PQ_INSERT_COUNT p + 1) % 2 ^ 24 := by
  obtain ⟨-, hwraps, -⟩ := countersSaturate ((s.setEntries p (insertEntry (s.queue p).entries (e.joining (s.queue p).freeSeq s.now))).setQueue p
    fun q => { q with nextSeq := ((s.queue p).freeSeq + 1) % 2 ^ 32 }) PQ_INSERT_COUNT p 0 1
  rw [State.addEntry, State.rd_refreshHead]
  exact hwraps rfl

end

/-- Settles O53: the new entry goes between what `QEntry.before` tells to stand before it and the rest, which the key order bounds. -/
theorem queueInsertion : Obligations.QueueInsertion := by
  unfold Obligations.QueueInsertion
  refine ⟨fun s p e hes => ?sorted, fun s p e hes => ?place, fun s p q e hq => s.queue_addEntry_other p e hq, fun s p e => s.rd_addEntry_count p e⟩
  case sorted => rw [s.entries_addEntry]; exact pairwise_insertEntry _ hes
  case place =>
    have hentries := s.entries_addEntry p e
    rw [insertEntry_eq] at hentries
    refine ⟨_, _, List.takeWhile_append_dropWhile.symm, hentries, fun x hx => ?before, fun x hx => ?after, fun x hx => ?keys⟩
    case before => simpa only [QEntry.joining_key, QEntry.joining_mirror, QEntry.joining_born, QEntry.joining_turn] using
      (x.before_iff _).mp (before_of_mem_takeWhile _ x hx)
    case after => simpa only [QEntry.joining_key, QEntry.joining_mirror, QEntry.joining_born, QEntry.joining_turn] using
      (x.not_before_iff _).mp (not_before_head_dropWhile _ x hx)
    case keys => simpa only [QEntry.joining_key] using key_le_of_mem_dropWhile (e.joining (s.queue p).freeSeq s.now) hes x hx

end Sys2Proof.Machine
end

section
/-! PROOFS. Host writes, refused accesses and reads of the register window (chapters 02, 03). -/

namespace Sys2Proof.Machine

section

variable {s u : State} {t : Nat} {a : Access}

/-- A write of BAR0 that the access filter passes. -/
theorem exec_registerWrite_passes (hu : u = s.tick t) (hanswers : u.answers a.f = true) (hquiet : u.quiet a.f = false) (hpasses : u.refusal a = none)
    (hwrite : a.write = true) (hbar : a.bar = 0) : exec (.registerWrite t a) s = s.passWrite t a := by
  subst hu
  change execRegisterWrite t a s = _
  simp [execRegisterWrite, cfgSpace, hbar, hwrite, hanswers, hquiet, hpasses]

/-- At a register without a row of its own for the value a gap discards and counts the write; else it is the write of the place (R760). -/
theorem State.passWrite_reg (s : State) {l : Loc} (hplace : (s.tick t).place a.f a.off = .reg l) (hrow : rowWrite t a.f l a.val s = none) :
    s.passWrite t a = .next (if (s.tick t).inGap then (s.tick t).bump CU_GAPWR_COUNT 0 else (s.tick t).writePlace a.f a.val (.reg l)) := by
  simp only [State.passWrite, hplace, hrow, Option.getD_none, ite_self]

theorem State.passWrite_alias (s : State) {l : Loc} {bit : Nat} (hplace : (s.tick t).place a.f a.off = .alias_ l bit) :
    s.passWrite t a = .next (if (s.tick t).inGap then (s.tick t).bump CU_GAPWR_COUNT 0 else (s.tick t).writePlace a.f a.val (.alias_ l bit)) := by
  simp only [State.passWrite, hplace]

/-- An access that the access filter refuses. -/
theorem exec_refusedAccess_refused {r : Nat} (hu : u = s.tick t) (hanswers : u.answers a.f = true) (hquiet : u.quiet a.f = false)
    (hrefused : u.refusal a = some r) (hread : a.bar = 2 → a.write = true) : exec (.refusedAccess t a) s = .next (u.refuse a r) := by
  subst hu
  change execRefusedAccess t a s = _
  have hno : ¬ ((s.tick t).quiet a.f = true ∨ (a.bar = 2 ∧ (!a.write) = true)) := by simpa [hquiet] using hread
  simp only [execRefusedAccess, hanswers, hrefused, if_neg hno, Bool.not_true, Bool.false_eq_true, if_false]

/-- A read of BAR0 is answered by `hostReads`. -/
theorem exec_wideGroupRead_bar0 (found : List Found) (hu : u = s.tick t) (hread : a.write = false) (hbar : a.bar = 0) :
    exec (.wideGroupRead t a found) s = .next (u.hostReads a fun s => s.readDwords a.f found a.off a.dwords) := by
  subst hu
  change execWideGroupRead t a found s = _
  simp [execWideGroupRead, hread, hbar]

end

section

variable (s : State)

/-- A read that finds no copy of a triplicated field only reads. -/
theorem State.votedRead_not_found (l : Loc) (dword : Nat) (k : State → State × Nat) : s.votedRead l dword [] k = k s := by
  have hvote : s.voteRead l dword [] = (s, false) := by
    simp only [State.voteRead, List.find?_nil]
    exact List.foldlRecOn (motive := fun x => x = (s, false)) _ _ rfl fun x hx _ _ => hx
  simp [State.votedRead, hvote]

/-- The lowest register of a wide group latches the others, where its read has no row of its own (R107). -/
theorem State.readLoc_wide (f : Func) {l : Loc} {n : Nat} (hactive : l.staged = false) (hwide : wideGroupOf l = some (l.off, n)) (hpq : l.blk ≠ .pq)
    (hfc : l.blk ≠ .fc) (hdb : l.blk ≠ .db) : s.readLoc f l = (s.latch f l n, s.slotAt l) := by
  have hic : l.blk ≠ .ic := by
    intro h
    simp [wideGroupOf, wideGroups, h] at hwide
  simp [State.readLoc, hactive, hwide]

end

/-- Settles O1: the access filter passes the access, or refuses it, and what it reaches is the write or read of that place. -/
theorem filterAndWindow : Obligations.FilterAndWindow := by
  unfold Obligations.FilterAndWindow
  refine ⟨?register, ?bitAlias, ?gapRegister, ?gapAlias, ?msixWrite, ?configWrite, ?refusedWrite, ?refusedRead, ?zeros, ?quietWrite, ?reads, ?wideRead,
    ?gapRead, ?msixRead, ?configRead⟩
  case register =>
    intro s u t a l hu hserves hwrite hbar hplace hactive hshown hfields hrow
    have hgap := inGap_of_serves_write hwrite hserves
    rw [exec_registerWrite_serves hu hbar hwrite hserves]
    subst hu
    rw [s.passWrite_reg hplace hrow, hgap]
    simp [State.writePlace, hshown, hfields]
  case bitAlias =>
    intro s u t a l bit hu hserves hwrite hbar hplace
    have hgap := inGap_of_serves_write hwrite hserves
    rw [exec_registerWrite_serves hu hbar hwrite hserves]
    subst hu
    rw [s.passWrite_alias hplace, hgap]
    rfl
  case gapRegister =>
    intro s u t a l hu hanswers hquiet hpasses hgap hwrite hbar hplace hrow
    rw [exec_registerWrite_passes hu hanswers hquiet hpasses hwrite hbar]
    subst hu
    rw [s.passWrite_reg hplace hrow, if_pos hgap]
  case gapAlias =>
    intro s u t a l bit hu hanswers hquiet hpasses hgap hwrite hbar hplace
    rw [exec_registerWrite_passes hu hanswers hquiet hpasses hwrite hbar]
    subst hu
    rw [s.passWrite_alias hplace, if_pos hgap]
  case msixWrite =>
    intro s u t a hu hanswers hquiet hwrite hbar
    subst hu
    change execRegisterWrite t a s = _
    simp [execRegisterWrite, cfgSpace, hbar, hwrite, hanswers, hquiet]
  case configWrite =>
    intro s u t a hu hwrite hbar
    subst hu
    change execRegisterWrite t a s = _
    simp [execRegisterWrite, hbar, hwrite]
  case refusedWrite =>
    intro s u t a k r hu hanswers hquiet hrefused hk hwrite
    rw [exec_refusedAccess_refused hu hanswers hquiet hrefused fun _ => hwrite]
    simp [State.refuse, hk, hwrite, b2n]
  case refusedRead =>
    intro s u t a k r hu hanswers hquiet hrefused hk hread hbar
    rw [exec_refusedAccess_refused hu hanswers hquiet hrefused fun h => absurd h hbar]
    simp [State.refuse, hk, hread, b2n]
  case zeros =>
    intro s u t a hu hanswers hzeros hread
    subst hu
    change execRefusedAccess t a s = _
    simp [execRefusedAccess, hanswers, hread, hzeros]
  case quietWrite =>
    intro s u t a hu hanswers hquiet hwrite
    subst hu
    change execRefusedAccess t a s = _
    simp [execRefusedAccess, hanswers, hwrite, hquiet]
  case reads =>
    intro s u t a found hu hserves hread hbar
    rw [exec_wideGroupRead_bar0 found hu hread hbar, State.hostReads_serves _ a _ hserves]
  case wideRead =>
    intro s u t a l n hu hserves hread hbar hone hplace hactive hwide hpq hfc hdb
    have hdword : u.readDword a.f [] a.off 0 = (u.latch a.f l n, u.slotAt l) := by
      simp only [State.readDword, Nat.mul_zero, Nat.add_zero, hplace, State.votedRead_not_found]
      exact u.readLoc_wide a.f hactive hwide hpq hfc hdb
    rw [exec_wideGroupRead_serves [] hu hbar hread hone hserves, hdword]
  case gapRead =>
    intro s u t a found hu hanswers hquiet hpasses hgap hplace hread hbar
    rw [exec_wideGroupRead_bar0 found hu hread hbar]
    simp [State.hostReads, hanswers, hquiet, hpasses, hgap, hplace]
  case msixRead =>
    intro s u t a found hu hread hbar hanswers hquiet
    subst hu
    change execWideGroupRead t a found s = _
    simp [execWideGroupRead, State.readMsix, hread, hbar, hanswers, hquiet]
  case configRead =>
    intro s u t a found hu hread hbar hanswers
    subst hu
    change execWideGroupRead t a found s = _
    simp [execWideGroupRead, State.readConfig, cfgSpace, hread, hbar, hanswers]

end Sys2Proof.Machine
end

section
/-! PROOFS. Votes, boundaries and DISCARD; function resets and the events of a host link (chapters 02, 03). -/

namespace Sys2Proof.Machine

/-! ### Votes -/

section

variable {s : State} {t blk inst off lo j : Nat} {staged : Bool} {f : Fld} {x : Copies}

/-- A visit of a copy that no host has written at that instant is a vote over it (R111, R115). -/
theorem exec_scrubVisit_votes (hfield : triplicated blk off lo = some (f, j))
    (hnew : (s.tick t).justWritten (f.key inst j) (staged && f.acc == .rwb) = false) :
    exec (.scrubVisit t blk inst off lo staged x) s =
      .next ((s.tick t).vote f inst j (staged && f.acc == .rwb) x (barOffset blk inst off / 4)).1 := by
  change execScrubVisit t blk inst off lo staged x s = _
  simp only [execScrubVisit, hfield, hnew, Bool.false_eq_true, if_false]

/-- A majority is the field's value; the vote tells where it corrected a copy (R111, R112). -/
theorem State.vote_majority (s : State) (detail : Nat) {v : Nat} (hmajority : copiesMajority x = some v) :
    (s.vote f inst j staged x detail).1 = if copiesDamaged x = true then ((s.voteOut f inst j staged (v % 2 ^ f.w)).voteSettled).faultAssert 186 detail
      else (s.voteOut f inst j staged (v % 2 ^ f.w)).voteSettled := by
  simp only [State.vote, hmajority]
  split <;> rfl

/-- Without a majority the copies are kept as found, and the first such vote tells (R113). -/
theorem State.vote_lost (s : State) (detail : Nat) (hnone : copiesMajority x = none) :
    (s.vote f inst j staged x detail).1 =
      if s.isLost (f.key inst j) staged = true then s.setTriple (f.key inst j) staged ⟨x, s.votedVal f inst j staged⟩
      else (if staged = true then { s.setTriple (f.key inst j) staged ⟨x, s.votedVal f inst j staged⟩ with
          noMajStaged := (s.setTriple (f.key inst j) staged ⟨x, s.votedVal f inst j staged⟩).noMajStaged ++ [f.key inst j] }
        else { s.setTriple (f.key inst j) staged ⟨x, s.votedVal f inst j staged⟩ with
          noMaj := (s.setTriple (f.key inst j) staged ⟨x, s.votedVal f inst j staged⟩).noMaj ++ [f.key inst j] }).faultAssert 187 detail := by
  simp only [State.vote, hnone]
  split <;> rfl

end

/-- With a write pending, a boundary makes every staged field active, clears PEND and advances APPLY_SEQ (R121-R124). -/
theorem State.applyStaged_pending (s : State) (i : Inst) (h : s.flag PG_STAT_PEND (pgInst i) = true) {w : State}
    (hw : w = (rwbFields (instBlk i).1).foldl (fun (w : State) fj => w.applyField fj.1 (instBlk i).2 fj.2) s) :
    s.applyStaged i = (w.put PG_STAT_PEND (pgInst i) false).wr PG_STAT_APPLY_SEQ (pgInst i) (w.rd PG_STAT_APPLY_SEQ (pgInst i) + 1) := by
  subst hw
  rw [State.applyStaged, if_pos h]

/-- Settles O2: a scrub visit is a vote, a boundary is that of its block. -/
theorem votesAndBoundaries : Obligations.VotesAndBoundaries := by
  unfold Obligations.VotesAndBoundaries
  refine ⟨?corrected, ?intact, ?lost, ?lostAlready, ?written, ?restored, ?ringPort, ?pairPort, ?busPort, ?serialPort, ?bank, ?discarded⟩
  case corrected =>
    intro s u t blk inst off lo j v staged f x hu hfield hnew hmajority hdamaged
    subst hu
    rw [exec_scrubVisit_votes hfield hnew, State.vote_majority _ _ hmajority, if_pos hdamaged]
  case intact =>
    intro s u t blk inst off lo j v staged f x hu hfield hnew hmajority hintact
    subst hu
    rw [exec_scrubVisit_votes hfield hnew, State.vote_majority _ _ hmajority, hintact]
    rfl
  case lost =>
    intro s u t blk inst off lo j k staged z f x w hu hfield hz hk hnew hnone hfirst hw
    subst hu hz hk hw
    rw [exec_scrubVisit_votes hfield hnew, State.vote_lost _ _ hnone, hfirst]
    rfl
  case lostAlready =>
    intro s u t blk inst off lo j staged z f x hu hfield hz hnew hnone hlost
    subst hu hz
    rw [exec_scrubVisit_votes hfield hnew, State.vote_lost _ _ hnone, if_pos hlost]
  case written =>
    intro s u t blk inst off lo j staged f x hu hfield hwritten
    subst hu
    change execScrubVisit t blk inst off lo staged x s = _
    simp only [execScrubVisit, hfield, hwritten, if_true]
  case restored =>
    intro s u t blk inst off lo j f hu hfield hacc hlost
    subst hu
    change execRwiRestore t blk inst off lo s = _
    simp only [execRwiRestore, hfield, if_pos (And.intro hacc hlost)]
  case ringPort =>
    intro s u t n w hu hn hpend hw
    subst hu
    change execBoundary t (.rl n) s = _
    rw [execBoundary, State.boundaryOf, if_pos hn, State.applyStaged_pending _ (.rl n) hpend hw]
  case pairPort =>
    intro s u t n w hu hn hpend hw
    subst hu
    change execBoundary t (.pl n) s = _
    rw [execBoundary, State.boundaryOf, if_pos hn, State.applyStaged_pending _ (.pl n) hpend hw]
  case busPort =>
    intro s u t p hu hp
    subst hu
    change execBoundary t (.fb p) s = _
    rw [execBoundary, State.boundaryOf, if_pos hp]
  case serialPort =>
    intro s u t n hu hn
    subst hu
    change execBoundary t (.sp n) s = _
    rw [execBoundary, State.boundaryOf, if_pos hn]
  case bank =>
    intro s u t b hu hb
    subst hu
    change execBoundary t (.db b) s = _
    rw [execBoundary, State.boundaryOf, if_pos hb]
  case discarded =>
    intro s u t f i hu htakes
    subst hu
    change execDiscard t f i s = _
    rw [execDiscard, State.hostWrite_takes _ _ _ _ htakes]

/-! ### Function resets -/

/-- A function that is enabled in D0 with bus mastering, its tenant active, has its held completions posted before what waits on the link
(R69, R211). -/
theorem State.resumeFunc_active {w x : State} {f : Func} {k : Nat} (hactive : w.active (w.tn f) f.link = true) (hk : w.tenantNo f = some k)
    (hx : x = { w with host := { w.host with heldComps := w.host.heldComps.filter fun y => !w.partRing f y.cq } }) :
    w.resumeFunc f = ((((w.host.heldComps.filter fun y => w.partRing f y.cq).foldl (fun (y : State) z => y.post f.link (.cq z)) x).drainLink
      f.link).refreshHeads).judgeWhere (· == f) := by
  subst hx
  simp [State.resumeFunc, hactive, hk]

/-- A change of one function leaves every other function and the rest of the state. -/
theorem State.setFunc_only (s : State) (f : Func) (g : FnSt → FnSt) : (s.setFunc f g).func f = g (s.func f) ∧
    (∀ h, fkey h ≠ fkey f → (s.setFunc f g).func h = s.func h) ∧ s.setFunc f g = { s with host := { s.host with fns := (s.setFunc f g).host.fns } } :=
  ⟨s.func_setFunc_same f g, fun _ hne => s.func_setFunc_other g hne, rfl⟩

/-- Settles O3: each event is a function reset, or a change of one function. -/
theorem resetsOfFunctions : Obligations.ResetsOfFunctions := by
  unfold Obligations.ResetsOfFunctions
  refine ⟨?flrTenant, ?flrNone, ?flrPf, ?vfs, ?busMaster, ?d3hot, ?hotReset, ?complete, ?resume⟩
  case flrTenant =>
    intro s u t f k w hu hvf hk hw
    subst hu hw
    change execFlr t f s = _
    simp only [execFlr, if_neg hvf, State.resetFunc, hk, Option.isSome_some, if_true]
  case flrNone =>
    intro s u t f hu hvf hk
    subst hu
    change execFlr t f s = _
    simp only [execFlr, if_neg hvf, State.resetFunc, hk, Option.isSome_none, Bool.false_eq_true, if_false]
  case flrPf =>
    intro s u t f hu hpf
    subst hu
    change execFlr t f s = _
    simp only [execFlr, if_pos hpf]
  case vfs => rintro s _ t link n rfl; rfl
  case busMaster => rintro s _ t f rfl; exact ⟨_, rfl, State.setFunc_only _ f _⟩
  case d3hot => rintro s _ t link rfl; exact ⟨_, rfl, State.setFunc_only _ ⟨link, 0⟩ _⟩
  case hotReset =>
    intro s u t link hu hlink
    subst hu
    change execHotReset t link s = _
    simp only [execHotReset, if_neg (Nat.not_lt.mpr hlink)]
  case complete => rintro s _ t f rfl; exact ⟨_, rfl, State.setFunc_only _ f _⟩
  case resume =>
    intro s u t f k w x hu hcfg hw hactive hk hx
    subst hu hw
    change execCompletionsResume t f s = _
    simp only [execCompletionsResume, hcfg, if_true]
    rw [State.resumeFunc_active hactive hk hx]

end Sys2Proof.Machine
end

section
/-! PROOFS. Descriptor rings: arming and disarming, doorbells, fetch and the completions of reads (chapter 04). -/

namespace Sys2Proof.Machine

/-! ### Commands of a ring -/

section

variable {s : State} {t k : Nat} {f : Func}

theorem exec_armRing_taken (both : Bool) (hk : k < 256) (htakes : (s.tick t).takesWrite f (rcOff k 0x10) = true) :
    exec (.arm t f k both) s = .next (((s.tick t).armCmd ((s.tick t).tn f * 256 + k) both).tellFallback) := by
  change execArm t f k both s = _
  simp only [execArm, if_neg (Nat.not_le.mpr hk), State.hostWrite_takes _ _ _ _ htakes]

theorem exec_disarmRing_taken (both : Bool) (hk : k < 256) (htakes : (s.tick t).takesWrite f (rcOff k 0x10) = true) :
    exec (.disarm t f k both) s = .next ((s.tick t).disarmCmd ((s.tick t).tn f * 256 + k) both) := by
  change execDisarm t f k both s = _
  simp only [execDisarm, if_neg (Nat.not_le.mpr hk), State.hostWrite_takes _ _ _ _ htakes]

/-- A doorbell of a served function rings where the DMA domain of its link is on (R703). -/
theorem exec_doorbell_rings (v : Nat) (hk : k < 256) (hanswers : (s.tick t).answers f = true) (hquiet : (s.tick t).quiet f = false)
    (hdma : (s.tick t).domOn (134 + f.link) = true) : exec (.doorbell t f k v) s = .next ((s.tick t).doorbell f k v) := by
  change execDoorbell t f k v s = _
  simp [execDoorbell, hanswers, hquiet, hdma, hk]

end

section

variable (s : State) (r : Nat)

theorem State.disarmCmd_refused (both : Bool) (h : both = true ∨ s.rd RC_STAT_STATE r = rcIdle ∨ s.rd RC_STAT_STATE r = rcDraining) :
    s.disarmCmd r both = s.wr RC_STAT_ERRCODE r (if both then 9 else 6) := by
  cases both with
  | true => rfl
  | false => simp [State.disarmCmd, State.armCode, by simpa using h]

/-- A DISARM that nothing bars shows ERRCODE 0 and disarms (R163). -/
theorem State.disarmCmd_accepted (hstate : s.rd RC_STAT_STATE r = rcArmed ∨ s.rd RC_STAT_STATE r = rcError)
    (hfree : s.rd RC_CTL_TYPE r = 1 → s.rd RC_STAT_STATE r = rcArmed → s.cqBound r = false) :
    s.disarmCmd r false = (s.wr RC_STAT_ERRCODE r 0).disarmRing r := by
  have hlive : ¬ (s.rd RC_STAT_STATE r = rcIdle ∨ s.rd RC_STAT_STATE r = rcDraining) := by
    rcases hstate with h | h <;> rw [h] <;> decide
  have hunbound : ¬ (s.rd RC_STAT_STATE r = rcArmed ∧ s.rd RC_CTL_TYPE r = 1 ∧ s.cqBound r = true) := by
    rintro ⟨harmed, htype, hbound⟩
    rw [hfree htype harmed] at hbound
    cases hbound
  simp only [State.disarmCmd, if_neg hlive, if_neg hunbound, Bool.false_eq_true, if_false, State.armCode]

/-- RC_STAT_ERRCODE is no part of what a ring is. -/
theorem State.rd_wr_errcode (f : Fld) (v : Nat) (h : f.key 0 0 ≠ RC_STAT_ERRCODE.key 0 0) : (s.wr RC_STAT_ERRCODE r v).rd f r = s.rd f r :=
  s.rd_wr_other _ _ r v h

/-- A ring's size is in RC_CTL alone. -/
theorem State.ringN_wr {f : Fld} (v : Nat) (h : RC_CTL_LOG2N.key 0 0 ≠ f.key 0 0) : (s.wr f r v).ringN r = s.ringN r := by
  rw [State.ringN, State.rd_wr_other _ _ _ _ _ h]; rfl

theorem State.idleRing_only : (s.idleRing r).rd RC_STAT_STATE r = rcIdle ∧ (s.idleRing r).rd RC_STAT_CAUSE r = 0 ∧ (s.idleRing r).rd RC_STAT_STALE r = 0 ∧
    s.idleRing r = { s with regs := (s.idleRing r).regs } ∧
    s.regsBut (s.idleRing r) [RC_STAT_STATE.key r 0, RC_STAT_CAUSE.key r 0, RC_STAT_STALE.key r 0] := by
  refine ⟨?_, ?_, ?_, rfl, ?_⟩
  · rw [State.idleRing, State.put, State.rd_wr_other _ _ _ _ _ (by decide), State.rd_wr_other _ _ _ _ _ (by decide), State.rd_wr_same]
    decide
  · rw [State.idleRing, State.put, State.rd_wr_other _ _ _ _ _ (by decide), State.rd_wr_same]
    decide
  · rw [State.idleRing, State.put, State.rd_wr_same]
    decide
  · have hstate := s.regsBut_wr s [RC_STAT_STATE.key r 0, RC_STAT_CAUSE.key r 0, RC_STAT_STALE.key r 0] RC_STAT_STATE r rcIdle
      (s.regsBut_refl _) (by simp)
    have hcause := s.regsBut_wr _ _ RC_STAT_CAUSE r 0 hstate (by simp)
    exact s.regsBut_wr _ _ RC_STAT_STALE r (b2n false) hcause (by simp)

end

/-- Settles O4: each command goes by the ring's state, its type and the checks, in the order of R163, R164 and R170. -/
theorem ringCommands : Obligations.RingCommands := by
  unfold Obligations.RingCommands
  refine ⟨?armed, ?armFails, ?armBusy, ?disarmSq, ?disarmOther, ?disarmBound, ?disarmRefused, ?drained, ?rung, ?latched, ?invalid, ?notArmed, ?violates⟩
  case armed =>
    intro s u t k r f hu hk htakes hr hidle hpasses
    subst hu hr
    rw [exec_armRing_taken false hk htakes, State.armCmd, if_neg (by decide), if_neg (not_not.mpr hidle), if_neg (not_not.mpr hpasses)]
    rfl
  case armFails =>
    intro s u t k r f hu hk htakes hr hidle hfails
    subst hu hr
    rw [exec_armRing_taken false hk htakes, State.armCmd, if_neg (by decide), if_neg (not_not.mpr hidle), if_pos hfails]
    rfl
  case armBusy =>
    intro s u t k r f both hu hk htakes hr hbusy
    subst hu hr
    rw [exec_armRing_taken both hk htakes]
    cases both with
    | true => rfl
    | false => rw [State.armCmd, if_neg (by decide), if_pos hbusy]; rfl
  case disarmSq =>
    intro s u t k r f w hu hk htakes hr hstate htype hw
    subst hu hr hw
    rw [exec_disarmRing_taken false hk htakes, State.disarmCmd_accepted _ _ hstate (fun h => absurd (htype.symm.trans h) (by decide))]
    simp only [State.disarmRing, State.rd_wr_errcode _ _ RC_CTL_TYPE _ (by decide), State.rd_wr_errcode _ _ RC_OUTST_COUNT _ (by decide), htype, if_true]
    split <;> simp_all
  case disarmOther =>
    intro s u t k r f w hu hk htakes hr hstate htype hfree hw
    subst hu hr hw
    have hnoSq : ¬ (s.tick t).rd RC_CTL_TYPE ((s.tick t).tn f * 256 + k) = 0 := by omega
    rw [exec_disarmRing_taken false hk htakes, State.disarmCmd_accepted _ _ hstate hfree, State.disarmRing]
    simp only [State.rd_wr_errcode _ _ RC_CTL_TYPE _ (by decide), if_neg hnoSq]
  case disarmBound =>
    intro s u t k r f hu hk htakes hr harmed htype hbound
    subst hu hr
    rw [exec_disarmRing_taken false hk htakes]
    simp [State.disarmCmd, harmed, htype, hbound, rcArmed, rcIdle, rcDraining, State.armCode]
  case disarmRefused =>
    intro s u t k r f both hu hk htakes hr hrefused
    subst hu hr
    rw [exec_disarmRing_taken both hk htakes, State.disarmCmd_refused _ _ both hrefused]
  case drained =>
    intro s u t r hu hdraining hempty
    subst hu
    refine ⟨(s.tick t).idleRing r, ?_, State.idleRing_only _ r⟩
    change execRingDrainEnd t r s = _
    rw [execRingDrainEnd, if_pos (And.intro hdraining hempty)]
  case rung =>
    intro s u t k r v f hu hk hanswers hquiet hdma hr hhome harmed hvalid hgap
    subst hu hr
    rw [exec_doorbell_rings v hk hanswers hquiet hdma]
    simp [State.doorbell, hhome, harmed, hvalid, hgap, rcArmed, rcIdle]
  case latched =>
    intro s u t k r v f hu hk hanswers hquiet hdma hr hhome harmed hvalid hgap
    subst hu hr
    rw [exec_doorbell_rings v hk hanswers hquiet hdma]
    simp [State.doorbell, hhome, harmed, hvalid, hgap, rcArmed, rcIdle]
  case invalid =>
    intro s u t k r v f hu hk hanswers hquiet hdma hr hhome harmed hinvalid
    subst hu hr
    rw [exec_doorbell_rings v hk hanswers hquiet hdma]
    simp [State.doorbell, hhome, harmed, hinvalid, rcArmed, rcIdle, State.dbInvalid]
  case notArmed =>
    intro s u t k r v f hu hk hanswers hquiet hdma hr hhome hunarmed hlive
    subst hu hr
    rw [exec_doorbell_rings v hk hanswers hquiet hdma, State.doorbell, if_neg (not_not.mpr hhome), if_neg hlive, if_pos hunarmed]
  case violates =>
    intro s u t k r v f hu hk hanswers hquiet hdma hr hforeign
    subst hu hr
    rw [exec_doorbell_rings v hk hanswers hquiet hdma, State.doorbell]
    by_cases hhome : (s.tick t).homeOf ((s.tick t).tn f * 256 + k) ≠ f.link
    · rw [if_pos hhome]
    · rw [if_neg hhome, if_pos (hforeign.resolve_left hhome)]

/-! ### Fetch and reads -/

section

variable {s : State} {t link tag tg r start n at_ : Nat} {dead : Bool}

theorem exec_fetchRequest_runs (hgap : (s.tick t).inGap = false) (hdma : (s.tick t).domOn (134 + link) = true) {v : State}
    (hv : v = (((s.tick t).sqs.filter fun r => (s.tick t).homeOf r == link).foldl (fun (v : State) r => v.pushPayload r) (s.tick t)).pushPull) :
    exec (.fetchRequest t link) s = match v.nextSq link, (v.link link).freeTag with
      | some r, some tag => .next (if v.fetchLen link r = 0 then v else v.fetchFor link r tag)
      | _, _ => .next v := by
  subst hv
  change execFetchRequest t link s = _
  simp only [execFetchRequest, hgap, hdma, Bool.not_true, Bool.or_self, Bool.false_eq_true, if_false] <;> rfl

/-- The completion of a descriptor read ends the read; one that was discarded only counts its error (R224). -/
theorem exec_fetchCompletion_desc (res : ReadResult) (hread : (s.tick t).readOf link tag = some ⟨tg, .desc r start n, at_, dead⟩) :
    exec (.fetchCompletion t link tag res) s = .next (if dead then (match res with
        | .err _ => ((s.tick t).endRead link tag).bump HP_RDERR_COUNT link
        | .ok _ => (s.tick t).endRead link tag)
      else ((s.tick t).endRead link tag).descRead link tag r start n res) := by
  change execFetchCompletion t link tag res s = _
  simp only [execFetchCompletion, hread] <;> rfl

theorem exec_payloadReadDone_payload {q : Nat} (res : ReadResult) (hread : (s.tick t).readOf link tag = some ⟨tg, .payload r q, at_, dead⟩) :
    exec (.payloadReadDone t link tag res) s = .next (if dead then (match res with
        | .err _ => ((s.tick t).endRead link tag).bump HP_RDERR_COUNT link
        | .ok _ => (s.tick t).endRead link tag)
      else ((s.tick t).endRead link tag).payloadRead link r q res) := by
  change execPayloadReadDone t link tag res s = _
  simp only [execPayloadReadDone, hread] <;> rfl

theorem exec_completionTimeout_due {x : HostRead} (hread : (s.tick t).readOf link tag = some x)
    (hdue : x.at_ + ((s.tick t).link link).ctoMin ≤ (s.tick t).now) :
    exec (.completionTimeout t link tag) s = .next (if x.dead then (match x.what with
        | .pull => (s.tick t).endRead link tag
        | _ => ((s.tick t).endRead link tag).bump HP_RDERR_COUNT link)
      else match x.what with
        | .desc r start n => ((s.tick t).endRead link tag).descRead link tag r start n (.err 3)
        | .payload r q => ((s.tick t).endRead link tag).payloadRead link r q (.err 3)
        | .pull => ((s.tick t).endRead link tag).pullRead (.err 3)) := by
  change execCompletionTimeout t link tag s = _
  simp only [execCompletionTimeout, hread, if_neg (Nat.not_lt.mpr hdue)] <;> rfl

end

/-- Settles O5: a fetch takes the rotation's next SQ, and a read's end goes by what it was for, whether it was discarded, and its result. -/
theorem fetchAndReads : Obligations.FetchAndReads := by
  unfold Obligations.FetchAndReads
  refine ⟨?fetches, ?nothing, ?data, ?error, ?errorAgain, ?discarded, ?payload, ?payloadError, ?payloadDiscarded, ?timeout, ?timeoutDiscarded⟩
  case fetches =>
    intro s u t link r tag p n q v w x hu hgap hdma hv hnext htag hn hsome hp hq hw hx
    subst hu
    rw [exec_fetchRequest_runs hgap hdma hv, hnext, htag]
    subst hn hp hq hw hx
    simp only [if_neg hsome]
    rfl
  case nothing =>
    intro s u t link v hu hgap hdma hv hnone
    subst hu
    rw [exec_fetchRequest_runs hgap hdma hv]
    rcases hnone with h | h
    · rw [h]
    · rw [h]; cases v.nextSq link <;> rfl
  case data =>
    intro s u t link tag tg r start n at_ bytes w hu hread hw
    subst hu hw
    rw [exec_fetchCompletion_desc _ hread]
    rfl
  case error =>
    intro s u t link tag tg r start n at_ cause w x hu hread hw harmed hx
    subst hu hx
    rw [exec_fetchCompletion_desc _ hread]
    subst hw
    simp only [Bool.false_eq_true, if_false, State.descRead, State.fetchError, if_pos harmed,
      State.ringN_wr (f := RC_STAT_STATE) _ _ _ (by decide), State.ringN_wr (f := RC_STAT_CAUSE) _ _ _ (by decide)]
  case errorAgain =>
    intro s u t link tag tg r start n at_ cause w hu hread hw hunarmed
    subst hu
    rw [exec_fetchCompletion_desc _ hread]
    subst hw
    simp only [Bool.false_eq_true, if_false, State.descRead, State.fetchError, if_neg hunarmed]
  case discarded =>
    intro s u t link tag tg r start n at_ res hu hread
    subst hu
    rw [exec_fetchCompletion_desc _ hread]
    cases res <;> rfl
  case payload =>
    intro s u t link tag tg r q at_ bytes w hu hread hfind
    subst hu
    rw [exec_payloadReadDone_payload _ hread]
    simp only [Bool.false_eq_true, if_false, State.payloadRead, hfind]
  case payloadError =>
    intro s u t link tag tg r q at_ cause w rest x hu hread hx hwork hseq hgap
    subst hu
    rw [exec_payloadReadDone_payload _ hread]
    subst hx
    simp only [Bool.false_eq_true, if_false, State.payloadRead, hwork, hseq, hgap, decide_true, Bool.not_false, Bool.and_self, if_true]
  case payloadDiscarded =>
    intro s u t link tag tg r q at_ res hu hread
    subst hu
    rw [exec_payloadReadDone_payload _ hread]
    cases res <;> rfl
  case timeout =>
    intro s u t link tag x hu hread hdue hlive
    subst hu
    rw [exec_completionTimeout_due hread hdue, hlive]
    cases x.what <;> rfl
  case timeoutDiscarded =>
    intro s u t link tag x hu hread hdue hdead
    subst hu
    rw [exec_completionTimeout_due hread hdue, hdead]
    cases x.what <;> rfl

end Sys2Proof.Machine
end

section
/-! PROOFS. The execution of submission descriptors: NOP, FENCE, TX_FRAME, the payload slots and CANCEL (chapters 04, 06). -/

namespace Sys2Proof.Machine

section

variable {s : State} {t r : Nat} {w : Work}

/-- A first descriptor that fails its checks completes with the status of the check (R189). -/
theorem State.runDesc_fails {rest : List Work} {st : Nat} {sel : Nat → Bool} (k : State → Work → List Byte → State) (hgap : s.inGap = false)
    (hwork : (s.ring r).work = w :: rest) (hsel : sel (descOp w.raw) = true) (hfails : descStatus w.raw = some st) :
    s.runDesc r sel k = ((s.popWork r).finishDesc r w st 0).pushPayload r := by
  simp [State.runDesc, hwork, hgap, hsel, hfails]

/-- A FENCE past its checks waits while an earlier descriptor of its SQ has not completed (R188). -/
theorem exec_fence_first {b : List Byte} (hfirst : (s.tick t).firstDesc r 6 w b = true) :
    exec (.fence t r) s = .next (if ((s.tick t).ring r).behind = true then s.tick t
      else (((s.tick t).popWork r).finishDesc r w 0 0).pushPayload r) := by
  change execFence t r s = _
  obtain ⟨-, hhead, hchecked, -, -⟩ := ((s.tick t).firstDesc_iff r 6 w b).mp hfirst
  obtain ⟨rest, hwork⟩ := List.head?_eq_some_iff.mp hhead
  simp only [execFence, hwork, hchecked, true_and, State.runDesc_first _ _ _ _ _ _ hfirst]

/-- A good HANDLE lets the descriptor act, a bad one completes BAD_HANDLE (R219, R220). -/
theorem State.withHandle_good (k : State → State) (h : s.handleReason (s.homeOf r) (r / 256) (descHandle w.raw) = 0) :
    s.withHandle r w k = k s := by
  simp [State.withHandle, h]

theorem State.withHandle_bad (k : State → State) (h : s.handleReason (s.homeOf r) (r / 256) (descHandle w.raw) ≠ 0) :
    s.withHandle r w k = s.badHandle r w (s.handleReason (s.homeOf r) (r / 256) (descHandle w.raw)) := by
  simp [State.withHandle, h]

/-- A first TX_FRAME whose bytes are in hand, its HANDLE good where it names one, comes to the admission checker: with its payload, or with
PSRC 0b10 with the bytes of its slot (R222). -/
theorem exec_txFrame_admits {b d : List Byte} {x : State} (hfirst : (s.tick t).firstDesc r 1 w b = true) (hx : x = (s.tick t).popWork r)
    (hgood : descPsrc w.raw ≠ 2 ∨ x.handleReason (x.homeOf r) (r / 256) (descHandle w.raw) = 0)
    (hd : d = if descPsrc w.raw = 2 then padTo (descLen w.raw) (x.paySlot (x.homeOf r) (bitsOf (descHandle w.raw) 0 12)).data else b) :
    exec (.txFrame t r) s = .next ((x.admitFrame r w d).pushPayload r) := by
  subst hx hd
  change execTxFrame t r s = _
  rw [execTxFrame, State.runDesc_first _ _ _ _ _ _ hfirst]
  by_cases hslot : descPsrc w.raw = 2
  · rw [if_pos hslot, if_pos hslot, State.withHandle_good _ (hgood.resolve_left (not_not.mpr hslot))]
  · rw [if_neg hslot, if_neg hslot]

/-! ### The admission checker (R296) -/

variable {b : List Byte} {f : Frame}

theorem State.admitFrame_no_lease (hf : f = { descFrame w.raw with data := b }) (hnone : s.txLease (r / 256) (descField w.raw 2 1) f = none) :
    s.admitFrame r w b = s.refuseTx r w 0x40 := by
  subst hf
  simp only [State.admitFrame, hnone]

theorem State.admitFrame_port_refuses {l st : Nat} (hf : f = { descFrame w.raw with data := b })
    (hlease : s.txLease (r / 256) (descField w.raw 2 1) f = some l) (hrefuses : s.refuses (descField w.raw 2 1) = some st) :
    s.admitFrame r w b = s.refuseTx r w st := by
  subst hf
  simp only [State.admitFrame, hlease, hrefuses]

theorem State.admitFrame_full {l : Nat} (hf : f = { descFrame w.raw with data := b })
    (hlease : s.txLease (r / 256) (descField w.raw 2 1) f = some l) (haccepts : s.refuses (descField w.raw 2 1) = none)
    (hfull : ((s.img.leases[l]?).map (·.quota)).getD 0 ≤ (s.lrt l).used ∨ s.queueFull (descField w.raw 2 1) = true) :
    s.admitFrame r w b = s.refuseTx r w 0x41 := by
  subst hf
  simp only [State.admitFrame, hlease, haccepts, ge_iff_le, if_pos hfull]

theorem State.admitFrame_admits {l : Nat} (hf : f = { descFrame w.raw with data := b })
    (hlease : s.txLease (r / 256) (descField w.raw 2 1) f = some l) (haccepts : s.refuses (descField w.raw 2 1) = none)
    (hquota : (s.lrt l).used < ((s.img.leases[l]?).map (·.quota)).getD 0) (hroom : s.queueFull (descField w.raw 2 1) = false) :
    s.admitFrame r w b = s.insertTx r w l f := by
  have hnotFull : ¬ (((s.img.leases[l]?).map (·.quota)).getD 0 ≤ (s.lrt l).used ∨ s.queueFull (descField w.raw 2 1) = true) := by
    rw [hroom]; simpa using hquota
  subst hf
  simp only [State.admitFrame, hlease, haccepts, ge_iff_le, if_neg hnotFull]

end

/-! ### The insertion of an admitted frame (R298, R335) -/

section

variable {x y : State} {r p l : Nat} {w : Work} {f : Frame}

theorem State.insertTx_queues (hp : p = descField w.raw 2 1) (hy : y = ((x.bump HP_ADM_CNT_COUNT (x.homeOf r)).checkPtrs p).settleFaults)
    (hready : y.flag PQ_STAT_RESETTING p = false) :
    x.insertTx r w l f = ((((y.setLrt l fun g => { g with used := g.used + 1 }).addEntry p (y.txEntry r w l f)).mirror
      (.entryAdd p (y.txEntry r w l f).key (y.queue p).freeSeq (y.txEntry r w l f).cost (r / 256) l (r % 256) (y.txEntry r w l f).pos
      (y.txEntry r w l f).tag (y.txEntry r w l f).nocomp f)).noteLease l) := by
  subst hp hy
  unfold State.insertTx
  exact if_neg (by rw [hready]; exact Bool.false_ne_true)

theorem State.insertTx_resetting (hp : p = descField w.raw 2 1) (hy : y = ((x.bump HP_ADM_CNT_COUNT (x.homeOf r)).checkPtrs p).settleFaults)
    (hresetting : y.flag PQ_STAT_RESETTING p = true) : x.insertTx r w l f = y.finishDesc r w 0x4D 0 := by
  subst hp hy
  unfold State.insertTx
  exact if_pos hresetting

end

/-- Settles O6: a first descriptor fails its checks, or its opcode acts; a TX_FRAME goes through the admission checker in the order of R296. -/
theorem descriptors : Obligations.Descriptors := by
  unfold Obligations.Descriptors
  refine ⟨?unknown, ?fails, ?nop, ?fence, ?fenceWaits, ?noLease, ?portRefuses, ?full, ?admitted, ?resetting, ?badHandle⟩
  case unknown =>
    intro s u t r st w rest hu hgap hwork hunknown hfails
    subst hu
    change execDescOpcode t r s = _
    rw [execDescOpcode, State.runDesc_fails _ hgap hwork (by simp [hunknown]) hfails]
  case fails =>
    rintro s u t r st w rest ⟨op, i⟩ hu hgap hwork hfails hop hrow
    subst hu
    obtain rfl : op = descOp w.raw := hop
    have hrun : ∀ k, (s.tick t).runDesc r (· == descOp w.raw) k = (((s.tick t).popWork r).finishDesc r w st 0).pushPayload r :=
      fun k => State.runDesc_fails k hgap hwork (beq_self_eq_true _) hfails
    simp only [List.mem_cons, Prod.mk.injEq, List.not_mem_nil, or_false] at hrow
    rcases hrow with ⟨hop, rfl⟩ | ⟨hop, rfl⟩ | ⟨hop, rfl⟩ | ⟨hop, rfl⟩ | ⟨hop, rfl⟩ | ⟨hop, rfl⟩ | ⟨hop, rfl⟩ <;> rw [hop] at hrun
    · exact congrArg _ (hrun _)
    · exact congrArg _ (hrun _)
    · exact congrArg _ (hrun _)
    · exact congrArg _ (hrun _)
    · exact congrArg _ (hrun _)
    · change execFence t r s = _
      simp only [execFence, hwork, hfails, reduceCtorEq, false_and, if_false, hrun]
    · exact congrArg _ (hrun _)
  case nop =>
    intro s u t r w b hu hfirst
    subst hu
    exact congrArg _ ((s.tick t).runDesc_first r 7 w b _ hfirst)
  case fence =>
    intro s u t r w b hu hfirst halone
    subst hu
    rw [exec_fence_first hfirst, halone]
    rfl
  case fenceWaits =>
    intro s u t r w b hu hfirst hbehind
    subst hu
    rw [exec_fence_first hfirst, if_pos hbehind]
  case noLease =>
    intro s u t r p w b d f x y hu hfirst hx hgood hd hp hf hnone hy
    subst hu hp hy
    rw [exec_txFrame_admits hfirst hx hgood hd, State.admitFrame_no_lease hf hnone]
    rfl
  case portRefuses =>
    intro s u t r p l st w b d f x y hu hfirst hx hgood hd hp hf hlease hrefuses hy
    subst hu hp hy
    rw [exec_txFrame_admits hfirst hx hgood hd, State.admitFrame_port_refuses hf hlease hrefuses]
    rfl
  case full =>
    intro s u t r p l w b d f x y hu hfirst hx hgood hd hp hf hlease haccepts hfull hy
    subst hu hp hy
    rw [exec_txFrame_admits hfirst hx hgood hd, State.admitFrame_full hf hlease haccepts hfull]
    rfl
  case admitted =>
    intro s u t r p l w b d f x y hu hfirst hx hgood hd hp hf hlease haccepts hquota hroom hy hready
    subst hu
    have hadmits := State.admitFrame_admits hf (hp ▸ hlease) (hp ▸ haccepts) hquota (hp ▸ hroom)
    rw [exec_txFrame_admits hfirst hx hgood hd, hadmits, State.insertTx_queues hp hy hready]
  case resetting =>
    intro s u t r p l w b d f x y hu hfirst hx hgood hd hp hf hlease haccepts hquota hroom hy hresetting
    subst hu
    have hadmits := State.admitFrame_admits hf (hp ▸ hlease) (hp ▸ haccepts) hquota (hp ▸ hroom)
    rw [exec_txFrame_admits hfirst hx hgood hd, hadmits, State.insertTx_resetting hp hy hresetting]
  case badHandle =>
    intro s u t r why w b x y hu hfirst hslot hx hwhy hbad hy
    subst hu hx hwhy hy
    obtain ⟨-, -, -, -, hop⟩ := ((s.tick t).firstDesc_iff r 1 w b).mp hfirst
    change execTxFrame t r s = _
    rw [execTxFrame, State.runDesc_first _ _ _ _ _ _ hfirst, if_pos hslot, State.withHandle_bad _ hbad, State.badHandle, hop]
    rfl

/-! ### Payload slots and CANCEL -/

section

variable {s x : State} {r : Nat} {w : Work} {b : List Byte}

/-- While the tenant holds fewer slots than its TEN_TXPOOL, an ALLOC takes the slot that the free choice picks (R218). -/
theorem State.alloc_takes {n : Nat} (hx : x = s.draw) (hpick : x.pickSlot (s.homeOf r) = some n)
    (hholds : x.slotsHeld (s.homeOf r) (r / 256) < x.rd TEN_TXPOOL_POOL (r / 256)) :
    s.alloc r w b = (x.setPaySlot (s.homeOf r) n fun _ => ⟨((x.paySlot (s.homeOf r) n).use + 1) % 256, some (r / 256), padTo 64 b⟩).finishDesc r w 0
      (((x.paySlot (s.homeOf r) n).use + 1) % 256 * 2 ^ 13 + s.homeOf r * 2 ^ 12 + n) := by
  subst hx
  unfold State.alloc
  simp only [hpick]
  exact if_neg (Nat.not_le.mpr hholds)

theorem State.alloc_none (hx : x = s.draw)
    (hnone : x.pickSlot (s.homeOf r) = none ∨ x.rd TEN_TXPOOL_POOL (r / 256) ≤ x.slotsHeld (s.homeOf r) (r / 256)) :
    s.alloc r w b = x.finishDesc r w 4 0 := by
  subst hx
  unfold State.alloc
  cases hpick : s.draw.pickSlot (s.homeOf r) with
  | none => simp only [hpick]
  | some n =>
    simp only [hpick]
    exact if_pos (hnone.resolve_left (by rw [hpick]; exact Option.some_ne_none n))

end

/-- Settles O7: a first descriptor of the four opcodes acts on its slot, or on the entries that it names. -/
theorem slotsAndCancels : Obligations.SlotsAndCancels := by
  unfold Obligations.SlotsAndCancels
  refine ⟨?allocates, ?noSlot, ?frees, ?overwrites, ?badHandle, ?cancels⟩
  case allocates =>
    intro s u t r n link use w b x hu hfirst hx hlink hpick hholds huse
    subst hu hlink huse
    change execAlloc t r s = _
    rw [execAlloc, State.runDesc_first _ _ _ _ _ _ hfirst, State.alloc_takes hx hpick hholds]
  case noSlot =>
    intro s u t r w b x hu hfirst hx hnone
    subst hu
    change execAlloc t r s = _
    rw [execAlloc, State.runDesc_first _ _ _ _ _ _ hfirst, State.alloc_none hx hnone]
  case frees =>
    intro s u t r w b x hu hfirst hx hgood
    subst hu hx
    change execFreeSlot t r s = _
    rw [execFreeSlot, State.runDesc_first _ _ _ _ _ _ hfirst, State.withHandle_good _ hgood]
  case overwrites =>
    intro s u t r w b x hu hfirst hx hgood
    subst hu hx
    change execWriteSlot t r s = _
    rw [execWriteSlot, State.runDesc_first _ _ _ _ _ _ hfirst, State.withHandle_good _ hgood]
  case badHandle =>
    rintro s u t r why w b x y ⟨op, i⟩ hu hrow hfirst hx hwhy hbad hy
    subst hu hx hwhy hy
    obtain ⟨-, -, -, -, hop⟩ := ((s.tick t).firstDesc_iff r op w b).mp hfirst
    simp only [List.mem_cons, Prod.mk.injEq, List.not_mem_nil, or_false] at hrow
    rcases hrow with ⟨rfl, rfl⟩ | ⟨rfl, rfl⟩
    · change execFreeSlot t r s = _
      rw [execFreeSlot, State.runDesc_first _ _ _ _ _ _ hfirst, State.withHandle_bad _ hbad, State.badHandle, hop]
    · change execWriteSlot t r s = _
      rw [execWriteSlot, State.runDesc_first _ _ _ _ _ _ hfirst, State.withHandle_bad _ hbad, State.badHandle, hop]
  case cancels =>
    intro s u t r p w b x y z hit hu hfirst hp hx hhit hy hz
    subst hu hp hz hy hhit hx
    exact congrArg _ ((s.tick t).runDesc_first r 2 w b _ hfirst)

end Sys2Proof.Machine
end

section
/-! PROOFS. Frames, errors, states and transceivers of the field bus ports (chapter 05). -/

namespace Sys2Proof.Machine

/-! ### Frames -/

section

variable {s u : State} {t p : Nat} {h : Header}

/-- At a port that integrates no more, a header without a frame in progress begins one, or is a form error (R235, R240). -/
theorem exec_headerEvent_begins (hu : u = s.tick t) (hstate : restrictable (u.fstate p) = true) (hintegrated : u.fstate p ≠ fbIntegrating)
    (hreint : (u.port p).reint = false) (hidle : (u.port p).cur = none) :
    exec (.headerEvent t p h) s = .next (if u.formatError p h then (u.formError p h).settleFaults
      else (u.setPort p fun x => { x with role := false }).takeHeader p h { own := none, bank := (u.port p).bank, cap := u.capWord p }) := by
  change execHeaderEvent t p h s = _
  simp [execHeaderEvent, ← hu, hidle, hstate, hintegrated, hreint]

/-- The frame of a port's EOF event: its sender told before its counters change, its sequence number after. -/
theorem exec_eofEvent_frame {data : List Byte} {c : CurFrame} {w y : State} (hu : u = s.tick t) (hcur : (u.port p).cur = some c) (hhdr : c.hdr = some h)
    (hw : w = (u.countFrame p c.own.isSome).frameGood p c.own.isSome)
    (hy : y = (w.endCur p false).setPort p fun q => { q with suspend := c.own.isSome && (w.endCur p false).fstate p == fbPassive }) :
    exec (.eofEvent t p data) s = .next (((if c.own.isSome then y.reportOutcome p (.sent c.ns c.frac c.epoch c.ivl)
      else y.foreignFrame p h data c).commitOrHold ⟨p, h, data, u.senderOf p c, c.ns, c.frac, c.epoch, c.bank, (w.port p).rxSeq, c.cap⟩
        c.slot).settleFaults) := by
  subst hw hy
  change execEofEvent t p data s = _
  simp only [execEofEvent, ← hu, hcur, hhdr]

/-- A port that may start takes the presented head (R244, R315). -/
theorem exec_frameTake_presented {e : QEntry} (hu : u = s.tick t) (hmay : u.mayStart p = true) (hhead : u.presented p = some e) :
    exec (.frameTake t p) s = .next (if (u.queue p).ptrA = (u.queue p).ptrB then u.takeEntry p e else ((u.takeEntry p e).queueReset p).settleFaults) := by
  change execFrameTake t p s = _
  simp [execFrameTake, ← hu, hmay, hhead]

end

/-- Settles O8: each event is what the bit engine, the assembler or the delivery engine does in the state that meets it. -/
theorem busTraffic : Obligations.BusTraffic := by
  unfold Obligations.BusTraffic
  refine ⟨?begins, ?belongs, ?formError, ?foreignEof, ?ownEof, ?taken, ?mismatch, ?noHead, ?lost, ?records⟩
  case begins =>
    intro s u t p h hu hstate hintegrated hreint hidle hformat
    rw [exec_headerEvent_begins hu hstate hintegrated hreint hidle, hformat]
    rfl
  case belongs =>
    intro s u t p h c hu hstate hintegrated hreint hcur hnoHdr hformat
    have hgood : (c.own.isNone && u.formatError p h) = false := by
      rcases hformat with hown | hgood
      · simp [Option.isNone_eq_false_iff.mpr (Option.isSome_iff_ne_none.mpr hown)]
      · simp [hgood]
    change execHeaderEvent t p h s = _
    simp [execHeaderEvent, ← hu, hcur, hstate, hintegrated, hreint, hnoHdr, hgood]
  case formError =>
    intro s u t p h hu hstate hintegrated hreint hidle hformat
    rw [exec_headerEvent_begins hu hstate hintegrated hreint hidle, if_pos hformat]
  case foreignEof =>
    intro s u t p data c h w y x hu hcur hhdr hown hw hy hx
    have hsome : c.own.isSome = false := by rw [hown]; rfl
    rw [exec_eofEvent_frame hu hcur hhdr rfl rfl, hsome, ← hw, ← hy, hx]
    rfl
  case ownEof =>
    intro s u t p q data c h w y x hu hcur hhdr hown hw hy hx
    have hsome : c.own.isSome = true := by rw [hown]; rfl
    rw [exec_eofEvent_frame hu hcur hhdr rfl rfl, hsome, ← hw, ← hy, hx]
    rfl
  case taken =>
    intro s u t p e hu hmay hhead hgood
    rw [exec_frameTake_presented hu hmay hhead, if_pos hgood]
  case mismatch =>
    intro s u t p e hu hmay hhead hbad
    rw [exec_frameTake_presented hu hmay hhead, if_neg hbad]
  case noHead =>
    intro s u t p hu hmay hnone
    change execFrameTake t p s = _
    simp [execFrameTake, ← hu, hmay, hnone]
  case lost =>
    intro s u t p w hu hsending hw
    subst hw
    change execArbitrationLost t p s = _
    simp [execArbitrationLost, ← hu, hsending]
  case records =>
    intro s u t link f rest q x hu hdma hqueue hx hq
    subst hx hq
    change execRecordWrite t link s = _
    simp [execRecordWrite, ← hu, hdma, hqueue]

/-! ### Errors -/

/-- An error at a port that takes part in bus traffic is the bit engine's (R249). -/
theorem exec_frameError_running {s u : State} {t p : Nat} {e : BusError} (hu : u = s.tick t) (hrunning : u.running p = true) :
    exec (.frameError t p e) s = .next (u.busError p e).settleFaults := by
  change execFrameError t p e s = _
  simp [execFrameError, ← hu, hrunning]

/-- An error that the bit engine meets, out of restricted operation, goes by its case (R249). -/
theorem State.busError_fits {u : State} {p : Nat} {e : BusError} (hfree : u.restricted p = false) (hfits : u.errorFits p e.case_ = true) :
    u.busError p e = match e.case_ with
      | .receiverDominant => (u.countError p .receiverDominant).errState p
      | .dominantRun => ((u.countError p .dominantRun).errState p).noteSuspend p
      | .flagBit => (((u.recordError p e).countError p .flagBit).errState p).noteSuspend p
      | _ => u.errorFrame p e := by
  unfold State.busError
  rw [hfree, hfits]
  cases e.case_ <;> rfl

/-- Settles O9: an error goes by its case of R249, the other conditions by what the port permits. -/
theorem busErrors : Obligations.BusErrors := by
  unfold Obligations.BusErrors
  refine ⟨?errorFrame, ?dominant, ?dominantRun, ?flagBit, ?restricted, ?overload, ?exception, ?saturated⟩
  case errorFrame =>
    intro s u t p e hu hrunning hfree hfits hdominant hrun hflag
    rw [exec_frameError_running hu hrunning, State.busError_fits hfree hfits]
    split
    · contradiction
    · contradiction
    · contradiction
    · rfl
  case dominant =>
    intro s u t p e hu hrunning hfree hfits hcase
    rw [exec_frameError_running hu hrunning, State.busError_fits hfree hfits, hcase]
  case dominantRun =>
    intro s u t p e hu hrunning hfree hfits hcase
    rw [exec_frameError_running hu hrunning, State.busError_fits hfree hfits, hcase]
  case flagBit =>
    intro s u t p e hu hrunning hfree hfits hcase
    rw [exec_frameError_running hu hrunning, State.busError_fits hfree hfits, hcase]
  case restricted =>
    intro s u t p e hu hrunning hrestricted hrole
    rw [exec_frameError_running hu hrunning, State.busError, if_pos hrestricted, hrole]
    rfl
  case overload =>
    intro s u t p c hu hrunning hfree hidle
    change execOverloadFrame t p c s = _
    simp [execOverloadFrame, ← hu, hrunning, hfree, hidle]
  case exception =>
    intro s u t p hu hrunning hfd hpex hforeign
    change execProtocolException t p s = _
    simp [execProtocolException, ← hu, hrunning, hfd, hpex, hforeign]
  case saturated =>
    intro s u t p w hu hmeasures htdc hw
    subst hw
    change execTdcSat t p s = _
    simp [execTdcSat, ← hu, hmeasures, htdc]

/-! ### States -/

section

variable {s u : State} {t p bits : Nat} {f : Func}

/-- The three commands of FB_CMD are one write: its bits say which command it is (R269). -/
theorem exec_fbCmd_taken {c : Instr} (hu : u = s.tick t) (hc : c ∈ [.enable t f p bits, .disable t f p bits, .clrBo t f p bits])
    (htakes : u.takesWrite f (fbOff p 8) = true) : exec c s = .next (u.fbCommand p bits) := by
  have hwrite : ∀ c ∈ [Instr.enable t f p bits, .disable t f p bits, .clrBo t f p bits],
      exec c s = .next (u.hostWrite f (fbOff p 8) fun s => s.fbCommand p bits) := by
    subst hu
    simp only [List.mem_cons, List.not_mem_nil, or_false]
    rintro c (rfl | rfl | rfl) <;> rfl
  rw [hwrite c hc, State.hostWrite_takes _ _ _ _ htakes]

theorem State.fbCommand_absent (habsent : u.fstate p = fbAbsent ∨ (u.port p).leaving = true) :
    u.fbCommand p bits = (((u.wr FB_CMDRES_RESULT p 7).wr FB_CMDRES_CMD_SEQ p (u.rd FB_CMDRES_CMD_SEQ p + 1)).settlePort p).settleFaults := by
  simp only [State.fbCommand, if_pos habsent]

theorem State.fbCommand_present {w : State} {code : Nat} (hpresent : u.fstate p ≠ fbAbsent) (hstays : (u.port p).leaving = false)
    (hresult : (w, code) = if bits % 8 = 1 then u.cmdEnable p else if bits % 8 = 2 then u.cmdDisable p else if bits % 8 = 4 then u.cmdClear p
      else (u, 2)) :
    u.fbCommand p bits = (((w.wr FB_CMDRES_RESULT p code).wr FB_CMDRES_CMD_SEQ p (w.rd FB_CMDRES_CMD_SEQ p + 1)).settlePort p).settleFaults := by
  have hthere : ¬ (u.fstate p = fbAbsent ∨ (u.port p).leaving = true) := by simp [hpresent, hstays]
  simp only [State.fbCommand, if_neg hthere, ← hresult]

/-- The supervisor judges at K times 128 occurrences in BUS_OFF (R281, R284). -/
theorem exec_autoClear_judges (hu : u = s.tick t) (hoff : u.fstate p = fbBusOff) (hen : u.flag FB_AR_EN p = true)
    (hheld : u.flag FB_BOSUP_HELD p = false) (hocc : u.rd FB_BOSUP_OCC p = u.rd FB_AR_K p * 128) :
    exec (.autoClear t p) s = if (u.recentClears p).length < u.rd FB_AR_LIMIT p then
        .next (((u.setPort p fun x => { x with autoClears := u.recentClears p ++ [u.now] }).bump FB_AUTOCLR_CNT_COUNT p).clearBusOff p 1)
      else .next (((u.put FB_BOSUP_HELD p true).fbEvt p 5).event (u.fbOwner p) 0x0104 p
        (BitVec.ofNat 8 (u.rd FB_AR_LIMIT p) :: leBytes 2 (u.windowLeft p))) := by
  change execAutoClear t p s = _
  simp [execAutoClear, ← hu, hoff, hen, hheld, hocc]

end

/-- Settles O10: each event acts in the port state that it names, and FB_CMD's bits choose its command. -/
theorem portStates : Obligations.PortStates := by
  unfold Obligations.PortStates
  refine ⟨?integrated, ?wakes, ?occurrence, ?cleared, ?held, ?recovered, ?drained, ?frameOver, ?limit, ?cmdAbsent, ?cmd⟩
  case integrated =>
    intro s u t p hu hstate hmode hno
    change execIntegrationComplete t p s = _
    simp [execIntegrationComplete, ← hu, hstate, hmode, State.integrated, hno]
  case wakes =>
    intro s u t p w hu hstate hmode hw hdue
    subst hw
    change execIntegrationComplete t p s = _
    simp [execIntegrationComplete, ← hu, hstate, hmode, State.integrated, hdue]
  case occurrence =>
    intro s u t p hu hstate hmode
    change execOccurrence t p s = _
    simp [execOccurrence, ← hu, hstate, hmode]
  case cleared =>
    intro s u t p hu hoff hen hheld hocc hroom
    rw [exec_autoClear_judges hu hoff hen hheld hocc, if_pos hroom]
  case held =>
    intro s u t p hu hoff hen hheld hocc hfull
    rw [exec_autoClear_judges hu hoff hen hheld hocc, if_neg (Nat.not_lt.mpr hfull)]
  case recovered =>
    intro s u t p w hu hstate hocc hw
    subst hw
    change execRecovered t p s = _
    simp [execRecovered, ← hu, hstate, hocc]
  case drained =>
    intro s u t p hu hstate hidle
    change execDrainEnd t p s = _
    simp [execDrainEnd, ← hu, hstate, hidle]
  case frameOver =>
    intro s u t p hu hstate hidle htail hreint
    change execDrainEnd t p s = _
    simp [execDrainEnd, ← hu, hstate, hidle, htail, hreint]
  case limit =>
    intro s u t p hu hstate hdue
    change execDrainLimit t p s = _
    simp [execDrainLimit, ← hu, hstate, hdue]
  case cmdAbsent =>
    intro s u t f p bits c hu hc htakes habsent
    rw [exec_fbCmd_taken hu hc htakes, State.fbCommand_absent habsent]
  case cmd =>
    intro s u t f p bits code w c hu hc htakes hpresent hstays hresult
    rw [exec_fbCmd_taken hu hc htakes, State.fbCommand_present hpresent hstays hresult]

/-! ### Transceivers, leases, replies and queues -/

section

variable {s u : State} {t p : Nat}

/-- A wake that a port in STANDBY detects is counted; one that is ASLEEP wakes (R261, R729). -/
theorem exec_wakeSignal_detected {w : State} (hu : u = s.tick t) (hstandby : u.rd FB_STAT_XCVR p = 1) (hen : u.flag FB_WAKE_WAKE_EN p = true)
    (hnew : u.rdA PM_PSLP_ASTATE 0 p ≠ 5) (hw : w = ((u.fbEvt p 11).xcvrEvt p 3).bump PM_WAKES_COUNT 0) :
    exec (.wakeSignal t p) s = if w.fstate p ≠ fbAsleep then .next w
      else .next ((((w.wrA PM_PSLP_ASTATE 0 p 5).setAn p fun a => { a with wokenAt := w.now }).wakeEvent p
        (if (w.rdA PM_ARD1_WGATE 0 p != 0) = true then 4 else 1)).handWaiting) := by
  have hacts : ¬ (u.rd FB_STAT_XCVR p ≠ 1 ∨ (!u.flag FB_WAKE_WAKE_EN p) = true ∨ u.rdA PM_PSLP_ASTATE 0 p = 5) := by
    simp [hstandby, hen, hnew]
  subst hw
  change execWakeSignal t p s = _
  simp only [execWakeSignal, ← hu, if_neg hacts]

/-- A reply whose lifetime has passed is found under its sequence value (R328). -/
theorem exec_replyExpiry_passed {q : Nat} {e : QEntry} {w : State} (hu : u = s.tick t) (hw : w = (u.checkPtrs p).settleFaults)
    (hfind : (w.queue p).entries.find? (fun e => e.isReply && e.seq == q) = some e) (hlife : w.rd PQ_CFG_RLIFE p * 16 * w.nbt p ≠ 0)
    (hpassed : e.born + w.rd PQ_CFG_RLIFE p * 16 * w.nbt p ≤ w.now) :
    exec (.replyExpiry t p q) s = if e.inflight then .next (w.setEntry p e fun e => { e with expired := true })
      else .next ((w.freeEntry p e false 0).bump PQ_RSV_EXPIRED_COUNT p) := by
  have hdue : ¬ (w.rd PQ_CFG_RLIFE p * 16 * w.nbt p = 0 ∨ w.now < e.born + w.rd PQ_CFG_RLIFE p * 16 * w.nbt p) :=
    not_or.mpr ⟨hlife, Nat.not_lt.mpr hpassed⟩
  change execReplyExpiry t p q s = _
  simp only [execReplyExpiry, ← hu, ← hw, hfind, if_neg hdue]

end

/-- Settles O11: each event acts on the transceiver, lease, reply or queue that it names. -/
theorem transceivers : Obligations.Transceivers := by
  unfold Obligations.Transceivers
  refine ⟨?txdom, ?busdom, ?busdomEnds, ?detected, ?wakes, ?modeDone, ?tokens, ?expired, ?rebuilt⟩
  case txdom =>
    intro s u t p hu hnormal
    change execTxdom t p s = _
    simp [execTxdom, ← hu, hnormal]
  case busdom =>
    intro s u t p hu hbegins hsupplied
    change execBusdom t p true s = _
    simp [execBusdom, ← hu, hbegins, hsupplied]
  case busdomEnds =>
    intro s u t p hu
    refine ⟨u.put FB_STAT_BUSDOM p false, ?_, State.rd_wr_same u FB_STAT_BUSDOM p 0, rfl,
      u.regsBut_wr u _ FB_STAT_BUSDOM p _ (u.regsBut_refl _) (List.mem_singleton_self _)⟩
    change execBusdom t p false s = _
    simp [execBusdom, ← hu]
  case detected =>
    intro s u t p w hu hstandby hen hnew hw hawake
    rw [exec_wakeSignal_detected hu hstandby hen hnew hw, if_pos hawake]
  case wakes =>
    intro s u t p w hu hstandby hen hnew hw hasleep
    rw [exec_wakeSignal_detected hu hstandby hen hnew hw, if_neg (not_not.mpr hasleep)]
    simp only [bne_iff_ne, ite_not]
  case modeDone =>
    intro s u t p m hu hmode
    change execTransceiverModeDone t p s = _
    simp [execTransceiverModeDone, ← hu, hmode]
  case tokens =>
    intro s u t l x hu hlease
    change execTokens t l s = _
    simp [execTokens, ← hu, hlease]
  case expired =>
    intro s u t p q e w hu hw hfind hlife hpassed
    rw [exec_replyExpiry_passed hu hw hfind hlife hpassed]
    split <;> rfl
  case rebuilt =>
    intro s u t p hu hresetting
    change execQueueRebuildDone t p s = _
    simp [execQueueRebuildDone, ← hu, hresetting]

end Sys2Proof.Machine
end

section
/-! PROOFS. Receive registers (chapters 06 and 07) and the time unit (chapter 09). -/

namespace Sys2Proof.Machine

/-! ### The queue head, mailboxes and the low mark -/

section

variable {s u : State} {t m p : Nat} {f : Func}

/-- A served read of PQ_HEAD0 is the read of the head (R336). -/
theorem exec_pqHead0_taken (hu : u = s.tick t) (hp : p < 64) (htakes : u.takesRead f (0x28000C + p * 0x1000) = true) :
    exec (.pqHead0 t f p) s = .next ((u.readHead f p).1.emit (.readDone f (0x28000C + p * 0x1000) [(u.readHead f p).2])) := by
  change execPqHead0 t f p s = _
  rw [execPqHead0, ← hu, if_pos hp, State.hostRead_takes _ _ _ _ htakes]

theorem exec_mbOpen_taken (hu : u = s.tick t) (htakes : u.takesRead f (mbOff m 0) = true) :
    exec (.mbOpen t f m) s = .next ((u.openBox f m).1.emit (.readDone f (mbOff m 0) [(u.openBox f m).2])) := by
  change execMbOpen t f m s = _
  rw [execMbOpen, ← hu, State.hostRead_takes _ _ _ _ htakes]

theorem exec_mbClose_taken (hu : u = s.tick t) (htakes : u.takesRead f (mbOff m 31) = true) :
    exec (.mbClose t f m) s = .next ((u.closeBox m).1.emit (.readDone f (mbOff m 31) [(u.closeBox m).2])) := by
  change execMbClose t f m s = _
  rw [execMbClose, ← hu, State.hostRead_takes _ _ _ _ htakes]

end

/-- Settles O12: each register's read is served as the state of its queue or mailbox says. -/
theorem receiveRegisters : Obligations.ReceiveRegisters := by
  unfold Obligations.ReceiveRegisters
  refine ⟨?allInflight, ?waits, ?opens, ?closes, ?openUnpowered, ?closeUnpowered, ?autoClose, ?lowMark⟩
  case allInflight =>
    intro s u t f p w x hu hp htakes hinflight hw hx
    subst hw hx
    rw [exec_pqHead0_taken hu hp htakes, State.readHead, if_pos hinflight]
  case waits =>
    intro s u t f p x hu hp htakes hwaits hx
    subst hx
    rw [exec_pqHead0_taken hu hp htakes, State.readHead, hwaits]
    rfl
  case opens =>
    intro s u t f m hu htakes hon
    rw [exec_mbOpen_taken hu htakes, State.openBox, if_pos hon]
  case closes =>
    intro s u t f m hu htakes hon
    rw [exec_mbClose_taken hu htakes, State.closeBox, if_pos hon]
  case openUnpowered =>
    intro s u t f m hu htakes hoff
    rw [exec_mbOpen_taken hu htakes, State.openBox, hoff]
    rfl
  case closeUnpowered =>
    intro s u t f m hu htakes hoff
    rw [exec_mbClose_taken hu htakes, State.closeBox, hoff]
    rfl
  case autoClose =>
    intro s u t m q hu hopen hdue
    change execMailboxAutoClose t m s = _
    simp only [execMailboxAutoClose, ← hu, hopen, if_pos (show u.now ≥ q.at_ + 100 * tqPerUs from hdue)]
  case lowMark =>
    intro s u t f hu htakes
    refine ⟨u.wr FS_LOW_LOW 0 (u.rd FS_FREE_FREE 0), ?_, u.rd_wr_same FS_LOW_LOW 0 _, rfl,
      u.regsBut_wr u _ FS_LOW_LOW 0 _ (u.regsBut_refl _) (List.mem_singleton_self _)⟩
    change execLowclr t f s = _
    rw [execLowclr, ← hu, State.hostWrite_takes _ _ _ _ htakes]

/-! ### The time master -/

/-- Settles O13: each event of the time unit acts where its conditions stand. -/
theorem timeMaster : Obligations.TimeMaster := by
  unfold Obligations.TimeMaster
  refine ⟨?sync, ?send, ?becomes, ?loss, ?holdover, ?slew, ?delay, ?pps⟩
  case sync =>
    intro s u t port x w hu htyp hw hok
    subst hw
    change execSyncCell t port x s = _
    simp [execSyncCell, ← hu, htyp, hok]
  case send =>
    intro s u t w seq hu hmaster hpri hseq hw
    subst hw hseq
    change execSyncSend t s = _
    simp only [execSyncSend, ← hu, hmaster, beq_eq_false_iff_ne.mpr hpri]
    rfl
  case becomes =>
    intro s u t w x hu hpri hslave himage hsilent hw hx
    have hdue : ¬ (decide (u.rd TU_CFG_TMPRI 0 = 0) || u.flag TU_STAT_MASTER 0 || u.noImage
        || decide (u.now < u.time.betterAt + (4 + u.rd TU_CFG_TMPRI 0) * u.rd TU_SYNC_SYNCPER 0 * 125 * tqPerUs)) = true := by
      simp [hpri, hslave, himage, hsilent]
    subst hw hx
    change execMasterTimeout t s = _
    simp only [execMasterTimeout, ← hu, if_neg hdue]
  case loss =>
    intro s u t hu hslave hsilent
    change execReferenceLoss t s = _
    simp [execReferenceLoss, ← hu, hslave, hsilent]
  case holdover =>
    intro s u t hu hstate hmax hlong
    change execHoldoverTimeout t s = _
    simp [execHoldoverTimeout, ← hu, hstate, hmax, hlong]
  case slew =>
    intro s u t hu hdone
    refine ⟨u.put TU_STAT_SLEW 0 false, ?_, u.rd_wr_same TU_STAT_SLEW 0 0, rfl,
      u.regsBut_wr u _ TU_STAT_SLEW 0 _ (u.regsBut_refl _) (List.mem_singleton_self _)⟩
    change execSlewEnd t s = _
    simp [execSlewEnd, ← hu, hdone]
  case delay =>
    intro s u t port hu hport hup
    have hruns : ¬ ((!isRingPort port) = true ∨ u.lstate port ≠ 4) := by simp [isRingPort, hport, hup]
    change execDelayMeasure t port s = _
    simp only [execDelayMeasure, ← hu, if_neg hruns]
  case pps =>
    intro s u t a w hu hedge hsilent hw
    subst hw
    change execPpsInputLoss t s = _
    simp only [execPpsInputLoss, ← hu, hedge, if_neg (Nat.not_lt.mpr hsilent), Bool.not_eq_true', Bool.and_eq_true, beq_iff_eq]
    split_ifs <;> rfl

/-! ### Time commands -/

section

variable {s u : State} {t line sec p : Nat} {f : Func} {v w : State}

/-- A served completing write of TU_SET (R449). -/
theorem exec_tuSet_taken {x : Nat} (hu : u = s.tick t) (htakes : u.takesWrite f 0x80048 = true)
    (hw : w = u.commitGroup f ⟨.tu, 0, 0, 0x48, false⟩ 0x40 3 x) :
    exec (.tuSet t f x) s = .next (if w.tn f ≠ w.timeOwner then w
      else
        let y := (w.setFabric.1.wr TU_SETRES_SEQ 0 (w.setFabric.1.rd TU_SETRES_SEQ 0 + 1)).wr TU_SETRES_RESULT 0 w.setFabric.2
        if w.setFabric.2 ≤ 2 then y.evt TU_EVT_EVT 0 11 else y) := by
  subst hw
  change execTuSet t f x s = _
  rw [execTuSet, ← hu, State.hostWrite_takes _ _ _ _ htakes]

/-- A second boundary of a line that has not had it yet: suppressed after a step, passed over, or a pulse (R456, R457, R458). -/
theorem exec_ppsOn_boundary (hu : u = s.tick t) (hline : line < 192) (hsec : sec = u.ns / 1000000000) (hnew : tget 0 u.time.ppsSec line < sec)
    (hv : v = u.setTime fun y => { y with ppsSec := tset 0 y.ppsSec line sec })
    (hw : w = if v.isPps (line / 16) (line % 16) = false ∨ v.bankForced (line / 16) = true then v
      else v.setBank (line / 16) fun d => { d with ppsWait := clearBitAt d.ppsWait (line % 16) }) :
    exec (.ppsOn t line) s = if w.flag TU_STAT_SUPP_PEND 0 then
        .next (((w.put TU_STAT_SUPP_PEND 0 false).bump TU_PPS_SUPP_COUNT 0).setTime fun y => { y with suppSec := some sec })
      else if w.isPps (line / 16) (line % 16) = false ∨ w.time.suppSec = some sec ∨ w.ppsGate = false then .next w
      else .next ((((w.setTime fun y => { y with ppsOff := tset 0 y.ppsOff line (y.ivl + w.rd TU_PPS_PPSW 0 * 1000000 * ivlNs) }).setBank
        (line / 16) fun d => { d with pps := setBitAt d.pps (line % 16) }).refreshDrive (line / 16)).evt TU_EVT_EVT 0 4) := by
  have hdue : ¬ (decide (line ≥ 192) = true ∨ decide (sec ≤ tget 0 u.time.ppsSec line) = true) := by
    simp only [decide_eq_true_eq]
    omega
  change execPpsOn t line s = _
  simp only [execPpsOn, ← hu, ← hsec, ← hv, Bool.or_eq_true, Bool.not_eq_true', if_neg hdue, ← hw]

/-- The start of a cycle that a time-triggered master has not seen: a reference message that still waits is late (R461, R462). -/
theorem exec_ttCycleStart_due {k : Nat} (hu : u = s.tick t) (hrole : u.ttRole p = 1) (hlen : u.rdA TT_RD3_CYC_LEN 0 p ≠ 0)
    (horg : u.rdA TT_RD4_ORIGIN 0 p * 1000 ≤ u.ns) (hk : k = (u.ns - u.rdA TT_RD4_ORIGIN 0 p * 1000) / (u.rdA TT_RD3_CYC_LEN 0 p * 1000))
    (hnew : (u.ttSt p).seenNs < u.rdA TT_RD4_ORIGIN 0 p * 1000 + k * (u.rdA TT_RD3_CYC_LEN 0 p * 1000))
    (hv : v = u.setTt p fun x => { x with seenNs := u.ns })
    (hw : w = if (v.queue p).entries.any (fun e => match e.src with | .device _ .reference => !e.expired | _ => false) then
      ((v.withdrawDev p .reference).settleFaults.ttCount TT_RD11_LATE p).ttMaster p 2 else v) :
    exec (.ttCycleStart t p) s = .next (w.submitDev p .reference (w.refFrame p k)).1 := by
  have hruns : ¬ (u.ttRole p ≠ 1 ∨ u.rdA TT_RD3_CYC_LEN 0 p * 1000 = 0 ∨ u.ns < u.rdA TT_RD4_ORIGIN 0 p * 1000) := by
    omega
  subst hk hv hw
  change execTtCycleStart t p s = _
  simp only [execTtCycleStart, ← hu, if_neg hruns, if_neg (Nat.not_le.mpr hnew)] <;> rfl

end

/-- The four counters that TTCLR clears. -/
def ttCounters : List Fld := [TT_RD11_LATE, TT_RD11_DEFER, TT_RD11_SKIP, TT_RD12_TIMEOUT]

/-- Clearing counters of one port one after the other clears each as the state before all of them says. -/
theorem State.rdA_foldl_clearCount (u : State) (i j : Nat) {g : Fld} {l : List Fld} (hg : g ∈ l) (hkeys : (l.map fun x => x.key 0 0).Nodup) :
    (l.foldl (fun (w : State) f => w.clearCount f i j) u).rdA g i j = u.cleared g i j (2 ^ g.w - 1) % 2 ^ g.w := by
  have hkept : ∀ (l : List Fld) (u : State), g.key 0 0 ∉ l.map (fun x => x.key 0 0) →
      (l.foldl (fun (w : State) f => w.clearCount f i j) u).rdA g i j = u.rdA g i j := by
    intro l
    induction l with
    | nil => exact fun _ _ => rfl
    | cons a l ih =>
      intro u hne
      rw [List.map_cons, List.mem_cons, not_or] at hne
      rw [List.foldl_cons, ih _ hne.2, State.clearCount, State.rdA_wrA_other _ _ _ _ _ _ hne.1]
  induction l generalizing u with
  | nil => cases hg
  | cons a l ih =>
    rw [List.map_cons, List.nodup_cons] at hkeys
    rw [List.foldl_cons]
    rcases List.mem_cons.mp hg with rfl | hmem
    · rw [hkept l _ hkeys.1, State.clearCount, State.rdA_wrA_same]
    · have hne : g.key 0 0 ≠ a.key 0 0 := fun h => hkeys.1 (h ▸ List.mem_map_of_mem hmem)
      rw [ih _ hmem hkeys.2, State.clearCount, State.cleared_wrA_other _ _ _ _ _ _ _ hne]

/-- Clearing counters touches the counters and no more. -/
theorem State.regsBut_foldl_clearCount (u : State) (i j : Nat) (l : List Fld) :
    u.regsBut (l.foldl (fun (w : State) f => w.clearCount f i j) u) (l.map fun g => g.key i j) := by
  suffices h : ∀ (k : List Fld) (v : State), k ⊆ l → u.regsBut v (l.map fun g => g.key i j) →
      u.regsBut (k.foldl (fun (w : State) f => w.clearCount f i j) v) (l.map fun g => g.key i j) from
    h l u (List.Subset.refl l) (u.regsBut_refl _)
  intro k
  induction k with
  | nil => exact fun _ _ h => h
  | cons a k ih =>
    intro v hsub hv
    obtain ⟨ha, hk⟩ := List.cons_subset.mp hsub
    exact ih _ hk (u.regsBut_wrA v _ a i j _ hv (List.mem_map_of_mem ha))

/-- Settles O14: settings act as their group's commit says, deadlines where they have come, and TTCLR clears counter by counter. -/
theorem timeCommands : Obligations.TimeCommands := by
  unfold Obligations.TimeCommands
  refine ⟨?setOwner, ?setOther, ?alarm, ?disarm, ?fires, ?pulse, ?suppressed, ?noPulse, ?pulseEnds, ?cycle, ?timeout, ?clears⟩
  case setOwner =>
    intro s u t f v k w x y hu htakes hw howner hx hk hy
    subst hy hx hk
    rw [exec_tuSet_taken hu htakes hw, if_neg (not_not.mpr howner)]
  case setOther =>
    intro s u t f v w hu htakes hw hother
    rw [exec_tuSet_taken hu htakes hw, if_pos hother]
  case alarm =>
    intro s u t f v w hu htakes hw
    subst hw
    change execTuAlarm t f v s = _
    rw [execTuAlarm, ← hu, State.hostWrite_takes _ _ _ _ htakes]
  case disarm =>
    intro s u t f hu htakes
    refine ⟨u.put TU_ALCTL_ARMED 0 false, ?_, u.rd_wr_same TU_ALCTL_ARMED 0 0, rfl,
      u.regsBut_wr u _ TU_ALCTL_ARMED 0 _ (u.regsBut_refl _) (List.mem_singleton_self _)⟩
    change execAlarmDisarm t f s = _
    rw [execAlarmDisarm, ← hu, State.hostWrite_takes _ _ _ _ htakes]
  case fires =>
    intro s u t hu harmed hdue
    have hfires : (u.flag TU_ALCTL_ARMED 0 && decide (u.alarmTime ≤ u.time.fab / 2 ^ 24)) = true := by
      rw [harmed, decide_eq_true hdue]
      rfl
    change execAlarmFire t s = _
    simp only [execAlarmFire, ← hu, if_pos hfires, State.fireAlarm]
  case pulse =>
    intro s u t line sec v w x hu hline hsec hnew hv hw hpend hpps hsupp hgate hx
    have hpulses : ¬ (w.isPps (line / 16) (line % 16) = false ∨ w.time.suppSec = some sec ∨ w.ppsGate = false) := by
      simp [hpps, hsupp, hgate]
    subst hx
    rw [exec_ppsOn_boundary hu hline hsec hnew hv hw, if_neg (Bool.not_eq_true _ ▸ hpend), if_neg hpulses]
  case suppressed =>
    intro s u t line sec v w hu hline hsec hnew hv hw hpend
    rw [exec_ppsOn_boundary hu hline hsec hnew hv hw, if_pos hpend]
  case noPulse =>
    intro s u t line sec v w hu hline hsec hnew hv hw hpend hstops
    rw [exec_ppsOn_boundary hu hline hsec hnew hv hw, if_neg (Bool.not_eq_true _ ▸ hpend), if_pos hstops]
  case pulseEnds =>
    intro s u t line hu hon hdue
    change execPpsOff t line s = _
    simp [execPpsOff, ← hu, hon, hdue]
  case cycle =>
    intro s u t p k v w hu hrole hlen horg hk hnew hv hw
    exact exec_ttCycleStart_due hu hrole hlen horg hk hnew hv hw
  case timeout =>
    intro s u t p hu hrole hsync hdue
    change execTtTimeout t p s = _
    simp only [execTtTimeout, ← hu]
    exact if_pos ⟨hrole, hsync, hdue⟩
  case clears =>
    intro s u t f hu htakes
    refine ⟨ttCounters.foldl (fun (w : State) g => w.clearCount g 0 (u.rd TT_SEL_PORT 0)) u, ?_, rfl,
      u.regsBut_foldl_clearCount 0 _ ttCounters, fun g hg => u.rdA_foldl_clearCount 0 _ hg (by decide)⟩
    change execTtClr t f s = _
    rw [execTtClr, ← hu, State.hostWrite_takes _ _ _ _ htakes]
    rfl

end Sys2Proof.Machine
end

section
/-! PROOFS. Serial ports and discrete banks (chapter 10). -/

namespace Sys2Proof.Machine

/-! ### Receiving -/

section

variable {s u : State} {t n : Nat} {c : SerialChar}

/-- A character at an enabled port whose receiver is ready, and that does not read its own transmission back, is received (R475, R480). -/
theorem exec_character_received {x : CharRead} {w : State} (hu : u = s.tick t) (hx : x = u.readChar n c) (hstart : x.falseStart = false)
    (hforeign : u.flag SP_CFG_DUPLEX n = true ∨ (u.spt n).cur = none) (hstate : u.spState n = spEnabled) (hready : (u.spt n).rxReady = true)
    (hw : w = (u.charFaults n x).lineActive n) :
    exec (.character t n c) s = .next (if w.flag SP_CFG_ADDRM n = true ∧ x.addr = true then w.addrChar n x else w.dataChar n x) := by
  have hecho : (!u.flag SP_CFG_DUPLEX n && (u.spt n).cur.isSome) = false := by
    rcases hforeign with hfull | hidle
    · rw [hfull]; rfl
    · rw [hidle]; exact Bool.and_false _
  subst hx hw
  change execCharacter t n c s = _
  simp [execCharacter, ← hu, hstart, hstate, hready, hecho, spDraining, spEnabled]

end

/-- Settles O15: each line event acts as the state of the port and of its receiver says. -/
theorem serialReceive : Obligations.SerialReceive := by
  unfold Obligations.SerialReceive
  refine ⟨?received, ?echo, ?ignored, ?idle, ?lowLine, ?ready⟩
  case received =>
    intro s u t n c x w hu hx hstart hforeign hstate hready hw
    exact exec_character_received hu hx hstart hforeign hstate hready hw
  case echo =>
    intro s u t n c x hu hx hstart hhalf hsends hstate
    have hsome : (u.spt n).cur.isSome = true := Option.isSome_iff_ne_none.mpr hsends
    subst hx
    change execCharacter t n c s = _
    simp [execCharacter, ← hu, hstart, hhalf, hsome, hstate, spDraining, spEnabled]
  case ignored =>
    intro s u t n c hu hstart hforeign hstate
    have hecho : (!u.flag SP_CFG_DUPLEX n && (u.spt n).cur.isSome) = false := by
      rcases hforeign with hfull | hidle
      · rw [hfull]; rfl
      · rw [hidle]; exact Bool.and_false _
    change execCharacter t n c s = _
    rcases hstate with hdraining | ⟨henabled, hnotReady⟩
    · simp [execCharacter, ← hu, hstart, hecho, hdraining, spDraining, spEnabled]
    · simp [execCharacter, ← hu, hstart, hecho, henabled, hnotReady, spDraining, spEnabled]
  case idle =>
    intro s u t n hu hdue
    change execIdleClose t n s = _
    simp only [execIdleClose, ← hu, if_neg (Nat.not_lt.mpr hdue)]
    cases (u.spt n).rec_ <;> rfl
  case lowLine =>
    intro s u t n low w r hu hstate hready hlow hw hr
    have hlong : ¬ (decide (u.spState n < spDraining) || decide (low < u.spBits n (u.sendBits n))) = true := by
      simp [hstate, spDraining, spEnabled, hlow]
    have hruns : ¬ (decide (u.spState n ≠ spEnabled) || !(u.spt n).rxReady) = true := by simp [hstate, hready]
    subst hr
    change execLineBreak t n low s = _
    simp only [execLineBreak, ← hu, if_neg hlong, if_neg hruns, ← hw]
    cases (w.spt n).rec_ <;> rfl
  case ready =>
    intro s u t n hu hstate hdue
    change execSpReceiverReady t n s = _
    simp [execSpReceiverReady, ← hu, hstate, hdue]

/-! ### Sending -/

section

variable {s u : State} {t n bits : Nat} {f : Func}

theorem exec_spEnable_taken (hu : u = s.tick t) (hn : n < 24) (hen : bitAt bits 0 = true) (htakes : u.takesWrite f (spOff n 4) = true) :
    exec (.spEnable t f n bits) s = .next (u.spCommand n bits) := by
  change execSpEnable t f n bits s = _
  simp only [execSpEnable, ← hu, if_pos hen, State.spOwnerCmd, if_neg (Nat.not_le.mpr hn), State.hostWrite_takes _ _ _ _ htakes]

theorem exec_spDisable_taken (hu : u = s.tick t) (hn : n < 24) (hnot : bitAt bits 0 = false) (htakes : u.takesWrite f (spOff n 4) = true) :
    exec (.spDisable t f n bits) s = .next (u.spCommand n bits) := by
  change execSpDisable t f n bits s = _
  simp only [execSpDisable, ← hu, hnot, Bool.false_eq_true, if_false, State.spOwnerCmd, if_neg (Nat.not_le.mpr hn),
    State.hostWrite_takes _ _ _ _ htakes]

theorem State.spCommand_enable {code : Nat} {w : State} (hen : bitAt bits 0 = true)
    (hresult : (w, code) = if u.spState n = spAbsent then (u, 7) else if bitAt bits 1 = true then (u, 2) else if u.spState n = spDisabled then u.spTurnOn n
      else if u.spState n = spDraining ∧ u.flag SP_STAT_PEND_EN n = false then (u.put SP_STAT_PEND_EN n true, 0) else (u, 3)) :
    u.spCommand n bits = (w.wr SP_CMDRES_RESULT n code).wr SP_CMDRES_CMD_SEQ n (w.rd SP_CMDRES_CMD_SEQ n + 1) := by
  simp only [State.spCommand, hen, Bool.true_beq, if_true, Bool.not_eq_true', ← hresult]

theorem State.spCommand_disable {code : Nat} {w : State} (hnot : bitAt bits 0 = false)
    (hresult : (w, code) = if u.spState n = spAbsent then (u, 7) else if bitAt bits 1 = false then (u, 2)
      else if u.spState n = spDisabled ∨ (u.spState n = spDraining ∧ u.flag SP_STAT_PEND_EN n = false) then (u, 3) else (u.spDisable n, 0)) :
    u.spCommand n bits = (w.wr SP_CMDRES_RESULT n code).wr SP_CMDRES_CMD_SEQ n (w.rd SP_CMDRES_CMD_SEQ n + 1) := by
  simp only [State.spCommand, hnot, Bool.false_beq, Bool.false_eq_true, if_false, Bool.not_eq_true', ← hresult]

/-- A served write of TEN_SPTX_GO goes by what its checks find (R488, R489). -/
theorem exec_tenSptxGo_taken {k : Nat} (hu : u = s.tick t) (htakes : u.takesWrite f 0x68 = true) (hk : k = u.tn f) (st : Nat) (l : Option Nat)
    (hcheck : u.sptxCheck k = (st, l)) {w : State}
    (hw : w = match l with
      | some l => ((u.setLrt l fun r => { r with used := r.used + 1 }).setSpt (u.rd TEN_SPTX_SEL_PORT k) fun x => { x with msgs := x.msgs ++
          [⟨k, l, (u.rd TEN_SPTX_RES_SEQ k + 1) % 256, if u.flag TEN_SPTX_SEL_ADDRV k then some (u.rd TEN_SPTX_SEL_ADDR k) else none,
            tget [] u.stage_ k⟩] }).refreshTxq (u.rd TEN_SPTX_SEL_PORT k)
      | none => u) :
    exec (.tenSptxGo t f) s = .next ((((({ w with stage_ := tset [] w.stage_ k [] }).wr TEN_SPTX_RES_SEQ k ((u.rd TEN_SPTX_RES_SEQ k + 1) % 256)).put
      TEN_SPTX_RES_OVF k false).wr TEN_SPTX_RES_FILL k 0).wr TEN_SPTX_RES_STATUS k st) := by
  subst hk hw
  change execTenSptxGo t f s = _
  simp only [execTenSptxGo, ← hu, State.hostWrite_takes _ _ _ _ htakes, hcheck]
  cases l <;> rfl

end

/-- Settles O16: staging, sending and the port's commands, each as its checks and the port's state say. -/
theorem serialTransmit : Obligations.SerialTransmit := by
  unfold Obligations.SerialTransmit
  refine ⟨?select, ?stages, ?queued, ?refused, ?starts, ?ends, ?enableRuns, ?disableRuns, ?enableResult, ?disableResult, ?drained⟩
  case select =>
    intro s u t f v k hu htakes hk
    subst hk
    change execTenSptxSel t f v s = _
    rw [execTenSptxSel, ← hu, State.hostWrite_takes _ _ _ _ htakes]
    rfl
  case stages =>
    intro s u t f n v k all w hu hlow hhigh htakes hk hall hw
    have hn : ¬ (n = 0 ∨ n > 3) := by omega
    subst hk hall hw
    change execTenSptxD t f n v s = _
    rw [execTenSptxD, if_neg hn, ← hu, State.hostWrite_takes _ _ _ _ htakes]
  case queued =>
    intro s u t f k p seq l m w hu htakes hk hp hcheck hseq hm hw
    subst hp hseq hm hw
    exact exec_tenSptxGo_taken hu htakes hk 0 (some l) hcheck rfl
  case refused =>
    intro s u t f k st w hu htakes hk hcheck hw
    subst hw
    exact exec_tenSptxGo_taken hu htakes hk st none hcheck rfl
  case starts =>
    intro s u t n quiet at_ m w x hu hmay hnext hw hat hx
    subst hat hw hx
    change execSpMessageStart t ⟨n, quiet⟩ s = _
    simp only [execSpMessageStart, ← hu, hmay, Bool.not_true, Bool.false_eq_true, if_false, hnext]
  case ends =>
    intro s u t n x w hu hcur hstate hw
    subst hw
    change execSpMessageEnd t n s = _
    simp only [execSpMessageEnd, ← hu, hcur, if_neg (not_not.mpr hstate)]
  case enableRuns =>
    intro s u t f n bits hu hn hen htakes
    exact exec_spEnable_taken hu hn hen htakes
  case disableRuns =>
    intro s u t f n bits hu hn hnot htakes
    exact exec_spDisable_taken hu hn hnot htakes
  case enableResult =>
    intro s u t f n bits code w hu hn hen htakes hresult
    rw [exec_spEnable_taken hu hn hen htakes, State.spCommand_enable hen hresult]
  case disableResult =>
    intro s u t f n bits code w hu hn hnot htakes hresult
    rw [exec_spDisable_taken hu hn hnot htakes, State.spCommand_disable hnot hresult]
  case drained =>
    intro s u t n hu hstate
    change execSpDrainEnd t n s = _
    rw [execSpDrainEnd, ← hu, if_pos hstate]

/-! ### Discrete banks -/

section

variable {s u w : State} {t b line fn : Nat} {rise : Bool}

/-- A level change of a CNT or TS line that the bank sees (R503, R505). -/
theorem exec_fastEdge_seen (hu : u = s.tick t) (hup : u.bankUp b = true) (hfn : u.lineFn b line = fn) (hfast : fn = 3 ∨ fn = 4)
    (hbreak : (u.bank b).breaking line = false) (href : bitAt (u.bank b).refDue line = false) (hchange : bitAt (u.rd DB_IN_LEVEL b) line ≠ rise)
    {x : State} (hx : x =
      let w := u.setLevel b line rise
      let stamp := (w.stampAgo 16).fab / 2 ^ 24
      if fn = 4 then w.reportEdge b ⟨rise, line, stamp / 256 % 2 ^ 64, stamp % 256, (w.stampAgo 16).epoch % 256⟩
      else if rise then
        let v := w.rdA DB_CNT_COUNT b line
        let y := (w.wrA DB_CNT_COUNT b line (v + 1)).note (DB_CNT_COUNT.key b line) .count 1
        if v + 1 = 2 ^ 24 then (y.evt DB_CNTOVF_OVF b line).evt DB_EVT_EVT b 5 else y
      else w) :
    exec (.fastEdge t b line rise) s = .next (if fn = 4 ∧ rise = true ∧ x.flag TU_CFG_PPSIN_EN 0 = true ∧ x.rd TU_PPS_PPSIN_LINE 0 = b * 16 + line
      then x.ppsInput (((u.setLevel b line rise).stampAgo 16).fab / 2 ^ 24) else x) := by
  have hseen : ¬ (!u.bankUp b || (fn != 3 && fn != 4) || (u.bank b).breaking line || bitAt (u.bank b).refDue line
      || bitAt (u.rd DB_IN_LEVEL b) line == rise) = true := by
    rcases hfast with rfl | rfl <;> simp [hup, hbreak, href, hchange]
  subst hx
  change execFastEdge t b line rise s = _
  simp only [execFastEdge, ← hu, hfn, if_neg hseen]
  simp only [Bool.and_eq_true, decide_eq_true_eq, beq_iff_eq, and_assoc]

/-- A served read of DB_TSF0 takes the oldest stamp (R504). -/
theorem exec_dbTsf0_taken {f : Func} (hu : u = s.tick t) (htakes : u.takesRead f (dbOff b 0xB0) = true) :
    exec (.dbTsf0 t f b) s = .next ((u.popStamp f b).1.emit (.readDone f (dbOff b 0xB0) [(u.popStamp f b).2])) := by
  change execDbTsf0 t f b s = _
  rw [execDbTsf0, ← hu, State.hostRead_takes _ _ _ _ htakes]

end

/-- Settles O17: a bank's ticks, edges and commands, each as the bank's supply and the line's function say. -/
theorem discreteBanks : Obligations.DiscreteBanks := by
  unfold Obligations.DiscreteBanks
  refine ⟨?tick, ?tickUnpowered, ?switch, ?pulse, ?stamp, ?count, ?setLines, ?clearLines, ?pulseLines, ?countersClear, ?takesStamp, ?noStamp, ?ocClear,
    ?overcurrent⟩
  case tick =>
    intro s u t b levels hu hup
    change execBankSampleTick t b levels s = _
    rw [execBankSampleTick, ← hu, if_pos hup]
  case tickUnpowered =>
    intro s u t b levels hu hdown
    change execBankSampleTick t b levels s = _
    rw [execBankSampleTick, ← hu, if_neg (Bool.not_eq_true _ ▸ hdown)]
  case switch =>
    intro s u t b line hu hdue
    have hany : ((u.bank b).breaks.any fun x => x.1 == line && decide (x.2 ≤ u.now)) = true := by
      simpa [List.any_eq_true] using hdue
    change execFunctionSwitchStart t b line s = _
    rw [execFunctionSwitchStart, ← hu, if_pos hany]
  case pulse =>
    intro s u t b line hu hup
    change execPulseEnd t b line s = _
    rw [execPulseEnd, ← hu, if_pos hup]
  case stamp =>
    intro s u t b line stamp rise w x hu hup hfn hbreak href hchange hw hstamp hx
    subst hstamp hw
    rw [exec_fastEdge_seen hu hup hfn (.inr rfl) hbreak href hchange (x := x) hx]
    simp
  case count =>
    intro s u t b line rise w x hu hup hfn hbreak href hchange hw hx
    subst hw hx
    rw [exec_fastEdge_seen hu hup hfn (.inl rfl) hbreak href hchange rfl]
    cases rise <;> rfl
  case setLines =>
    intro s u t f b lines hu htakes
    change execDbOset t f b lines s = _
    rw [execDbOset, ← hu, State.hostWrite_takes _ _ _ _ htakes]
  case clearLines =>
    intro s u t f b lines hu htakes
    change execDbOclr t f b lines s = _
    rw [execDbOclr, ← hu, State.hostWrite_takes _ _ _ _ htakes]
  case pulseLines =>
    intro s u t f b lines hu htakes
    change execDbOpulse t f b lines s = _
    rw [execDbOpulse, ← hu, State.hostWrite_takes _ _ _ _ htakes]
  case countersClear =>
    intro s u t f b lines hu htakes
    change execDbCntclr t f b lines s = _
    rw [execDbCntclr, ← hu, State.hostWrite_takes _ _ _ _ htakes]
  case takesStamp =>
    intro s u t f b e rest w x hu htakes hfifo hw hx
    subst hw hx
    rw [exec_dbTsf0_taken hu htakes]
    simp only [State.popStamp, hfifo]
  case noStamp =>
    intro s u t f b x hu htakes hfifo hx
    subst hx
    rw [exec_dbTsf0_taken hu htakes]
    simp only [State.popStamp, hfifo]
  case ocClear =>
    intro s u t f b lines left hu htakes hleft
    subst hleft
    change execDbOc t f b lines s = _
    rw [execDbOc, ← hu, State.hostWrite_takes _ _ _ _ htakes, State.clearOc]
  case overcurrent =>
    intro s u t b line g w x hu hdriven hnew hw hg hx
    have hacts : ¬ (!(u.isOut b line || u.isPps b line) || bitAt (u.rd DB_OC_OC b) line) = true := by
      rcases hdriven with h | h <;> simp [h, hnew]
    subst hx hg hw
    change execOvercurrent t b line s = _
    simp only [execOvercurrent, ← hu, if_neg hacts, Bool.and_eq_true, bne_iff_ne]

/-- Settles O18: a change of the field supply acts where it is one. -/
theorem fieldSupply : Obligations.FieldSupply := by
  unfold Obligations.FieldSupply
  refine ⟨?lost, ?returned, ?unchanged⟩
  case lost =>
    intro s u t b w hu hok hw
    subst hw
    change execVfLost t b s = _
    simp [execVfLost, ← hu, hok]
  case returned =>
    intro s u t b w hu habsent hw
    subst hw
    change execVfRet t b s = _
    simp [execVfRet, ← hu, habsent]
  case unchanged =>
    rintro s u t b i hu (⟨rfl, habsent⟩ | ⟨rfl, hok⟩)
    · change execVfLost t b s = _
      simp [execVfLost, ← hu, habsent]
    · change execVfRet t b s = _
      simp [execVfRet, ← hu, hok]

end Sys2Proof.Machine
end

section
/-! PROOFS. The ring: cells, links, remote requests (chapter 11), and gathers (chapter 12). -/

namespace Sys2Proof.Machine

/-! ### Cells -/

section

variable {s u : State} {t port : Nat} {c : Cell} {i : Instr}

/-- The three request commands are one operation: the cell's op says which command it is (R531, R532, R533). -/
theorem exec_request (hu : u = s.tick t)
    (hi : (c.op = 1 ∧ i = .cellRead t port c) ∨ (c.op = 2 ∧ i = .mboxWrite t port c) ∨ (c.op = 3 ∧ i = .dcmd t port c)) :
    exec i s = .next (u.takeReq port c) := by
  subst hu
  rcases hi with ⟨hop, rfl⟩ | ⟨hop, rfl⟩ | ⟨hop, rfl⟩
  · exact congrArg _ (if_pos hop)
  · exact congrArg _ (if_pos hop)
  · exact congrArg _ (if_pos hop)

theorem exec_rsp_typ (hu : u = s.tick t) (htyp : c.typ = 2) :
    exec (.rsp t port c) s = .next (if (u.accept port c).2 then (u.accept port c).1.rspIn port c else (u.accept port c).1) := by
  change execRsp t port c s = _
  rw [execRsp, ← hu, if_neg (not_not.mpr htyp)]

/-- A request that does not wait in the sink: without acceptance it ends there. -/
theorem State.takeReq_refused (hnew : u.ring_.sink.find? (fun x => x.src == c.src && x.tag == c.tag && x.op == c.op) = none)
    (hok : (u.accept port c).2 = false) : u.takeReq port c = (u.accept port c).1 := by
  simp only [State.takeReq, hnew, hok, Bool.not_false, Bool.true_or, if_true]

theorem State.takeReq_accepted (hnew : u.ring_.sink.find? (fun x => x.src == c.src && x.tag == c.tag && x.op == c.op) = none)
    {w : State} (hw : w = (u.accept port c).1) (hok : (u.accept port c).2 = true) (htyp : c.typ = 1) :
    u.takeReq port c = if w.isForward port = false then w.passBack port c else if c.src = w.node then w.completeCtx c.tag 7 0 0 []
      else if c.dst = w.node then (w.bump RG_RX_REQ_COUNT 0).serve (some (ringOf port)) c
      else if c.hops + 1 ≥ 500 then w.hopLimit (ringOf port) c else w.forward port c := by
  have hgoes : ¬ ((!(u.accept port c).2) || decide (c.typ ≠ 1)) = true := by simp [hok, htyp]
  subst hw
  simp only [State.takeReq, hnew, if_neg hgoes, Bool.not_eq_true']

end

/-- Settles O19: a request is served, returned or forwarded by where it arrived and whose it is. -/
theorem ringCells : Obligations.RingCells := by
  unfold Obligations.RingCells
  refine ⟨?received, ?waiting, ?request, ?response, ?refused⟩
  case received =>
    intro s u t port c w ok hu hport hw hok
    subst hw hok
    change execCellReceive t port c s = _
    rw [execCellReceive, ← hu, if_pos hport]
  case waiting =>
    intro s u t port c q i w hu hi hfind hw
    subst hw
    rw [exec_request hu hi]
    simp only [State.takeReq, hfind]
  case request =>
    intro s u t port c i w hu hi hnew hw hok htyp
    rw [exec_request hu hi, State.takeReq_accepted hnew hw hok htyp]
  case response =>
    intro s u t port c w hu htyp hw hok
    subst hw
    rw [exec_rsp_typ hu htyp, if_pos hok]
    simp only [State.rspIn, Bool.not_eq_true']
  case refused =>
    rintro s u t port c i hu (hi | hi | hi | ⟨htyp, rfl⟩) hnew hok
    · rw [exec_request hu (.inl hi), State.takeReq_refused hnew hok]
    · rw [exec_request hu (.inr (.inl hi)), State.takeReq_refused hnew hok]
    · rw [exec_request hu (.inr (.inr hi)), State.takeReq_refused hnew hok]
    · rw [exec_rsp_typ hu htyp, hok]
      rfl

section

variable {s u : State} {t port : Nat} {c : Cell}

theorem exec_member_typ (hu : u = s.tick t) (htyp : c.typ = 4) :
    exec (.member t port c) s = .next (if (u.accept port c).2 then
      (u.accept port c).1.broadcastIn port c fun s => s.heardMember (ringOf port) c else (u.accept port c).1) := by
  change execMember t port c s = _
  rw [execMember, ← hu, if_neg (not_not.mpr htyp)]

theorem exec_commit_typ (hu : u = s.tick t) (htyp : c.typ = 6) :
    exec (.commit t port c) s = .next (if (u.accept port c).2 then (u.accept port c).1.broadcastIn port c State.takeCommit
      else (u.accept port c).1) := by
  change execCommit t port c s = _
  rw [execCommit, ← hu, if_neg (not_not.mpr htyp)]

theorem exec_consent_typ (hu : u = s.tick t) (htyp : c.typ = 5) :
    exec (.consent t port c) s = .next (if (u.accept port c).2 then (u.accept port c).1.consentIn port c else (u.accept port c).1) := by
  change execConsent t port c s = _
  rw [execConsent, ← hu, if_neg (not_not.mpr htyp)]

theorem exec_delayCell_typ (hu : u = s.tick t) (htyp : c.typ = 7) :
    exec (.delayCell t port c) s = .next (if (u.accept port c).2 then (u.accept port c).1.delayIn port c else (u.accept port c).1) := by
  change execDelayCell t port c s = _
  rw [execDelayCell, ← hu, if_neg (not_not.mpr htyp)]

end

/-- Settles O20: each broadcast cell acts where its ring port accepts it on the forward traffic. -/
theorem ringBroadcasts : Obligations.RingBroadcasts := by
  unfold Obligations.RingBroadcasts
  refine ⟨?memberOrCommit, ?consent, ?delay, ?refused, ?sends, ?forgets⟩
  case memberOrCommit =>
    intro s u t port c i w x hu hi hw hok hx
    subst hw hx
    rcases hi with ⟨htyp, rfl⟩ | ⟨htyp, rfl⟩
    · rw [exec_member_typ hu htyp, if_pos hok, if_pos htyp]
      simp only [State.broadcastIn, Bool.not_eq_true']
    · rw [exec_commit_typ hu htyp, if_pos hok, if_neg (htyp ▸ by decide : c.typ ≠ 4)]
      simp only [State.broadcastIn, Bool.not_eq_true']
  case consent =>
    intro s u t port c x w v hu htyp hw hok hx hv
    subst hx hv hw
    rw [exec_consent_typ hu htyp, if_pos hok]
    simp only [State.consentIn, Bool.not_eq_true']
  case delay =>
    intro s u t port c w hu htyp hw hok
    rw [exec_delayCell_typ hu htyp, if_pos hok, ← hw]
  case refused =>
    intro s u t port c i hu hi hok
    have hnot : ¬ (u.accept port c).2 = true := Bool.not_eq_true _ ▸ hok
    rcases hi with ⟨htyp, rfl⟩ | ⟨htyp, rfl⟩ | ⟨htyp, rfl⟩ | ⟨htyp, rfl⟩
    · rw [exec_member_typ hu htyp, if_neg hnot]
    · rw [exec_consent_typ hu htyp, if_neg hnot]
    · rw [exec_commit_typ hu htyp, if_neg hnot]
    · rw [exec_delayCell_typ hu htyp, if_neg hnot]
  case sends =>
    intro s u t hu himage
    change execMemberSend t s = _
    simp only [execMemberSend, ← hu, himage]
    rfl
  case forgets =>
    intro s u t node hu
    subst hu
    rfl

/-! ### Messages on a lane -/

/-- An IDENT word goes by the port's state after it is kept (R547, R548). -/
theorem exec_ident_word {s u u1 w : State} {t port i v : Nat} (hu : u = s.tick t) (hi : i < 12) (hu1 : u1 = (u.retryDue port).heard port)
    (hw : w = if isRingPort port then u1.wrA RL_NB_IDENT port i v else u1.wrA PL_NB_IDENT (port - 4) i v) :
    exec (.ident t port i v) s = if w.lstate port = 4 then .next (if u1.nb port i ≠ v % 65536 then w.loseLink port 6 else w)
      else if w.lstate port = 3 ∨ w.lstate port = 5 then
        let x := w.setLp port fun p => { p with ident := tset none p.ident i (some (v % 65536)) }
        .next (if (x.lp port).ident.length = 12 then (x.setLp port fun p => { p with ident := [] }).identified port else x)
      else .next w := by
  change execIdent t port i v s = _
  simp only [execIdent, ← hu, ← hu1, if_neg (Nat.not_le.mpr hi), ← hw, bne_iff_ne]

/-- Settles O21: each message proves its lane alive, and acts where the lane's state lets it. -/
theorem linkMessages : Obligations.LinkMessages := by
  unfold Obligations.LinkMessages
  refine ⟨?ack, ?nak, ?credit, ?identUp, ?identTraining, ?keep, ?wrapnote, ?ackTimeout⟩
  case ack =>
    intro s u t port v w x gone hu hw hup hgone hx
    subst hgone hx
    change execAck t port v s = _
    simp only [execAck, ← hu, ← hw, if_neg (not_not.mpr hup)]
    split_ifs <;> rfl
  case nak =>
    intro s u t port v hu hup
    change execNak t port v s = _
    rw [execNak, ← hu, if_neg (not_not.mpr hup)]
  case credit =>
    intro s u t port vc n hu hup hlow hhigh
    have hruns : ¬ ((u.heard port).lstate port ≠ 4 ∨ n = 0 ∨ n > 16) := by omega
    change execCredit t port vc n s = _
    rw [execCredit, ← hu, if_neg hruns]
  case identUp =>
    intro s u t port i v u1 w hu hi hu1 hw hup
    rw [exec_ident_word hu hi hu1 hw, if_pos hup]
  case identTraining =>
    intro s u t port i v u1 w x hu hi hu1 hw hstate hx
    have hnotUp : w.lstate port ≠ 4 := by omega
    subst hx
    rw [exec_ident_word hu hi hu1 hw, if_neg hnotUp, if_pos hstate]
  case keep =>
    intro s u t port hu
    subst hu
    rfl
  case wrapnote =>
    intro s u t port v node w g hu hring hw hup hnode hknown hg
    have hruns : ¬ (w.lstate port ≠ 4 ∨ w.nb port 8 % 256 = 0) := by omega
    subst hnode hg
    change execWrapnote t port v s = _
    simp only [execWrapnote, ← hu, ← hw, hring, Bool.not_true, Bool.false_eq_true, if_false, if_neg hruns]
  case ackTimeout =>
    intro s u t port h rest hu hbuf hup hdue
    change execAckTimeout t port s = _
    simp only [execAckTimeout, ← hu, hbuf]
    exact congrArg _ (if_pos ⟨hup, hdue⟩)

/-! ### Link ports -/

/-- Settles O22: a link port moves where its state and the event let it. -/
theorem linkPorts : Obligations.LinkPorts := by
  unfold Obligations.LinkPorts
  refine ⟨?loss, ?retrain, ?notUp, ?lock, ?retry, ?forget, ?rejected⟩
  case loss =>
    intro s u t port reason hiber hu hreal
    change execLinkLoss t port ⟨reason, hiber⟩ s = _
    rw [execLinkLoss, ← hu]
    exact congrArg _ (if_pos hreal)
  case retrain =>
    intro s u t f port hu htakes
    change execRetrain t f port s = _
    rw [execRetrain, ← hu, State.hostWrite_takes _ _ _ _ htakes]
  case notUp =>
    intro s u t port reason _ hnotUp
    rw [State.loseLink, if_pos hnotUp]
  case lock =>
    intro s u t port w hu hstate hboard himage hw
    have hruns : ¬ (u.lstate port ≠ 1 ∨ u.sys.down = true ∨ u.noImage = true) := by simp [hstate, hboard, himage]
    subst hw
    change execBlockLockHeld t port s = _
    rw [execBlockLockHeld, ← hu, if_neg hruns]
  case retry =>
    intro s u t port a hu hretry hdue
    change execRetryTimerExpiry t port s = _
    simp only [execRetryTimerExpiry, ← hu, State.retryDue, hretry]
    exact congrArg _ (if_pos hdue)
  case forget =>
    intro s u t f port hu htakes
    change execForget t f port s = _
    simp only [execForget, ← hu, State.hostWrite_takes _ _ _ _ htakes, Bool.and_eq_true, beq_iff_eq]
  case rejected =>
    intro s u t port _ hstate
    simp [State.retryEnd, hstate]

/-! ### Remote requests and gathers -/

/-- Settles O23: the window, its timeout and the sleep round act by what the device finds at their instant. -/
theorem remoteRequests : Obligations.RemoteRequests := by
  unfold Obligations.RemoteRequests
  refine ⟨?go, ?timeout, ?start, ?roundTimeout⟩
  case go =>
    intro s u t f v k x w hu htakes hk hx hw
    subst hw hx hk
    change execRemoteGo t f v s = _
    simp only [execRemoteGo, ← hu, State.hostWrite_takes _ _ _ _ htakes, Bool.not_eq_true']
  case timeout =>
    intro s u t tag a c hu hfind hat hdue
    change execRequestTimeout t tag s = _
    simp only [execRequestTimeout, ← hu, State.timeoutDue, hfind, hat]
    exact congrArg _ (if_pos hdue)
  case start =>
    intro s u t f hu htakes
    change execSleepStart t f s = _
    simp only [execSleepStart, ← hu, State.hostWrite_takes _ _ _ _ htakes, ite_not, ne_eq]
  case roundTimeout =>
    intro s u t r hu hsleep hdue
    change execSleepRoundTimeout t s = _
    simp only [execSleepRoundTimeout, ← hu, hsleep]
    exact congrArg _ (if_pos hdue)

/-- Settles O24: a group starts by doorbell or schedule, and its run takes its elements one by one. -/
theorem gathers : Obligations.Gathers := by
  unfold Obligations.Gathers
  refine ⟨?doorbell, ?schedule, ?element⟩
  case doorbell =>
    intro s u t f g k code w hu htakes hk hw hcode
    subst hw hcode hk
    change execGtStart t f g s = _
    rw [execGtStart, ← hu, State.hostWrite_takes _ _ _ _ htakes]
  case schedule =>
    intro s u t g x d w hu hdef hgrant hsched hw
    subst hw
    change execGatherSchedule t g s = _
    simp only [execGatherSchedule, ← hu, hdef, hgrant, Bool.not_true, Bool.false_eq_true, if_false, hsched]
  case element =>
    intro s u t g st v r r' f w z hu hfind helem hf hr hw hz
    subst hz hw hr hf
    change execGatherElementReduce t g s = _
    simp only [execGatherElementReduce, ← hu, hfind, State.reduce, helem]

end Sys2Proof.Machine
end

section
/-! PROOFS. The pair (chapter 13), the interrupt controller's commands and the ends of holds (chapter 14). -/

namespace Sys2Proof.Machine

/-! ### Pair timers -/

section

variable {s u : State} {t port : Nat} {x : LaneCell} {recs : List MirrorRec}

/-- A cell on a pair link acts where its lane accepts it (R604). -/
theorem State.pairIn_link (act : State → State) (hport : port = 4 ∨ port = 5) :
    u.pairIn port x act = if (u.acceptLane port x).2 then act (u.acceptLane port x).1 else (u.acceptLane port x).1 := by
  have hlink : ¬ (isRingPort port = true ∨ port > 5) := by
    rcases hport with rfl | rfl <;> decide
  rw [State.pairIn, if_neg hlink]

theorem exec_mirrorRecs_link (hu : u = s.tick t) (hport : port = 4 ∨ port = 5) :
    exec (.mirrorRecs t ⟨port, x, recs⟩) s = .next (if (u.acceptLane port x).2 then
      (if (u.acceptLane port x).1.mirrors then (u.acceptLane port x).1.takeRecords recs else (u.acceptLane port x).1)
      else (u.acceptLane port x).1) := by
  change execMirrorRecs t ⟨port, x, recs⟩ s = _
  rw [execMirrorRecs, ← hu, State.pairIn_link _ hport]

theorem exec_snapRecs_link {last : Bool} (hu : u = s.tick t) (hport : port = 4 ∨ port = 5) :
    exec (.snapRecs t ⟨port, x, recs⟩ last) s = .next (if (u.acceptLane port x).2 then (u.acceptLane port x).1.takeSnapshot recs last
      else (u.acceptLane port x).1) := by
  change execSnapRecs t ⟨port, x, recs⟩ last s = _
  rw [execSnapRecs, ← hu, State.pairIn_link _ hport]

theorem exec_swapCell_link {epoch : Nat} {record : List Byte} (hu : u = s.tick t) (hport : port = 4 ∨ port = 5) :
    exec (.swapCell t epoch ⟨port, x, recs, record⟩) s = .next (if (u.acceptLane port x).2 then
      (u.acceptLane port x).1.takeSwap epoch recs record else (u.acceptLane port x).1) := by
  change execSwapCell t epoch ⟨port, x, recs, record⟩ s = _
  rw [execSwapCell, ← hu, State.pairIn_link _ hport]

/-- The records of a resync at a unit that syncs: the last of them completes it (R609, R615). -/
theorem State.takeSnapshot_syncing {w : State} {last : Bool} (hmirrors : w.mirrors = true) (hstate : w.prState = prSyncing) :
    w.takeSnapshot recs last = if last then
        let v := ((recs.foldl (fun (y : State) (r : MirrorRec) => y.applyRecord r.body) w).put PR_STAT_MIRROR_OK 0 true).prEvt 6
        (v.eventLim v.pairOwner 0x0904 0 (1 :: leBytes 3 (v.rd PR_MSEQ_MSEQ 0))).role prStandby 1
      else recs.foldl (fun (y : State) (r : MirrorRec) => y.applyRecord r.body) w := by
  have hruns : ¬ (!w.mirrors || w.prState != prSyncing) = true := by simp [hmirrors, hstate]
  rw [State.takeSnapshot, if_neg hruns]

theorem State.takeSwap_standby {w : State} {epoch : Nat} {record : List Byte} (hmirrors : w.mirrors = true) (hstate : w.prState = prStandby) :
    w.takeSwap epoch recs record =
      let y := w.takeRecords recs
      let v := if recordRefused (y.rd CU_RUN1_SCHEMA_MIN 0) (y.rd CU_RUN0_SCHEMA 0) y.img.hash record then y.refuseSwap else y
      (v.wr PR_EPOCH_EPOCH 0 (max (v.rd PR_EPOCH_EPOCH 0) epoch)).role prActive 5 := by
  have hruns : ¬ (!w.mirrors || w.prState != prStandby) = true := by simp [hmirrors, hstate]
  rw [State.takeSwap, if_neg hruns]

end

/-- Settles O25: each timer acts where its time has passed and the unit's state lets it. -/
theorem pairTimers : Obligations.PairTimers := by
  unfold Obligations.PairTimers
  refine ⟨?sends, ?linkBeat, ?ringBeat, ?path, ?join, ?contest, ?isolation, ?clove, ?mirror⟩
  case sends =>
    intro s u t w x hu hpaired hw hx
    subst hx hw
    change execHbSend t s = _
    simp only [execHbSend, ← hu, hpaired, Bool.not_true, Bool.false_eq_true, if_false]
  case linkBeat =>
    intro s u t path x hb w ok hu hpath hpaired hw hok
    have hgoes : ¬ (path > 2 ∨ (!u.flag PR_CFG_PAIRED 0) = true) := by simp [hpaired]; omega
    subst hw hok
    change execHb t path ⟨x, hb⟩ s = _
    simp only [execHb, ← hu, if_neg hgoes, if_neg (Nat.ne_of_lt hpath)]
  case ringBeat =>
    intro s u t x hb hu hpaired
    change execHb t 2 ⟨x, hb⟩ s = _
    simp [execHb, ← hu, hpaired]
  case path =>
    intro s u t path w hu hpath hflag hsilent hnone hw
    have hdue : u.pathDue path = true := by simp [State.pathDue, hflag, hsilent]
    have hdies : ¬ (path > 2 ∨ (!u.pathDue path) = true ∨ u.hbNow path = true) := by
      simp [hdue, hnone]; omega
    subst hw
    change execPathTimeout t path s = _
    simp only [execPathTimeout, ← hu, if_neg hdies, Bool.or_eq_true]
  case join =>
    intro s u t a hu hjoin hstate hdue
    change execJoinTimeout t s = _
    simp only [execJoinTimeout, ← hu, hjoin]
    exact congrArg _ (if_pos ⟨hstate, hdue⟩)
  case contest =>
    intro s u t d hu hcontest hstate hdue hnone
    have hcloses : u.prState = prContest ∧ u.now ≥ d + 800 * tqPerUs ∧ ¬ [0, 1, 2].any u.hbNow = true :=
      ⟨hstate, hdue, Bool.not_eq_true _ ▸ hnone⟩
    change execContestClose t s = _
    simp only [execContestClose, ← hu, hcontest, if_pos hcloses]
  case isolation =>
    intro s u t hu hstate hisolated hdue
    change execIsolationTimeout t s = _
    simp only [execIsolationTimeout, ← hu]
    exact congrArg _ (if_pos ⟨hstate, hisolated, hdue⟩)
  case clove =>
    intro s u t hu hpaired hacting halone hstate hdue
    change execClovePeriodic t s = _
    simp [execClovePeriodic, ← hu, hpaired, hacting, halone, hstate, hdue]
  case mirror =>
    intro s u t port x recs w hu hport hw hok hmirrors
    subst hw
    rw [exec_mirrorRecs_link hu hport, if_pos hok, if_pos hmirrors]

/-! ### The planned swap -/

/-- Settles O26: a resync and a swap go by what the lane accepts and by the unit's state. -/
theorem pairSwap : Obligations.PairSwap := by
  unfold Obligations.PairSwap
  refine ⟨?snapshot, ?lastSnapshot, ?swaps, ?refused, ?stopped, ?takesOver, ?notAccepted⟩
  case snapshot =>
    intro s u t port x recs w hu hport hw hok hmirrors hstate
    rw [exec_snapRecs_link hu hport, if_pos hok, ← hw, State.takeSnapshot_syncing hmirrors hstate]
    rfl
  case lastSnapshot =>
    intro s u t port x recs w v hu hport hw hok hmirrors hstate hv
    subst hv
    rw [exec_snapRecs_link hu hport, if_pos hok, ← hw, State.takeSnapshot_syncing hmirrors hstate, if_pos rfl]
  case swaps =>
    intro s u t f w x hu htakes hresult hw hx
    subst hx hw
    change execSwap t f s = _
    simp only [execSwap, ← hu, State.hostWrite_takes _ _ _ _ htakes, hresult]
    rfl
  case refused =>
    intro s u t f r hu htakes hresult hr
    change execSwap t f s = _
    simp only [execSwap, ← hu, State.hostWrite_takes _ _ _ _ htakes, hresult, if_pos hr]
  case stopped =>
    intro s u t y i ho w x a b hu hswap hsent hall hi hho hw ha hx hb
    have hgoes : ¬ (y.sent = true ∨ y.stopped.length < 64) := by simp [hsent, hall]
    subst hi hho hb hx ha hw
    change execSwapPortsStopped t s = _
    simp only [execSwapPortsStopped, ← hu, hswap, if_neg hgoes, Bool.or_eq_true]
  case takesOver =>
    intro s u t port epoch x recs record w y v hu hport hw hok hmirrors hstate hy hv
    subst hv hy
    rw [exec_swapCell_link hu hport, if_pos hok, ← hw, State.takeSwap_standby hmirrors hstate]
  case notAccepted =>
    intro s u t port epoch x recs last record i hu hi hport hok
    have hnot : ¬ (u.acceptLane port x).2 = true := Bool.not_eq_true _ ▸ hok
    rcases hi with rfl | rfl | rfl
    · rw [exec_snapRecs_link hu hport, if_neg hnot]
    · rw [exec_mirrorRecs_link hu hport, if_neg hnot]
    · rw [exec_swapCell_link hu hport, if_neg hnot]

/-! ### Sources and targets -/

section

variable {u : State}

/-- P of an existing source is set where its PRI is not 0 (R641). -/
theorem State.setPend_eq {k : Nat} (hk : k < 1024) :
    u.setPend k = if u.rdA IC_SRC_PRI 0 k ≠ 0 then (u.wrA IC_SRC_P 0 k 1).settleAll k else u := by
  have hthere : ¬ 1024 ≤ k := Nat.not_le.mpr hk
  by_cases hpri : u.rdA IC_SRC_PRI 0 k = 0 <;> simp [State.setPend, hthere, hpri]

theorem State.clrPend_eq {k : Nat} (hk : k < 1024) :
    u.clrPend k = if u.justSet (IC_SRC_P.key 0 k) 0 = false then (u.wrA IC_SRC_P 0 k 0).settleAll k else u := by
  have hthere : ¬ 1024 ≤ k := Nat.not_le.mpr hk
  cases hset : u.justSet (IC_SRC_P.key 0 k) 0 <;> simp [State.clrPend, hthere, hset]

end

/-- Settles O27: each command acts on sources of its writer and on targets of its function, and on no other. -/
theorem sourceCommands : Obligations.SourceCommands := by
  unfold Obligations.SourceCommands
  refine ⟨?input, ?setb, ?clrb, ?setn, ?clrn, ?claims, ?claimNone, ?completes, ?noTarget, ?src, ?tcfg, ?window⟩
  case input =>
    intro s u t src hu
    subst hu
    rfl
  case setb =>
    intro s u t f i v hu htakes
    change execIcSetb t f i v s = _
    rw [execIcSetb, ← hu, State.hostWrite_takes _ _ _ _ htakes]
  case clrb =>
    intro s u t f i v hu htakes
    change execIcClrb t f i v s = _
    rw [execIcClrb, ← hu, State.hostWrite_takes _ _ _ _ htakes]
  case setn =>
    intro s u t f v k hu htakes hk
    subst hk
    change execIcSetn t f v s = _
    rw [execIcSetn, ← hu, State.hostWrite_takes _ _ _ _ htakes, State.setPend_eq (Nat.mod_lt v (by decide))]
    simp only [beq_iff_eq, ite_and]
  case clrn =>
    intro s u t f v k hu htakes hk
    subst hk
    change execIcClrn t f v s = _
    rw [execIcClrn, ← hu, State.hostWrite_takes _ _ _ _ htakes, State.clrPend_eq (Nat.mod_lt v (by decide))]
    simp only [beq_iff_eq, ite_and]
  case claims =>
    intro s u t f vec g hu htakes htarget
    change execIcClaim t f vec s = _
    simp only [execIcClaim, ← hu, State.hostRead_takes _ _ _ _ htakes, htarget]
  case claimNone =>
    intro s u t f vec hu htakes hnone
    change execIcClaim t f vec s = _
    simp only [execIcClaim, ← hu, State.hostRead_takes _ _ _ _ htakes, hnone]
  case completes =>
    intro s u t f vec v g hu htakes htarget
    change execIcComplete t f vec v s = _
    simp only [execIcComplete, ← hu, State.hostWrite_takes _ _ _ _ htakes, htarget]
  case noTarget =>
    rintro s u t f vec v off i hu (⟨rfl, rfl⟩ | ⟨rfl, rfl⟩) htakes hnone
    · change execIcComplete t f vec v s = _
      simp only [execIcComplete, ← hu, State.hostWrite_takes _ _ _ _ htakes, hnone]
    · change execIcTcfg t f vec v s = _
      simp only [execIcTcfg, ← hu, State.hostWrite_takes _ _ _ _ htakes, hnone]
  case src =>
    intro s u t f src v hu htakes
    change execIcSrc t f src v s = _
    simp only [execIcSrc, ← hu, State.hostWrite_takes _ _ _ _ htakes, beq_iff_eq]
  case tcfg =>
    intro s u t f vec v g w x y hu htakes htarget hw hx hy
    subst hy hx hw
    change execIcTcfg t f vec v s = _
    simp only [execIcTcfg, ← hu, State.hostWrite_takes _ _ _ _ htakes, htarget]
  case window =>
    intro s u t g x w hu hwindow hdue hw
    subst hw
    change execCoalesceTimeout t g s = _
    simp only [execCoalesceTimeout, ← hu, hwindow, if_pos (show u.time.ivl ≥ x.at_ + u.rd IC_TTIME_TIME g * 1000 * ivlNs from hdue),
      Bool.and_eq_true]

/-! ### The ends of holds -/

theorem exec_holdEnd (t g : Nat) (h : HoldEnd) (s : State) : exec (.holdEnd t g h) s = execHoldEnd t g h s := rfl

/-- Settles O28: each hold ends at the target's function or link; a target that is not mapped has none. -/
theorem holdEnds : Obligations.HoldEnds := by
  unfold Obligations.HoldEnds
  refine ⟨?unmapped, ?unmask, ?functionMask, ?msixEnable, ?busMaster, ?d0, ?linkL0⟩
  case unmapped =>
    intro s u t g h hu hnone
    simp only [exec_holdEnd, execHoldEnd, ← hu, hnone]
  case linkL0 =>
    intro s u t g f w hu hfunc hw
    subst hw
    simp only [exec_holdEnd, execHoldEnd, ← hu, hfunc]
  all_goals
    intro s u t g f hu hfunc
    simp only [exec_holdEnd, execHoldEnd, ← hu, hfunc]

end Sys2Proof.Machine
end

section
/-! PROOFS. Fault sources and records (chapter 15); domains, operating point, pace and segment sleep (chapter 16). -/

namespace Sys2Proof.Machine

/-! ### Fault sources -/

/-- Settles O29: an event acts as its source's kind says, where its detail is a cause and the source has power. -/
theorem faultSources : Obligations.FaultSources := by
  unfold Obligations.FaultSources
  refine ⟨?noCause, ?queue, ?other, ?rail, ?expiry⟩
  case noCause =>
    intro s u t src detail hu hno
    change execFaultEvent t src detail s = _
    simp only [execFaultEvent, ← hu, hno, Bool.not_false, if_true]
  case queue =>
    intro s u t src detail hu hcause hlow hhigh
    change execFaultEvent t src detail s = _
    simp only [execFaultEvent, ← hu, hcause, Bool.not_true, Bool.false_eq_true, if_false, if_pos (And.intro hlow hhigh)]
  case other =>
    intro s u t src detail hu hcause hrange
    have hnotQueue : ¬ (64 ≤ src ∧ src < 128) := by omega
    change execFaultEvent t src detail s = _
    simp only [execFaultEvent, ← hu, hcause, Bool.not_true, Bool.false_eq_true, if_false, if_neg hnotQueue]
  case rail =>
    intro s u t src hu hdefined hpowered hnew
    change execRailFault t src s = _
    simp [execRailFault, ← hu, hdefined, hpowered, hnew]
  case expiry =>
    intro s u t src hu hkind hgone
    refine ⟨u.wrA FC_SRC_CAUSE 0 src 0, ?_, u.rdA_wrA_same FC_SRC_CAUSE 0 src 0, rfl,
      u.regsBut_wrA u _ FC_SRC_CAUSE 0 src 0 (u.regsBut_refl _) (List.mem_singleton_self _)⟩
    change execCauseExpiry t src s = _
    simp only [execCauseExpiry, ← hu, hkind, hgone]
    rfl

/-! ### Fault records and groups -/

section

variable {s u : State} {t g : Nat} {f : Func}

theorem exec_fcRec0_taken (hu : u = s.tick t) (htakes : u.takesRead f 0x20004 = true) :
    exec (.fcRec0 t f) s = .next ((u.popRec f).1.emit (.readDone f 0x20004 [(u.popRec f).2])) := by
  change execFcRec0 t f s = _
  rw [execFcRec0, ← hu, State.hostRead_takes _ _ _ _ htakes]

theorem exec_faultTest_taken {on : Bool} (hu : u = s.tick t) (htakes : u.takesWrite f (0x21000 + g * 0x20 + 0x14) = true) :
    exec (.faultTest t f g on) s = .next (if g < 16 ∧ u.gOwner g = u.tn f then
      let w := u.wrA FC_GTEST_TEST 0 g (b2n on)
      if on then w.faultAssert (240 + g) 0 else w.wrA FC_SRC_CAUSE 0 (240 + g) 0 else u) := by
  change execFaultTest t f g on s = _
  rw [execFaultTest, ← hu, State.hostWrite_takes _ _ _ _ htakes]

end

/-- Settles O30: a read takes the record first in severity order, and clear and test act in a group of the writer's own. -/
theorem faultRecords : Obligations.FaultRecords := by
  unfold Obligations.FaultRecords
  refine ⟨?pops, ?empty, ?clears, ?tests, ?foreign⟩
  case pops =>
    intro s u t f r w x hu htakes htop hw hx
    subst hx hw
    rw [exec_fcRec0_taken hu htakes]
    simp only [State.popRec, htop]
  case empty =>
    intro s u t f w x hu htakes htop hw hx
    subst hx hw
    rw [exec_fcRec0_taken hu htakes]
    simp only [State.popRec, htop]
    rfl
  case clears =>
    intro s u t f g v hu htakes
    change execFcGclr t f g v s = _
    rw [execFcGclr, ← hu, State.hostWrite_takes _ _ _ _ htakes]
  case tests =>
    intro s u t f g on w hu htakes hg howner hw
    subst hw
    rw [exec_faultTest_taken hu htakes, if_pos ⟨hg, howner⟩]
  case foreign =>
    intro s u t f g on hu htakes hforeign
    have hnot : ¬ (g < 16 ∧ u.gOwner g = u.tn f) := by
      rintro ⟨hg, howner⟩
      rcases hforeign with hbeyond | hother
      · exact Nat.not_lt.mpr hbeyond hg
      · exact hother howner
    rw [exec_faultTest_taken hu htakes, if_neg hnot]

/-! ### Power commands -/

section

variable {s u w : State} {t k d o p : Nat} {f : Func}

/-- Every power command is a write of TEN_PWR_CMD (R709). -/
theorem exec_powerCommand {i : Instr} (hu : u = s.tick t) (hi : i ∈ [.domainOff t f d, .domainOn t f d, .setOp t f o, .paceCal t f, .sleep t f p,
    .wake t f p, .vetoSet t f p, .vetoClr t f p, .wakeAck t f p, .fabricWake t f]) : ∃ g, exec i s = .next (u.pwrCmd f g) := by
  subst hu
  simp only [List.mem_cons, List.not_mem_nil, or_false] at hi
  rcases hi with rfl | rfl | rfl | rfl | rfl | rfl | rfl | rfl | rfl | rfl <;> exact ⟨_, rfl⟩

/-- A served power command while another runs only sets OVR (R710). -/
theorem State.pwrCmd_busy (g : State → Nat → State) (htakes : u.takesWrite f 0x78 = true) (hbusy : u.flag TEN_PWR_RES_BUSY (u.tn f) = true) :
    u.pwrCmd f g = u.put TEN_PWR_RES_OVR (u.tn f) true := by
  rw [State.pwrCmd, State.hostWrite_takes _ _ _ _ htakes]
  exact if_pos hbusy

/-- A served power command that finds BUSY 0 clears OVR and is judged for the writer's tenant (R710). -/
theorem State.pwrCmd_idle (g : State → Nat → State) (htakes : u.takesWrite f 0x78 = true) (hk : k = u.tn f)
    (hidle : u.flag TEN_PWR_RES_BUSY k = false) (hw : w = u.put TEN_PWR_RES_OVR k false) : u.pwrCmd f g = g w k := by
  subst hk hw
  rw [State.pwrCmd, State.hostWrite_takes _ _ _ _ htakes]
  exact if_neg (Bool.not_eq_true _ ▸ hidle)

/-- A domain command is judged in the order of R711. -/
theorem State.domCmd_eq (on : Bool) : w.domCmd k d on = if 140 ≤ d then w.domRefused k d 1 0 on
    else if w.domOwner d ≠ some k ∨ bitAt (w.rdA PM_DSW_SW 0 (d / 24)) (d % 24) = false then w.domRefused k d 2 0 on
    else if on = false ∧ w.offReason d ≠ 0 then w.domRefused k d 3 (w.offReason d) on
    else if w.domOn d = on then w.domRefused k d 4 0 on
    else { w with pm := { w.pm with switches := w.pm.switches ++ [(⟨d, on, k, w.now⟩ : DomSwitch)] } }.put TEN_PWR_RES_BUSY k true := by
  simp only [State.domCmd, Bool.not_eq_true', Bool.and_eq_true, bne_iff_ne, beq_iff_eq, ge_iff_le]

end

/-- Settles O31: a power command is judged in the order of R711, and its end completes it. -/
theorem powerDomains : Obligations.PowerDomains := by
  unfold Obligations.PowerDomains
  refine ⟨?busy, ?judged, ?offDone, ?onDone⟩
  case busy =>
    intro s u t f k d o p i hu hi htakes hk hbusy
    obtain ⟨g, hexec⟩ := exec_powerCommand hu hi
    subst hk
    rw [hexec, State.pwrCmd_busy g htakes hbusy]
  case judged =>
    rintro s u t f d k on i w hu (⟨rfl, rfl⟩ | ⟨rfl, rfl⟩) htakes hk hidle hw
    · change execDomainOff t f d s = _
      rw [execDomainOff, ← hu, State.pwrCmd_idle _ htakes hk hidle hw, State.domCmd_eq]
    · change execDomainOn t f d s = _
      rw [execDomainOn, ← hu, State.pwrCmd_idle _ htakes hk hidle hw, State.domCmd_eq]
  case offDone =>
    intro s u t d x hu hfind
    change execDomainOffDone t d s = _
    simp only [execDomainOffDone, ← hu, hfind]
  case onDone =>
    intro s u t d good x hu hfind
    change execDomainOnDone t d good s = _
    simp only [execDomainOnDone, ← hu, hfind]

/-! ### The operating point and the pace monitor -/

/-- Settles O32: a SET_OP and a calibration by their checks, a slew and a calibration's end by their time. -/
theorem operatingPoint : Obligations.OperatingPoint := by
  unfold Obligations.OperatingPoint
  refine ⟨?setOp, ?settled, ?sample, ?calibrates, ?calibrated⟩
  case setOp =>
    intro s u t f o k r w hu htakes hk hidle hw hr
    subst hr
    change execSetOp t f o s = _
    rw [execSetOp, ← hu, State.pwrCmd_idle _ htakes hk hidle hw]
  case settled =>
    intro s u t o gap w hu ho hgap hslew hdue hw
    have hends : (u.flag PM_STAT_SLEW 0 && decide (u.now * 10 ≥ u.pm.slewAt * 10 + (gap - 5) * tqPerUs + 20 * tqPerUs)) = true := by
      rw [hslew, decide_eq_true hdue]
      rfl
    subst hw
    change execSlewSettled t s = _
    simp only [execSlewSettled, ← hu, ← ho, ← hgap, if_pos hends]
  case sample =>
    intro s u t ps tj gov far w x y hu hgov hw hx hfar hy
    subst hgov hw hx hfar hy
    change execPaceSample t ps tj s = _
    simp only [execPaceSample, ← hu]
  case calibrates =>
    intro s u t f k w x hu htakes hk hidle hw hx
    subst hx
    change execPaceCal t f s = _
    rw [execPaceCal, ← hu, State.pwrCmd_idle _ htakes hk hidle hw]
    simp only [ne_eq, ite_not]
  case calibrated =>
    intro s u t factor why c w x hu hcal hdue hwhy hw hx
    subst hx hw
    change execPaceCalDone t factor s = _
    simp only [execPaceCalDone, ← hu, hcal, if_neg (Nat.not_lt.mpr hdue), ← hwhy]

/-! ### Segment sleep -/

section

variable {s u w : State} {t k p : Nat} {f : Func}

/-- A port's power command of another than the port's owner, or of a port without Anise, is refused (R709, R721). -/
theorem State.portPwr_refused (g : State → State × Nat) (htakes : u.takesWrite f 0x78 = true) (hk : k = u.tn f)
    (hidle : u.flag TEN_PWR_RES_BUSY k = false) (hw : w = u.put TEN_PWR_RES_OVR k false)
    (hforeign : 64 ≤ p ∨ w.flag FB_OWNER_VALID p = false ∨ w.fbOwner p ≠ k ∨ w.aniseOn p = false) :
    u.portPwr f p g = w.pwrDone k (if 64 ≤ p then 1 else 2) 0 := by
  rw [State.portPwr, State.pwrCmd_idle _ htakes hk hidle hw]
  by_cases hp : 64 ≤ p
  · simp only [ge_iff_le, hp, if_true]
  · have hnot : (!w.flag FB_OWNER_VALID p || w.fbOwner p != k || !w.aniseOn p) = true := by
      simpa [hp, or_assoc] using hforeign
    simp only [ge_iff_le, hp, if_false, hnot, if_true]

/-- A port's power command of its owner completes with what the port gives. -/
theorem State.portPwr_owner (g : State → State × Nat) (htakes : u.takesWrite f 0x78 = true) (hk : k = u.tn f)
    (hidle : u.flag TEN_PWR_RES_BUSY k = false) (hw : w = u.put TEN_PWR_RES_OVR k false) (hp : p < 64) (hvalid : w.flag FB_OWNER_VALID p = true)
    (howner : w.fbOwner p = k) (hanise : w.aniseOn p = true) : u.portPwr f p g = (g w).1.pwrDone k (g w).2 0 := by
  have hown : (!w.flag FB_OWNER_VALID p || w.fbOwner p != k || !w.aniseOn p) = false := by
    simp [hvalid, howner, hanise]
  rw [State.portPwr, State.pwrCmd_idle _ htakes hk hidle hw]
  simp only [ge_iff_le, Nat.not_le.mpr hp, if_false, hown, Bool.false_eq_true]

/-- Every port command of the power unit is judged for the port's owner. -/
theorem exec_portCommand {i : Instr} (hu : u = s.tick t)
    (hi : i ∈ [.sleep t f p, .wake t f p, .vetoSet t f p, .vetoClr t f p, .wakeAck t f p]) : ∃ g, exec i s = .next (u.portPwr f p g) := by
  subst hu
  simp only [List.mem_cons, List.not_mem_nil, or_false] at hi
  rcases hi with rfl | rfl | rfl | rfl | rfl <;> exact ⟨_, rfl⟩

theorem State.setVeto_done (v : Nat) : (w.setVeto p v).1.pwrDone k (w.setVeto p v).2 0 =
    if w.rdA PM_PSLP_VETO 0 p = v then w.pwrDone k 4 0 else (w.wrA PM_PSLP_VETO 0 p v).pwrDone k 0 0 := by
  rw [State.setVeto]
  split_ifs <;> rfl

end

/-- Settles O33: a port's command is judged for the port's owner, and completes with what the port gives. -/
theorem aniseCommands : Obligations.AniseCommands := by
  unfold Obligations.AniseCommands
  refine ⟨?refused, ?sleep, ?wake, ?vetoSet, ?vetoClr, ?wakeAck, ?fabricWake⟩
  case refused =>
    intro s u t f p k i w hu hi htakes hk hidle hw hforeign
    obtain ⟨g, hexec⟩ := exec_portCommand hu hi
    rw [hexec, State.portPwr_refused g htakes hk hidle hw hforeign]
  case sleep =>
    intro s u t f p k w hu htakes hk hidle hw hp hvalid howner hanise
    change execSleep t f p s = _
    rw [execSleep, ← hu, State.portPwr_owner _ htakes hk hidle hw hp hvalid howner hanise]
    split_ifs <;> rfl
  case wake =>
    intro s u t f p k w hu htakes hk hidle hw hp hvalid howner hanise
    change execWake t f p s = _
    rw [execWake, ← hu, State.portPwr_owner _ htakes hk hidle hw hp hvalid howner hanise]
    split_ifs <;> rfl
  case vetoSet =>
    intro s u t f p k w hu htakes hk hidle hw hp hvalid howner hanise
    change execVetoSet t f p s = _
    rw [execVetoSet, ← hu, State.portPwr_owner _ htakes hk hidle hw hp hvalid howner hanise, State.setVeto_done]
  case vetoClr =>
    intro s u t f p k w hu htakes hk hidle hw hp hvalid howner hanise
    change execVetoClr t f p s = _
    rw [execVetoClr, ← hu, State.portPwr_owner _ htakes hk hidle hw hp hvalid howner hanise, State.setVeto_done]
  case wakeAck =>
    intro s u t f p k w hu htakes hk hidle hw hp hvalid howner hanise
    change execWakeAck t f p s = _
    rw [execWakeAck, ← hu, State.portPwr_owner _ htakes hk hidle hw hp hvalid howner hanise]
    split_ifs <;> rfl
  case fabricWake =>
    intro s u t f k w hu htakes hk hidle hw
    change execFabricWake t f s = _
    rw [execFabricWake, ← hu, State.pwrCmd_idle _ htakes hk hidle hw]
    simp only [Bool.not_eq_true']

/-- Settles O34: a round, a sleep entry and a wake end where their time or their boundary has come. -/
theorem aniseTimers : Obligations.AniseTimers := by
  unfold Obligations.AniseTimers
  refine ⟨?sent, ?unsent, ?sleeps, ?wakes⟩
  case sent =>
    intro s u t p a hu hstate hsent hdue
    change execAniseWindowTimeout t p s = _
    simp only [execAniseWindowTimeout, ← hu, if_neg (not_not.mpr hstate), hsent]
    exact congrArg _ (if_pos hdue)
  case unsent =>
    intro s u t p hu hstate hunsent hdue
    change execAniseWindowTimeout t p s = _
    simp only [execAniseWindowTimeout, ← hu, if_neg (not_not.mpr hstate), hunsent]
    exact congrArg _ (if_pos hdue)
  case sleeps =>
    intro s u t p w hu hdue hidle htail hbus hw
    have hentry : ¬ (!(u.an p).sleepDue || (u.port p).cur.isSome || (u.port p).tail || !(u.onBus p || u.fstate p == fbIntegrating)) = true := by
      rcases hbus with h | h <;> simp [hdue, hidle, htail, h]
    subst hw
    change execAniseSleepEntry t p s = _
    simp only [execAniseSleepEntry, ← hu, if_neg hentry, beq_iff_eq]
  case wakes =>
    intro s u t p hu hstate hdue
    change execWakeAnswerTimeout t p s = _
    simp only [execWakeAnswerTimeout, ← hu]
    exact congrArg _ (if_pos ⟨hstate, hdue⟩)

end Sys2Proof.Machine
end

section
/-! PROOFS. Images and activation (chapter 17), start-up (chapter 18), the test access port and what the hardware reports (chapters 05, 15, 20). -/

namespace Sys2Proof.Machine

/-! ### Sessions -/

section

variable {s u w : State} {t k : Nat} {f : Func} {force : Bool}

/-- Every command of the configuration unit is a write of CU_CMD (R769). -/
theorem exec_cuCommand {i : Instr} (hu : u = s.tick t)
    (hi : i ∈ [.sessionOpen t f force, .sessionClose t f, .sessionAbort t f, .activate t f, .activateCold t f, .rollfwd t f]) :
    ∃ g, exec i s = .next (u.cuCmd f g) := by
  subst hu
  simp only [List.mem_cons, List.not_mem_nil, or_false] at hi
  rcases hi with rfl | rfl | rfl | rfl | rfl | rfl <;> exact ⟨_, rfl⟩

/-- A served command while another runs only sets OVR (R768). -/
theorem State.cuCmd_busy (g : State → Nat → State) (htakes : u.takesWrite f 0x38004 = true) (hbusy : u.flag CU_RES_BUSY 0 = true) :
    u.cuCmd f g = u.put CU_RES_OVR 0 true := by
  rw [State.cuCmd, State.hostWrite_takes _ _ _ _ htakes]
  exact if_pos hbusy

/-- A served command that finds BUSY 0 clears OVR and is judged for the writer's tenant (R769). -/
theorem State.cuCmd_idle (g : State → Nat → State) (htakes : u.takesWrite f 0x38004 = true) (hk : k = u.tn f)
    (hidle : u.flag CU_RES_BUSY 0 = false) (hw : w = u.put CU_RES_OVR 0 false) : u.cuCmd f g = g w k := by
  subst hk hw
  rw [State.cuCmd, State.hostWrite_takes _ _ _ _ htakes]
  exact if_neg (Bool.not_eq_true _ ▸ hidle)

end

/-- Settles O35: a session's command is judged in the order of R747, R748 and R751. -/
theorem imageSessions : Obligations.ImageSessions := by
  unfold Obligations.ImageSessions
  refine ⟨?busy, ?opens, ?erased, ?noSession, ?closes, ?aborts⟩
  case busy =>
    intro s u t f force i hu hi htakes hbusy
    obtain ⟨g, hexec⟩ := exec_cuCommand hu hi
    rw [hexec, State.cuCmd_busy g htakes hbusy]
  case opens =>
    intro s u t f force k w x hu htakes hk hidle hw hx
    subst hx
    change execSessionOpen t f force s = _
    rw [execSessionOpen, ← hu, State.cuCmd_idle _ htakes hk hidle hw]
    simp only [Bool.not_eq_true']
  case erased =>
    intro s u t w x hu herasing hw hx
    subst hx hw
    change execEraseDone t s = _
    simp only [execEraseDone, ← hu, herasing, Bool.not_true, Bool.false_eq_true, if_false]
  case noSession =>
    rintro s u t f k i w hu (rfl | rfl) htakes hk hidle hw hnone
    · change execSessionClose t f s = _
      rw [execSessionClose, ← hu, State.cuCmd_idle _ htakes hk hidle hw, hnone]
      rfl
    · change execSessionAbort t f s = _
      rw [execSessionAbort, ← hu, State.cuCmd_idle _ htakes hk hidle hw, hnone]
      rfl
  case closes =>
    intro s u t f k b ok w hu htakes hk hidle hw hsession hb hok
    subst hok hb
    change execSessionClose t f s = _
    rw [execSessionClose, ← hu, State.cuCmd_idle _ htakes hk hidle hw, hsession]
    rfl
  case aborts =>
    intro s u t f k w hu htakes hk hidle hw hsession
    change execSessionAbort t f s = _
    rw [execSessionAbort, ← hu, State.cuCmd_idle _ htakes hk hidle hw, hsession]
    rfl

/-! ### The transfer window and pulls -/

/-- Settles O36: words are programmed where the session's slot takes them, by the window or by a pull. -/
theorem imageTransfer : Obligations.ImageTransfer := by
  unfold Obligations.ImageTransfer
  refine ⟨?window, ?refused, ?pulls, ?arrives⟩
  case window =>
    intro s u t f off data x hu hanswers hquiet hallowed hx
    subst hx
    change execWindowWrite t f off data s = _
    simp only [execWindowWrite, ← hu, hanswers, hquiet, Bool.not_true, Bool.or_self, Bool.false_eq_true, if_false, hallowed, Bool.or_eq_true,
      Bool.not_eq_true', or_assoc, State.xferRej]
    split_ifs <;> rfl
  case refused =>
    intro s u t f off data a r hu hanswers hquiet ha hrefused
    subst ha
    change execWindowWrite t f off data s = _
    simp only [execWindowWrite, ← hu, hanswers, hquiet, Bool.not_true, Bool.or_self, Bool.false_eq_true, if_false, hrefused]
  case pulls =>
    intro s u t f k n x hu htakes hk hn hx
    subst hx hn hk
    change execPullGo t f s = _
    rw [execPullGo, ← hu, State.hostWriteOr_takes _ _ _ _ _ htakes]
    simp only [Bool.or_eq_true, Bool.not_eq_true']
  case arrives =>
    intro s u t link tag x r hu hread hpull
    change execPullDone t link tag r s = _
    simp only [execPullDone, ← hu, hread, if_neg (not_not.mpr hpull)]

/-! ### Activation -/

/-- Settles O37: each command of an activation by its checks, the check and the gap by what they find. -/
theorem activation : Obligations.Activation := by
  unfold Obligations.Activation
  refine ⟨?foreign, ?warm, ?cold, ?rollforward, ?checked, ?gap, ?rollDone, ?enrollDone⟩
  case foreign =>
    rintro s u t f k i w hu (rfl | rfl | rfl) htakes hk hidle hw hforeign
    · change execActivate t f s = _
      rw [execActivate, ← hu, State.cuCmd_idle _ htakes hk hidle hw, if_pos hforeign]
    · change execActivateCold t f s = _
      rw [execActivateCold, ← hu, State.cuCmd_idle _ htakes hk hidle hw, if_pos hforeign]
    · change execRollfwd t f s = _
      rw [execRollfwd, ← hu, State.cuCmd_idle _ htakes hk hidle hw, if_pos hforeign]
  case warm =>
    intro s u t f k w hu htakes hk hidle hw howner
    change execActivate t f s = _
    rw [execActivate, ← hu, State.cuCmd_idle _ htakes hk hidle hw, if_neg (not_not.mpr howner)]
    simp only [Bool.or_eq_true, Bool.not_eq_true']
  case cold =>
    intro s u t f k w x hu htakes hk hidle hw howner hx
    subst hx
    change execActivateCold t f s = _
    rw [execActivateCold, ← hu, State.cuCmd_idle _ htakes hk hidle hw, if_neg (not_not.mpr howner)]
    cases w.activatable <;> rfl
  case rollforward =>
    intro s u t f k v w hu htakes hk hidle hw howner hv
    subst hv
    change execRollfwd t f s = _
    rw [execRollfwd, ← hu, State.cuCmd_idle _ htakes hk hidle hw, if_neg (not_not.mpr howner)]
    simp only [Bool.or_eq_true]
  case checked =>
    intro s u t nvm k v w x y hu hphase hk hv hw hx hy
    change execCheckDone t nvm s = _
    simp only [execCheckDone, ← hu, if_neg (not_not.mpr hphase), ← hk, ← hv, ← hw]
    cases v with
    | fail c where_ => rfl
    | pass l =>
      dsimp only at hx ⊢
      rw [← hx, ← hy]
  case gap =>
    intro s u t l k us bad w x y z hu hnext hk hus hbad hw hx hy hz
    change execGapEnd t s = _
    simp only [execGapEnd, ← hu, hnext, ← hk, ← hus, ← hbad, ← hw, ← hx, ← hy, ← hz]
  case rollDone =>
    intro s u t v rest w hu hwrites hw
    subst hw
    change execOtpWriteDone t s = _
    simp only [execOtpWriteDone, ← hu, hwrites]
  case enrollDone =>
    intro s u t a b rest hu hwrites
    change execOtpWriteDone t s = _
    simp only [execOtpWriteDone, ← hu, hwrites]

/-! ### Start-up -/

theorem State.bootCheck_empty {u : State} {k : Nat} (hempty : (u.nvm k).st = slEmpty) (nvm : Bool) : u.bootCheck k nvm = (u, .error (1, 0, 0)) :=
  if_pos hempty

section

variable {s u w x : State} {t start count a c sec entry : Nat} {nvm1 nvm2 : Bool} {l : Loaded}

/-- The boot of a device that is down runs the image of BOOTSEL's slot where its check passes (R754, R780). -/
theorem exec_boot_selected (hu : u = s.tick t) (hdown : u.sys.down = true) (ha : a = u.rd CU_STAT_BOOTSEL 0)
    (hcheck : u.bootCheck a nvm1 = (w, .ok l)) : exec (.boot t start count nvm1 nvm2) s = .next (w.bootImage l a start count) := by
  change execBoot t start count nvm1 nvm2 s = _
  simp only [execBoot, ← hu, hdown, ← ha, Bool.not_true, Bool.false_eq_true, if_false, hcheck]

/-- Where that check fails and the other slot's passes, the other slot's image runs, with FALLBACK (R754, R786). -/
theorem exec_boot_fallback (hu : u = s.tick t) (hdown : u.sys.down = true) (ha : a = u.rd CU_STAT_BOOTSEL 0)
    (hcheck : u.bootCheck a nvm1 = (w, .error (c, sec, entry))) (hother : w.bootCheck (1 - a) nvm2 = (x, .ok l)) :
    exec (.boot t start count nvm1 nvm2) s = .next ((((((x.wr CU_STAT_BOOTSEL 0 (1 - a)).put CU_STAT_FALLBACK 0 true).setCu fun y =>
      { y with fallback := some (a, c) }).bootImage l (1 - a) start count).checkEvent a c 2 sec entry).tellFallback) := by
  change execBoot t start count nvm1 nvm2 s = _
  simp only [execBoot, ← hu, hdown, ← ha, Bool.not_true, Bool.false_eq_true, if_false, hcheck, hother]

theorem exec_boot_bare {e : Nat × Nat × Nat} (hu : u = s.tick t) (hdown : u.sys.down = true) (ha : a = u.rd CU_STAT_BOOTSEL 0)
    (hcheck : u.bootCheck a nvm1 = (w, .error (c, sec, entry))) (hother : w.bootCheck (1 - a) nvm2 = (x, .error e)) :
    exec (.boot t start count nvm1 nvm2) s = .next (x.bootBare start count) := by
  change execBoot t start count nvm1 nvm2 s = _
  simp only [execBoot, ← hu, hdown, ← ha, Bool.not_true, Bool.false_eq_true, if_false, hcheck, hother]

end

/-- Settles O38: each reset by its cause, a boot by what its checks find, PERST# by its level. -/
theorem startUp : Obligations.StartUp := by
  unfold Obligations.StartUp
  refine ⟨?powerOn, ?brownOut, ?resetN, ?command, ?boots, ?bothEmpty, ?perstHigh, ?perstLow⟩
  case powerOn =>
    intro s u t hu
    subst hu
    rfl
  case brownOut =>
    intro s u t low hu
    subst hu
    rfl
  case resetN =>
    intro s u t hu
    subst hu
    rfl
  case command =>
    intro s u t a hu hcold hdue
    change execCommandReset t s = _
    simp only [execCommandReset, ← hu, hcold]
    exact congrArg _ (if_pos hdue)
  case boots =>
    intro s u t start count a nvm1 nvm2 hu hdown ha
    rcases hcheck : u.bootCheck a nvm1 with ⟨w, ⟨c, sec, entry⟩ | l⟩
    · rcases hother : w.bootCheck (1 - a) nvm2 with ⟨x, e | l⟩
      · simp only [exec_boot_bare hu hdown ha hcheck hother, hother]
      · simp only [exec_boot_fallback hu hdown ha hcheck hother, hother]
    · exact exec_boot_selected hu hdown ha hcheck
  case bothEmpty =>
    intro s u t start count nvm1 nvm2 hu hdown hempty
    exact exec_boot_bare hu hdown rfl (State.bootCheck_empty (hempty _) nvm1) (State.bootCheck_empty (hempty _) nvm2)
  case perstHigh =>
    intro s u t link hu hlink
    change execPerst t link true s = _
    simp only [execPerst, ← hu, if_neg (Nat.not_lt.mpr hlink), if_true]
  case perstLow =>
    intro s u t link w hu hlink hw
    subst hw
    change execPerst t link false s = _
    simp only [execPerst, ← hu, if_neg (Nat.not_lt.mpr hlink), Bool.false_eq_true, if_false]

/-! ### The test access port -/

/-- Loading an instruction changes the test access port and what leaves the device, and no more (R835, R838). -/
theorem State.tapLoad_frame (u : State) (code : Nat) :
    (u.tapLoad code).tap = ⟨code, true⟩ ∧ u.tapLoad code = { u with tap := (u.tapLoad code).tap, out := (u.tapLoad code).out } := by
  unfold State.tapLoad
  dsimp only
  split <;> exact ⟨rfl, rfl⟩

/-- Settles O39: each command loads its instruction. -/
theorem boundaryScan : Obligations.BoundaryScan := by
  unfold Obligations.BoundaryScan
  refine ⟨?reset, ?idcode, ?sample, ?loads⟩
  case reset =>
    intro s u t hu
    subst hu
    rfl
  case idcode =>
    intro s u t hu
    subst hu
    rfl
  case sample =>
    intro s u t hu
    subst hu
    rfl
  case loads =>
    intro s u t i code hu hi
    have hload : exec i s = .next (u.tapLoad code) := by
      subst hu
      simp only [List.mem_cons, Prod.mk.injEq, List.not_mem_nil, or_false] at hi
      rcases hi with ⟨rfl, rfl⟩ | ⟨rfl, rfl⟩ | ⟨rfl, rfl⟩ | ⟨rfl, rfl⟩ | ⟨rfl, rfl⟩ | ⟨rfl, rfl⟩ <;> rfl
    exact ⟨u.tapLoad code, hload, u.tapLoad_frame code⟩

/-! ### What the hardware reports -/

/-- The end of a level cause at a source of kind L other than that of the Mace nets (R668, R670). -/
theorem State.levelEnd_kindL {u : State} {src : Nat} (hkind : kindL src = true) (hnet : src ≠ 196) :
    u.levelEnd src = (u.wrA FC_SRC_RAILEQ 0 src 0).wrA FC_SRC_CAUSE 0 src 0 := by
  simp only [State.levelEnd, hkind, if_true, if_neg hnet]

theorem exec_levelCauseEnd {s u : State} {t src : Nat} (hu : u = s.tick t) :
    exec (.levelCauseEnd t src) s = .next (if src = 188 then (u.levelEnd src).handWaiting
      else if src < 64 then (u.levelEnd src).setPort src fun x => { x with txdomHold := false } else u.levelEnd src) := by
  subst hu
  rfl

/-- Settles O40: terminations, temperatures, level causes and nets act where they change. -/
theorem hardwareEvents : Obligations.HardwareEvents := by
  unfold Obligations.HardwareEvents
  refine ⟨?disconnect, ?reconnect, ?shutdown, ?recovery, ?levelEnds, ?levelEndsAlone, ?net⟩
  case disconnect =>
    intro s u t p arm hu
    change execTermArmDisconnect t p arm s = _
    simp only [execTermArmDisconnect, ← hu, Bool.and_eq_true, decide_eq_true_eq, Bool.not_eq_true', and_assoc]
  case reconnect =>
    intro s u t p arm hu
    subst hu
    rfl
  case shutdown =>
    intro s u t p hu
    change execThermalShutdown t p s = _
    simp only [execThermalShutdown, ← hu, Bool.not_eq_true']
  case recovery =>
    intro s u t p w hu hp hhot hw
    subst hw
    change execThermalRecovery t p s = _
    simp only [execThermalRecovery, ← hu]
    exact if_pos ⟨hp, hhot⟩
  case levelEnds =>
    intro s u t src w hu hw
    rw [exec_levelCauseEnd hu, hw]
  case levelEndsAlone =>
    intro s u t src hu hsrc hrail hnet hkind
    rw [exec_levelCauseEnd hu, if_neg hrail, if_neg (Nat.not_lt.mpr hsrc), State.levelEnd_kindL hkind hnet]
  case net =>
    intro s u t g eq w hu hg hw
    change execMaceNetRailEqual t g eq s = _
    simp only [execMaceNetRailEqual, ← hu, if_neg (Nat.not_le.mpr hg), ← hw]
    cases eq <;> rfl

/-- Settles O41: the device's own upkeep acts where its time has come or its bank has power. -/
theorem housekeeping : Obligations.Housekeeping := by
  unfold Obligations.Housekeeping
  refine ⟨?nak, ?scrub, ?scrubNothing, ?leases, ?credit⟩
  case nak =>
    intro s u t port a hu hnak hup hdue
    change execNakRepeat t port s = _
    simp only [execNakRepeat, ← hu, hnak]
    exact congrArg _ (if_pos ⟨hup, hdue⟩)
  case scrub =>
    intro s u t frame bad hu hframe hon
    have hruns : ¬ (decide (frame ≥ 32768) || !u.domOn (108 + u.slotBank frame)) = true := by
      simp [hon, hframe]
    change execFrameStoreScrub t frame bad s = _
    simp only [execFrameStoreScrub, ← hu, if_neg hruns]
    cases bad <;> rfl
  case scrubNothing =>
    intro s u t frame bad hu hoff
    have hnothing : (decide (frame ≥ 32768) || !u.domOn (108 + u.slotBank frame)) = true := by
      rcases hoff with h | h <;> simp [h]
    change execFrameStoreScrub t frame bad s = _
    simp only [execFrameStoreScrub, ← hu, if_pos hnothing]
  case leases =>
    intro s u t hu
    subst hu
    rfl
  case credit =>
    intro s u t link n hu
    subst hu
    rfl

end Sys2Proof.Machine
end
